-- ==== Sys2Proof/Word.lean ====
section
/-!
DEFINITION. The machine's words: 32-bit registers and instruction words, 64-bit addresses and counters, bytes (R6, R41).
-/

namespace Sys2Proof

/-- One byte of memory; multi-byte values are little-endian (R6). -/
abbrev Byte := BitVec 8

/-- A register, an instruction word or a literal word (R41). -/
abbrev Word := BitVec 32

/-- A 64-bit value: a global virtual address held in a base pair, a counter (R208, R270). -/
abbrev DWord := BitVec 64

/-- The pair s(n+1):s(n) as one 64-bit value, `lo` its low word (R45). -/
def DWord.ofWords (lo hi : Word) : DWord := (hi ++ lo : BitVec 64)

/-- The low word of a 64-bit value. -/
def DWord.lo (d : DWord) : Word := d.setWidth 32

/-- The high word of a 64-bit value. -/
def DWord.hi (d : DWord) : Word := (d >>> 32).setWidth 32

end Sys2Proof
end

