-- ==== Sys2Proof/Syntax.lean ====
section
/-!
DEFINITION. The instructions and steps of spec/opcode_table.json: one constructor of `Instr` per row. The first 224 are
instruction words (R42 to R58), with their operand fields as R44, R45 and R51 to R55 limit them; the other 101 are the
steps that other agents of the device take (spec/95_what_each_step_holds.md), with what the outside party brings as
arguments. Fields whose values R44 and R45 limit are typed by the limit, so an instruction outside it cannot be written.
-/

namespace Sys2Proof

/-- A field marked "src" (R44): a register, a latch, ZERO, TID, the literal word, or ABC. -/
inductive Src where
  | reg (n : Fin 120)
  | latch (k : Fin 4)
  | zero
  | tid
  | lit (w : Word)
  | abc
deriving DecidableEq, Repr

/-- A destination field (R44): a register, or `_` (code 124), which discards the result. -/
inductive Dest where
  | reg (n : Fin 120)
  | discard
deriving DecidableEq, Repr

/-- The data field of a store or reduction, codes 0 to 124 (R54, R253, R259): a register, a latch or ZERO. -/
inductive Data where
  | reg (n : Fin 120)
  | latch (k : Fin 4)
  | zero
deriving DecidableEq, Repr

/-- The addend or threshold of a counter word: one s register, or a pair when W = 1 (R272, R274). -/
inductive CSrc where
  | one (s : Fin 64)
  | pair (n : Fin 32)
deriving DecidableEq, Repr

/-- The function of QOP (R152). -/
inductive QFun where
  | and | or | xor | andn | not
deriving DecidableEq, Repr

/-- The fields of a GM word (R43): format slots, accumulator, hold, zero, B tile, A octet (0 to 14, R55), target core. -/
structure MmaOps where
  slotA : Fin 8
  slotB : Fin 8
  acc : Bool
  h : Bool
  z : Bool
  tile : Fin 64
  oct : Fin 15
  core : Fin 4
deriving DecidableEq, Repr

/-- An edge of a partition's rectangle (R310). -/
inductive Edge where
  | left | right | top | bottom
deriving DecidableEq, Repr

/-- The fields of a collective's command record in which its members have to agree: OPC, DT, RED, COUNT and PEER (R189). -/
structure CollHead where
  opc : Nat
  dt : Nat
  red : Nat
  count : Nat
  peer : Nat
deriving DecidableEq, Repr

/-- What another member sends over the network (R189): its rank, which of its collectives on the communicator this is, counted from
0, the fields in which the members have to agree, and the bytes. -/
structure Msg where
  rank : Nat
  n : Nat
  head : CollHead
  bytes : List Byte
deriving DecidableEq, Repr

/-- A remote access that arrives over a port (R189): a put with the counter to add to (0 for none), or a get. -/
inductive RemoteAccess where
  | put (ctx va : Nat) (bytes : List Byte) (rcnt : Nat)
  | get (ctx va len : Nat)
deriving DecidableEq, Repr

/-- The four words of an address-range entry (R343). -/
structure RangeWords where
  base : DWord
  size : DWord
  stk : DWord
  ctl : DWord
deriving DecidableEq, Repr

/-- The operation of an atomic at memory (R258, R259), as an atomic packet names it (R342). -/
inductive AtomOp where
  | add | add64 | min | max | and | or | xchg | cas | radd | raddf | rmax
deriving DecidableEq, Repr

/-- A request packet to a stack controller (R342). `stack` is 2 × slice + stack; `line` is L[35:7]; `data` is the line's
new bytes (OP 1); `aop`, `off`, `x`, `y` are an atomic packet's operation, byte offset in the line and operands. -/
structure Packet where
  stack : Nat
  tag : BitVec 10
  line : Nat
  smask : BitVec 4
  layout : BitVec 2
  acls : BitVec 2
  comp : Bool
  data : List Byte
  aop : AtomOp
  off : Nat
  x : DWord
  y : Word
deriving DecidableEq, Repr

/-- The operation of a host hart's AMO (R227). -/
inductive HostAmo where
  | swap | add | xor | and | or | min | max | minu | maxu
deriving DecidableEq, Repr

/-- An access of a host hart (R227). `via` is the physical address of the root of the process's Sv57 tables, by which the address is
translated; `none` for a physical address. `wide` says that an AMO, LR or SC is of 8 bytes, else of 4. -/
inductive HostAccess where
  | load (via : Option Nat) (a size : Nat)
  | store (via : Option Nat) (a : Nat) (bytes : List Byte)
  | amo (via : Option Nat) (a : Nat) (op : HostAmo) (wide : Bool) (x : DWord) (aq rl : Bool)
  | lr (via : Option Nat) (a : Nat) (wide aq rl : Bool)
  | sc (via : Option Nat) (a : Nat) (wide : Bool) (x : DWord) (aq rl : Bool)
  | fence
deriving DecidableEq, Repr

/-- One constructor per row of spec/opcode_table.json. -/
inductive Instr where
  /-- NOP (R84) -/
  | nop (g : BitVec 3)
  /-- MOV (R85) -/
  | mov (g : BitVec 3) (d : Dest) (a : Src)
  /-- VBC (R86) -/
  | vbc (g : BitVec 3) (d : Dest) (s : Fin 64)
  /-- IADD (R87) -/
  | iadd (g : BitVec 3) (d : Dest) (a : Src) (b : Src)
  /-- ISUB (R87) -/
  | isub (g : BitVec 3) (d : Dest) (a : Src) (b : Src)
  /-- IMUL (R87) -/
  | imul (g : BitVec 3) (d : Dest) (a : Src) (b : Src)
  /-- IMULH (R87) -/
  | imulh (g : BitVec 3) (d : Dest) (a : Src) (b : Src)
  /-- IMULHU (R87) -/
  | imulhu (g : BitVec 3) (d : Dest) (a : Src) (b : Src)
  /-- IMAC (R87) -/
  | imac (g : BitVec 3) (d : Fin 120) (a : Src) (b : Src)
  /-- IMIN (R88) -/
  | imin (g : BitVec 3) (d : Dest) (a : Src) (b : Src)
  /-- IMAX (R88) -/
  | imax (g : BitVec 3) (d : Dest) (a : Src) (b : Src)
  /-- UMIN (R88) -/
  | umin (g : BitVec 3) (d : Dest) (a : Src) (b : Src)
  /-- UMAX (R88) -/
  | umax (g : BitVec 3) (d : Dest) (a : Src) (b : Src)
  /-- IABS (R88) -/
  | iabs (g : BitVec 3) (d : Dest) (a : Src)
  /-- AND (R89) -/
  | andOp (g : BitVec 3) (d : Dest) (a : Src) (b : Src)
  /-- OR (R89) -/
  | orOp (g : BitVec 3) (d : Dest) (a : Src) (b : Src)
  /-- XOR (R89) -/
  | xorOp (g : BitVec 3) (d : Dest) (a : Src) (b : Src)
  /-- ANDN (R89) -/
  | andn (g : BitVec 3) (d : Dest) (a : Src) (b : Src)
  /-- SHL (R90) -/
  | shl (g : BitVec 3) (d : Dest) (a : Src) (b : Src)
  /-- SHR (R90) -/
  | shr (g : BitVec 3) (d : Dest) (a : Src) (b : Src)
  /-- SAR (R90) -/
  | sar (g : BitVec 3) (d : Dest) (a : Src) (b : Src)
  /-- CLZ (R91) -/
  | clz (g : BitVec 3) (d : Dest) (a : Src)
  /-- POPC (R91) -/
  | popc (g : BitVec 3) (d : Dest) (a : Src)
  /-- BREV (R91) -/
  | brev (g : BitVec 3) (d : Dest) (a : Src)
  /-- BFE (R92) -/
  | bfe (g : BitVec 3) (d : Dest) (a : Src) (b : Src)
  /-- BFES (R92) -/
  | bfes (g : BitVec 3) (d : Dest) (a : Src) (b : Src)
  /-- BFI (R93) -/
  | bfi (g : BitVec 3) (d : Fin 120) (a : Src) (b : Src)
  /-- SEL (R94) -/
  | sel (g : BitVec 3) (d : Dest) (a : Src) (b : Src)
  /-- ICMPEQ (R95) -/
  | icmpeq (g : BitVec 3) (p : Fin 7) (a : Src) (b : Src)
  /-- ICMPNE (R95) -/
  | icmpne (g : BitVec 3) (p : Fin 7) (a : Src) (b : Src)
  /-- ICMPLT (R95) -/
  | icmplt (g : BitVec 3) (p : Fin 7) (a : Src) (b : Src)
  /-- ICMPLE (R95) -/
  | icmple (g : BitVec 3) (p : Fin 7) (a : Src) (b : Src)
  /-- UCMPLT (R95) -/
  | ucmplt (g : BitVec 3) (p : Fin 7) (a : Src) (b : Src)
  /-- UCMPLE (R95) -/
  | ucmple (g : BitVec 3) (p : Fin 7) (a : Src) (b : Src)
  /-- PAND (R96) -/
  | pand (g : BitVec 3) (p : Fin 7) (a : Fin 8) (b : Fin 8)
  /-- POR (R96) -/
  | por (g : BitVec 3) (p : Fin 7) (a : Fin 8) (b : Fin 8)
  /-- PXOR (R96) -/
  | pxor (g : BitVec 3) (p : Fin 7) (a : Fin 8) (b : Fin 8)
  /-- PNOT (R96) -/
  | pnot (g : BitVec 3) (p : Fin 7) (a : Fin 8)
  /-- PTOV (R97) -/
  | ptov (g : BitVec 3) (d : Dest) (a : Fin 8)
  /-- VTOP (R97) -/
  | vtop (g : BitVec 3) (p : Fin 7) (a : Src)
  /-- FADD (R98) -/
  | fadd (g : BitVec 3) (d : Dest) (a : Src) (b : Src)
  /-- FSUB (R98) -/
  | fsub (g : BitVec 3) (d : Dest) (a : Src) (b : Src)
  /-- FMUL (R98) -/
  | fmul (g : BitVec 3) (d : Dest) (a : Src) (b : Src)
  /-- FMAC (R99) -/
  | fmac (g : BitVec 3) (d : Fin 120) (a : Src) (b : Src)
  /-- FMAL (R99) -/
  | fmal (g : BitVec 3) (d : Dest) (a : Src) (b : Src)
  /-- FMIN (R100) -/
  | fmin (g : BitVec 3) (d : Dest) (a : Src) (b : Src)
  /-- FMAX (R100) -/
  | fmax (g : BitVec 3) (d : Dest) (a : Src) (b : Src)
  /-- FSCALE (R101) -/
  | fscale (g : BitVec 3) (d : Dest) (a : Src) (b : Src)
  /-- FCMPEQ (R102) -/
  | fcmpeq (g : BitVec 3) (p : Fin 7) (a : Src) (b : Src)
  /-- FCMPLT (R102) -/
  | fcmplt (g : BitVec 3) (p : Fin 7) (a : Src) (b : Src)
  /-- FCMPLE (R102) -/
  | fcmple (g : BitVec 3) (p : Fin 7) (a : Src) (b : Src)
  /-- FCMPUN (R102) -/
  | fcmpun (g : BitVec 3) (p : Fin 7) (a : Src) (b : Src)
  /-- FRCP (R103) -/
  | frcp (g : BitVec 3) (d : Dest) (a : Src)
  /-- FRSQ (R103) -/
  | frsq (g : BitVec 3) (d : Dest) (a : Src)
  /-- FSQRT (R103) -/
  | fsqrt (g : BitVec 3) (d : Dest) (a : Src)
  /-- FEXP2 (R103) -/
  | fexp2 (g : BitVec 3) (d : Dest) (a : Src)
  /-- FLOG2 (R103) -/
  | flog2 (g : BitVec 3) (d : Dest) (a : Src)
  /-- FSINPI (R103) -/
  | fsinpi (g : BitVec 3) (d : Dest) (a : Src)
  /-- FCOSPI (R103) -/
  | fcospi (g : BitVec 3) (d : Dest) (a : Src)
  /-- FTANH (R103) -/
  | ftanh (g : BitVec 3) (d : Dest) (a : Src)
  /-- BADD2 (R104) -/
  | badd2 (g : BitVec 3) (d : Dest) (a : Src) (b : Src)
  /-- BMUL2 (R104) -/
  | bmul2 (g : BitVec 3) (d : Dest) (a : Src) (b : Src)
  /-- BMAC2 (R104) -/
  | bmac2 (g : BitVec 3) (d : Fin 120) (a : Src) (b : Src)
  /-- BMAX2 (R104) -/
  | bmax2 (g : BitVec 3) (d : Dest) (a : Src) (b : Src)
  /-- HADD2 (R104) -/
  | hadd2 (g : BitVec 3) (d : Dest) (a : Src) (b : Src)
  /-- HMUL2 (R104) -/
  | hmul2 (g : BitVec 3) (d : Dest) (a : Src) (b : Src)
  /-- HMAC2 (R104) -/
  | hmac2 (g : BitVec 3) (d : Fin 120) (a : Src) (b : Src)
  /-- HMAX2 (R104) -/
  | hmax2 (g : BitVec 3) (d : Dest) (a : Src) (b : Src)
  /-- CVTFI (R105) -/
  | cvtfi (g : BitVec 3) (d : Dest) (a : Src)
  /-- CVTIF (R106) -/
  | cvtif (g : BitVec 3) (d : Dest) (a : Src)
  /-- PKBF (R16) -/
  | pkbf (g : BitVec 3) (d : Dest) (a : Src) (b : Src)
  /-- PKHF (R107) -/
  | pkhf (g : BitVec 3) (d : Dest) (a : Src) (b : Src)
  /-- UPKLO (R108) -/
  | upklo (g : BitVec 3) (d : Dest) (a : Src)
  /-- UPKHI (R108) -/
  | upkhi (g : BitVec 3) (d : Dest) (a : Src)
  /-- CVTN (R111) -/
  | cvtn (g : BitVec 3) (d : Dest) (a : Src) (slot : Fin 8) (mode : BitVec 4)
  /-- CVTW (R112) -/
  | cvtw (g : BitVec 3) (d : Dest) (a : Src) (slot : Fin 8) (mode : BitVec 4)
  /-- QSCALE (R113) -/
  | qscale (g : BitVec 3) (d : Dest) (a : Src) (slot : Fin 8) (mode : BitVec 4)
  /-- CVTSR (R114) -/
  | cvtsr (g : BitVec 3) (d : Dest) (a : Src) (b : Src)
  /-- SHFL (R116) -/
  | shfl (g : BitVec 3) (d : Dest) (a : Fin 120) (b : Src)
  /-- LSWAP (R18) -/
  | lswap (g : BitVec 3) (d : Dest) (a : Fin 120) (b : Src)
  /-- HSWAP (R118) -/
  | hswap (g : BitVec 3) (d : Dest) (a : Fin 120) (b : Src)
  /-- BALLOT (R119) -/
  | ballot (g : BitVec 3) (d : Dest) (a : Fin 8)
  /-- LDG8 (R252) -/
  | ldg8 (g : BitVec 3) (d : Dest) (a : Src) (bp : Fin 8) (hint : BitVec 2) (acq : Bool)
  /-- LDG16 (R252) -/
  | ldg16 (g : BitVec 3) (d : Dest) (a : Src) (bp : Fin 8) (hint : BitVec 2) (acq : Bool)
  /-- LDG32 (R252) -/
  | ldg32 (g : BitVec 3) (d : Dest) (a : Src) (bp : Fin 8) (hint : BitVec 2) (acq : Bool)
  /-- LDG64 (R252) -/
  | ldg64 (g : BitVec 3) (d : Fin 119) (a : Src) (bp : Fin 8) (hint : BitVec 2) (acq : Bool)
  /-- LDG128 (R252) -/
  | ldg128 (g : BitVec 3) (d : Fin 117) (a : Src) (bp : Fin 8) (hint : BitVec 2) (acq : Bool)
  /-- STG8 (R253) -/
  | stg8 (g : BitVec 3) (d : Data) (a : Src) (bp : Fin 8) (hint : BitVec 2) (rel : Bool)
  /-- STG16 (R253) -/
  | stg16 (g : BitVec 3) (d : Data) (a : Src) (bp : Fin 8) (hint : BitVec 2) (rel : Bool)
  /-- STG32 (R253) -/
  | stg32 (g : BitVec 3) (d : Data) (a : Src) (bp : Fin 8) (hint : BitVec 2) (rel : Bool)
  /-- STG64 (R253) -/
  | stg64 (g : BitVec 3) (d : Fin 119) (a : Src) (bp : Fin 8) (hint : BitVec 2) (rel : Bool)
  /-- STG128 (R253) -/
  | stg128 (g : BitVec 3) (d : Fin 117) (a : Src) (bp : Fin 8) (hint : BitVec 2) (rel : Bool)
  /-- LDL32 (R255) -/
  | ldl32 (g : BitVec 3) (d : Dest) (a : Src) (imm : BitVec 7)
  /-- LDL64 (R255) -/
  | ldl64 (g : BitVec 3) (d : Fin 119) (a : Src) (imm : BitVec 7)
  /-- LDL128 (R255) -/
  | ldl128 (g : BitVec 3) (d : Fin 117) (a : Src) (imm : BitVec 7)
  /-- STL32 (R255) -/
  | stl32 (g : BitVec 3) (d : Data) (a : Src) (imm : BitVec 7)
  /-- STL64 (R255) -/
  | stl64 (g : BitVec 3) (d : Fin 119) (a : Src) (imm : BitVec 7)
  /-- STL128 (R255) -/
  | stl128 (g : BitVec 3) (d : Fin 117) (a : Src) (imm : BitVec 7)
  /-- AADD (R258) -/
  | aadd (g : BitVec 3) (d : Fin 120) (a : Src) (bp : Fin 8) (scope : BitVec 2) (order : BitVec 2)
  /-- AADD64 (R258) -/
  | aadd64 (g : BitVec 3) (d : Fin 119) (a : Src) (bp : Fin 8) (scope : BitVec 2) (order : BitVec 2)
  /-- AMIN (R258) -/
  | amin (g : BitVec 3) (d : Fin 120) (a : Src) (bp : Fin 8) (scope : BitVec 2) (order : BitVec 2)
  /-- AMAX (R258) -/
  | amax (g : BitVec 3) (d : Fin 120) (a : Src) (bp : Fin 8) (scope : BitVec 2) (order : BitVec 2)
  /-- AAND (R258) -/
  | aand (g : BitVec 3) (d : Fin 120) (a : Src) (bp : Fin 8) (scope : BitVec 2) (order : BitVec 2)
  /-- AOR (R258) -/
  | aor (g : BitVec 3) (d : Fin 120) (a : Src) (bp : Fin 8) (scope : BitVec 2) (order : BitVec 2)
  /-- AXCHG (R258) -/
  | axchg (g : BitVec 3) (d : Fin 120) (a : Src) (bp : Fin 8) (scope : BitVec 2) (order : BitVec 2)
  /-- ACAS (R258) -/
  | acas (g : BitVec 3) (d : Fin 119) (a : Src) (bp : Fin 8) (scope : BitVec 2) (order : BitVec 2)
  /-- RADD (R259) -/
  | radd (g : BitVec 3) (d : Data) (a : Src) (bp : Fin 8) (scope : BitVec 2) (rel : Bool)
  /-- RADDF (R259) -/
  | raddf (g : BitVec 3) (d : Data) (a : Src) (bp : Fin 8) (scope : BitVec 2) (rel : Bool)
  /-- RMAX (R259) -/
  | rmax (g : BitVec 3) (d : Data) (a : Src) (bp : Fin 8) (scope : BitVec 2) (rel : Bool)
  /-- DRAIN (R260) -/
  | drain (g : BitVec 3) (d : Fin 113) (acc : Bool) (cb : Fin 24)
  /-- ACCW (R260) -/
  | accw (g : BitVec 3) (d : Fin 113) (acc : Bool) (cb : Fin 24)
  /-- BRA (R261) -/
  | bra (g : BitVec 3) (off : BitVec 21)
  /-- CALL (R261) -/
  | call (g : BitVec 3) (off : BitVec 21)
  /-- RET (R261) -/
  | ret (g : BitVec 3)
  /-- TRAPL (R262) -/
  | trapl (g : BitVec 3) (a : Src)
  /-- ROLLB (R263) -/
  | rollb (g : BitVec 3) (a : Src)
  /-- SNOP (R145) -/
  | snop (q : BitVec 3)
  /-- SMOV (R146) -/
  | smov (q : BitVec 3) (d : Fin 64) (a : Fin 64)
  /-- SLIT (R149) -/
  | slit (q : BitVec 3) (d : Fin 64) (lit : Word)
  /-- SADD (R146) -/
  | sadd (q : BitVec 3) (d : Fin 64) (a : Fin 64) (b : Fin 64)
  /-- SSUB (R146) -/
  | ssub (q : BitVec 3) (d : Fin 64) (a : Fin 64) (b : Fin 64)
  /-- SMUL (R146) -/
  | smul (q : BitVec 3) (d : Fin 64) (a : Fin 64) (b : Fin 64)
  /-- SMIN (R146) -/
  | smin (q : BitVec 3) (d : Fin 64) (a : Fin 64) (b : Fin 64)
  /-- SMAX (R146) -/
  | smax (q : BitVec 3) (d : Fin 64) (a : Fin 64) (b : Fin 64)
  /-- SAND (R146) -/
  | sand (q : BitVec 3) (d : Fin 64) (a : Fin 64) (b : Fin 64)
  /-- SOR (R146) -/
  | sor (q : BitVec 3) (d : Fin 64) (a : Fin 64) (b : Fin 64)
  /-- SXOR (R146) -/
  | sxor (q : BitVec 3) (d : Fin 64) (a : Fin 64) (b : Fin 64)
  /-- SSHL (R146) -/
  | sshl (q : BitVec 3) (d : Fin 64) (a : Fin 64) (b : Fin 64)
  /-- SSHR (R146) -/
  | sshr (q : BitVec 3) (d : Fin 64) (a : Fin 64) (b : Fin 64)
  /-- SSAR (R146) -/
  | ssar (q : BitVec 3) (d : Fin 64) (a : Fin 64) (b : Fin 64)
  /-- SADDI (R147) -/
  | saddi (q : BitVec 3) (d : Fin 64) (a : Fin 64) (imm : BitVec 9)
  /-- SADD64 (R148) -/
  | sadd64 (q : BitVec 3) (d : Fin 32) (a : Fin 32) (b : Fin 32)
  /-- SBFE (R146) -/
  | sbfe (q : BitVec 3) (d : Fin 64) (a : Fin 64) (b : Fin 64)
  /-- SCLZ (R146) -/
  | sclz (q : BitVec 3) (d : Fin 64) (a : Fin 64)
  /-- SPOPC (R146) -/
  | spopc (q : BitVec 3) (d : Fin 64) (a : Fin 64)
  /-- SCMPEQ (R151) -/
  | scmpeq (q : BitVec 3) (d : Fin 8) (a : Fin 64) (b : Fin 64)
  /-- SCMPNE (R151) -/
  | scmpne (q : BitVec 3) (d : Fin 8) (a : Fin 64) (b : Fin 64)
  /-- SCMPLT (R151) -/
  | scmplt (q : BitVec 3) (d : Fin 8) (a : Fin 64) (b : Fin 64)
  /-- SCMPLE (R151) -/
  | scmple (q : BitVec 3) (d : Fin 8) (a : Fin 64) (b : Fin 64)
  /-- SCMPLTU (R151) -/
  | scmpltu (q : BitVec 3) (d : Fin 8) (a : Fin 64) (b : Fin 64)
  /-- QOP (R152) -/
  | qop (q : BitVec 3) (f : QFun) (d : Fin 8) (a : Fin 8) (b : Fin 8)
  /-- SSEL (R153) -/
  | ssel (q : BitVec 3) (d : Fin 64) (a : Fin 64) (b : Fin 64) (x : Fin 8)
  /-- SFIRST (R154) -/
  | sfirst (q : BitVec 3) (d : Fin 64)
  /-- VMASK (R154) -/
  | vmask (q : BitVec 3) (d : Fin 64)
  /-- SRD (R155) -/
  | srd (q : BitVec 3) (d : Fin 64) (ix : Fin 40)
  /-- SWR (R155) -/
  | swr (q : BitVec 3) (a : Fin 64) (ix : Fin 40)
  /-- JMP (R159) -/
  | jmp (q : BitVec 3) (off : BitVec 21)
  /-- LOOP (R13) -/
  | loop (q : BitVec 3) (d : Fin 64) (off : BitVec 15)
  /-- SCALL (R160) -/
  | scall (q : BitVec 3) (off : BitVec 21)
  /-- SRET (R160) -/
  | sret (q : BitVec 3)
  /-- JOVL (R163) -/
  | jovl (q : BitVec 3) (bp : Fin 8) (b : Fin 64)
  /-- OVLOAD (R162) -/
  | ovload (q : BitVec 3) (bp : Fin 8) (slot : Bool)
  /-- YIELD (R164) -/
  | yield (q : BitVec 3)
  /-- EXIT (R165) -/
  | exit (q : BitVec 3)
  /-- TRAP (R166) -/
  | trap (q : BitVec 3) (a : Fin 64)
  /-- TRET (R168) -/
  | tret (q : BitVec 3)
  /-- TMASK (R167) -/
  | tmask (q : BitVec 3) (m : Bool)
  /-- UINT (R169) -/
  | uint (q : BitVec 3) (a : Fin 64) (b : Fin 64)
  /-- UIRET (R171) -/
  | uiret (q : BitVec 3)
  /-- SYSC (R172) -/
  | sysc (q : BitVec 3) (d : Fin 64) (a : Fin 64) (b : Fin 64)
  /-- SBRK (R166) -/
  | sbrk (q : BitVec 3)
  /-- LAUNCH (R173) -/
  | launch (q : BitVec 3) (bp : Fin 8)
  /-- REGQ (R174) -/
  | regq (q : BitVec 3) (a : Fin 64)
  /-- REGPOOL (R174) -/
  | regpool (q : BitVec 3) (d : Fin 64)
  /-- SLD (R265) -/
  | sld (q : BitVec 3) (d : Fin 64) (scope : BitVec 2) (bp : Fin 8) (b : Option (Fin 64)) (ord : Bool)
  /-- SLD64 (R265) -/
  | sld64 (q : BitVec 3) (d : Fin 32) (scope : BitVec 2) (bp : Fin 8) (b : Option (Fin 64)) (ord : Bool)
  /-- SST (R265) -/
  | sst (q : BitVec 3) (d : Fin 64) (scope : BitVec 2) (bp : Fin 8) (b : Option (Fin 64)) (ord : Bool)
  /-- SST64 (R265) -/
  | sst64 (q : BitVec 3) (d : Fin 32) (scope : BitVec 2) (bp : Fin 8) (b : Option (Fin 64)) (ord : Bool)
  /-- SAADD (R266) -/
  | saadd (q : BitVec 3) (d : Fin 64) (scope : BitVec 2) (bp : Fin 8) (b : Fin 64) (order : BitVec 2)
  /-- SACAS (R266) -/
  | sacas (q : BitVec 3) (d : Fin 64) (scope : BitVec 2) (bp : Fin 8) (b : Fin 64) (order : BitVec 2)
  /-- PGREQ (R267) -/
  | pgreq (q : BitVec 3) (c : Fin 8) (r : Fin 8) (b : Fin 64)
  /-- PGADV (R268) -/
  | pgadv (q : BitVec 3) (k : Fin 4) (bp : Fin 8) (b : Fin 64)
  /-- PALLOC (R269) -/
  | palloc (q : BitVec 3) (d : Fin 8) (b : Fin 64)
  /-- PFREE (R269) -/
  | pfree (q : BitVec 3) (bp : Fin 8)
  /-- CNEW (R271) -/
  | cnew (q : BitVec 3) (d : Fin 8) (scope : BitVec 2)
  /-- CFREE (R271) -/
  | cfree (q : BitVec 3) (bp : Fin 8)
  /-- CADD (R272) -/
  | cadd (q : BitVec 3) (scope : BitVec 2) (bp : Fin 8) (b : CSrc)
  /-- CADDR (R272) -/
  | caddr (q : BitVec 3) (scope : BitVec 2) (bp : Fin 8) (b : CSrc)
  /-- CREAD (R273) -/
  | cread (q : BitVec 3) (d : Fin 32) (scope : BitVec 2) (bp : Fin 8)
  /-- WAITGE (R274) -/
  | waitge (q : BitVec 3) (scope : BitVec 2) (bp : Fin 8) (b : CSrc)
  /-- WAITTO (R274) -/
  | waitto (q : BitVec 3) (t : Fin 64) (scope : BitVec 2) (bp : Fin 8) (b : CSrc)
  /-- TBAR (R275) -/
  | tbar (q : BitVec 3)
  /-- FENCE (R276) -/
  | fence (q : BitVec 3) (scope : BitVec 2)
  /-- FENCEX (R238) -/
  | fencex (q : BitVec 3) (scope : BitVec 2) (c1 : Fin 7) (c2 : Fin 7)
  /-- TRY (R204) -/
  | tryOp (q : BitVec 3) (off : BitVec 21) (spm : Word)
  /-- COMMIT (R243) -/
  | commit (q : BitVec 3)
  /-- TXOPEN (R205) -/
  | txopen (q : BitVec 3) (off : BitVec 21)
  /-- TXCLOSE (R206) -/
  | txclose (q : BitVec 3)
  /-- TXCANCEL (R277) -/
  | txcancel (q : BitVec 3) (a : Fin 64)
  /-- TILEDEF (R179) -/
  | tiledef (q : BitVec 3) (t : Fin 64) (a : Fin 64) (b : Fin 64)
  /-- TILEREL (R180) -/
  | tilerel (q : BitVec 3) (t : Fin 64)
  /-- TSTATE (R181) -/
  | tstate (q : BitVec 3) (d : Fin 64) (t : Fin 64)
  /-- METADEF (R179) -/
  | metadef (q : BitVec 3) (t : Fin 64) (a : Fin 64) (b : Fin 64)
  /-- CPYIN (R184) -/
  | cpyin (q : BitVec 3) (t : Fin 64) (bp : Fin 8) (b : Fin 64)
  /-- CPYOUT (R184) -/
  | cpyout (q : BitVec 3) (t : Fin 64) (bp : Fin 8) (b : Fin 64)
  /-- CPYGG (R185) -/
  | cpygg (q : BitVec 3) (d : Fin 8) (bp : Fin 8) (b : Fin 64)
  /-- GATHER (R187) -/
  | gather (q : BitVec 3) (t : Fin 64) (bp : Fin 8) (b : Fin 64)
  /-- SCATTER (R187) -/
  | scatter (q : BitVec 3) (t : Fin 64) (bp : Fin 8) (b : Fin 64)
  /-- COLL (R188) -/
  | coll (q : BitVec 3) (bp : Fin 8) (b : Fin 64)
  /-- SEALB (R191) -/
  | sealb (q : BitVec 3) (bp : Fin 8) (b : Fin 64)
  /-- SEALU (R191) -/
  | sealu (q : BitVec 3) (bp : Fin 8) (b : Fin 64)
  /-- SEALF (R191) -/
  | sealf (q : BitVec 3) (bp : Fin 8)
  /-- CKPT (R193) -/
  | ckpt (q : BitVec 3) (bp : Fin 8)
  /-- MSEL (R200) -/
  | msel (q : BitVec 3) (core : Fin 4) (a : Fin 64)
  /-- MMA (R197) -/
  | mma (q : BitVec 3) (m : MmaOps)
  /-- MMAS (R197) -/
  | mmas (q : BitVec 3) (m : MmaOps)
  /-- MMAG (R198) -/
  | mmag (q : BitVec 3) (m : MmaOps)
  /-- MSCALE (R199) -/
  | mscale (q : BitVec 3) (acc : Bool) (oct : Fin 15) (core : Fin 4)
  /-- MZERO (R199) -/
  | mzero (q : BitVec 3) (acc : Bool) (core : Fin 4)
  /-- MREL (R200) -/
  | mrel (q : BitVec 3) (core : Fin 4)
  /-- MWAIT (R201) -/
  | mwait (q : BitVec 3) (core : Option (Fin 4))
  /-- HINT (R175) -/
  | hint (q : BitVec 3) (k : BitVec 3) (bp : Fin 8) (b : Fin 64)
  /-- SFADD (R150) -/
  | sfadd (q : BitVec 3) (d : Fin 64) (a : Fin 64) (b : Fin 64)
  /-- SFMUL (R150) -/
  | sfmul (q : BitVec 3) (d : Fin 64) (a : Fin 64) (b : Fin 64)
  /-- SFCMPLT (R150) -/
  | sfcmplt (q : BitVec 3) (d : Fin 8) (a : Fin 64) (b : Fin 64)
  /-- SCVTFI (R150) -/
  | scvtfi (q : BitVec 3) (d : Fin 64) (a : Fin 64)
  /-- SCVTIF (R150) -/
  | scvtif (q : BitVec 3) (d : Fin 64) (a : Fin 64)
  /-- SDIVU (R146) -/
  | sdivu (q : BitVec 3) (d : Fin 64) (a : Fin 64) (b : Fin 64)
  /-- SREMU (R146) -/
  | sremu (q : BitVec 3) (d : Fin 64) (a : Fin 64) (b : Fin 64)
  /-- QANY (R154) -/
  | qany (q : BitVec 3) (d : Fin 8) (a : Fin 8)
  /-- QALL (R154) -/
  | qall (q : BitVec 3) (d : Fin 8) (a : Fin 8)
  /-- PSET (R154) -/
  | pset (q : BitVec 3) (p : Fin 7) (a : Fin 8)
  /-- SLEEP (R164) -/
  | sleep (q : BitVec 3) (a : Fin 64)
  /-- SLIT64 (R149) -/
  | slit64 (q : BitVec 3) (d : Fin 32) (lo : Word) (hi : Word)
  /-- RESERVED_OPCODE_WORD (R59) -/
  | reservedOpcodeWord (gset : Bool) (op : BitVec 7) (g : BitVec 3) (rest : BitVec 21)
  /-- FETCH_OUTSIDE_OVERLAY (R41) -/
  | fetchOutsideOverlay
  /-- LOAD_DATA_RETURN (R30) -/
  | loadDataReturn (u : Nat) (seq : Nat) (lanes : Word)
  /-- STORE_PERFORMED (R217) -/
  | storePerformed (u : Nat) (seq : Nat) (lanes : Word)
  /-- TRAP_ENTRY (R286) -/
  | trapEntry (u : Nat) (lane : Nat)
  /-- WAIT_SATISFIED (R274) -/
  | waitSatisfied (u : Nat) (lane : Nat)
  /-- WAITTO_TIMEOUT (R274) -/
  | waittoTimeout (u : Nat) (lane : Nat)
  /-- SLEEP_WAKE (R164) -/
  | sleepWake (u : Nat) (lane : Nat)
  /-- REGQ_GRANT (R35) -/
  | regqGrant (team : Nat)
  /-- REGQ_REFUSE (R35) -/
  | regqRefuse (team : Nat)
  /-- MATRIX_EXECUTE_START (R195) -/
  | matrixExecuteStart (slice : Nat) (core : Nat)
  /-- MATRIX_COMPLETE (R122) -/
  | matrixComplete (slice : Nat) (core : Nat)
  /-- ENGINE_COMMAND_START (R141) -/
  | engineCommandStart (cmd : Nat)
  /-- ENGINE_COMMAND_COMPLETE (R140) -/
  | engineCommandComplete (cmd : Nat)
  /-- ENGINE_COMMAND_FAULT (R142) -/
  | engineCommandFault (cmd : Nat)
  /-- OVERLAY_SLOT_COPY (R162) -/
  | overlaySlotCopy (u : Nat)
  /-- OVERLAY_COPY_DONE (R162) -/
  | overlayCopyDone (u : Nat)
  /-- UINT_DELIVERY (R170) -/
  | uintDelivery (u : Nat)
  /-- WATCHDOG (R27) -/
  | watchdog (slice : Nat) (core : Nat) (slot : Nat)
  /-- WARP_AGING (R321) -/
  | warpAging (u : Nat)
  /-- SYSC_REPLY (R172) -/
  | syscReply (u : Nat) (reply : Word) (hart : Nat)
  /-- COLL_ALL_REDUCE (R189) -/
  | collAllReduce (cmd : Nat) (inputs : List Msg)
  /-- COLL_REDUCE_SCATTER (R189) -/
  | collReduceScatter (cmd : Nat) (inputs : List Msg)
  /-- COLL_ALL_GATHER (R189) -/
  | collAllGather (cmd : Nat) (inputs : List Msg)
  /-- COLL_BROADCAST (R189) -/
  | collBroadcast (cmd : Nat) (inputs : List Msg)
  /-- COLL_PUT (R189) -/
  | collPut (cmd : Nat) (acked : Bool)
  /-- COLL_GET (R189) -/
  | collGet (cmd : Nat) (inputs : List Msg)
  /-- COLL_ALL_TO_ALL (R189) -/
  | collAllToAll (cmd : Nat) (inputs : List Msg)
  /-- FABRIC_REMOTE_ACCESS (R189) -/
  | fabricRemoteAccess (slice : Nat) (acc : RemoteAccess)
  /-- CKPT_SAVE (R194) -/
  | ckptSave (cmd : Nat) (reach : Bool) (readback : Nat)
  /-- CKPT_RESTORE (R333) -/
  | ckptRestore (cmd : Nat) (reach : Bool)
  /-- CKPT_PAGE_COPY (R219) -/
  | ckptPageCopy (cmd : Nat) (va : Nat)
  /-- SEAL_CONTEXT_VOID (R190) -/
  | sealContextVoid (u : Nat) (reason : Nat)
  /-- GRID_RETIRE (R40) -/
  | gridRetire (grid : Nat)
  /-- PGREQ_RESIDENT_ADD (R267) -/
  | pgreqResidentAdd (part : Nat) (req : Nat)
  /-- RANGE_EVICT (R317) -/
  | rangeEvict (part : Nat) (ctx : Nat) (va : Nat) (len : Nat)
  /-- RECORD_TAKE (R313) -/
  | recordTake (part : Nat) (qid : Nat)
  /-- GRID_ELIGIBLE (R316) -/
  | gridEligible (grid : Nat)
  /-- GRID_PLACE (R320) -/
  | gridPlace (grid : Nat)
  /-- BIND_PLACE (R318) -/
  | bindPlace (slice : Nat) (ix : Nat)
  /-- BIND_WITHDRAW (R294) -/
  | bindWithdraw (slice : Nat) (ix : Nat)
  /-- BIND_RETURN (R296) -/
  | bindReturn (slice : Nat) (ix : Nat)
  /-- TEAM_SAVE (R295) -/
  | teamSave (team : Nat)
  /-- GRACE_WINDOW_END (R297) -/
  | graceWindowEnd (u : Nat)
  /-- TIME_SLICE_EXPIRY (R322) -/
  | timeSliceExpiry (grid : Nat)
  /-- EVENT_RECORD_WRITE (R324) -/
  | eventRecordWrite (part : Nat)
  /-- SC_REGISTER_QUEUE (R324) -/
  | scRegisterQueue (slice : Nat) (value : BitVec 64)
  /-- SC_REMOVE_QUEUE (R324) -/
  | scRemoveQueue (slice : Nat) (value : BitVec 64)
  /-- SC_SET_EVENT_RING (R324) -/
  | scSetEventRing (slice : Nat) (value : BitVec 64)
  /-- TLBINV_PAGE (R216) -/
  | tlbinvPage (slice : Nat) (value : BitVec 64)
  /-- TLBINV_CONTEXT (R216) -/
  | tlbinvContext (slice : Nat) (value : BitVec 64)
  /-- TLBINV_RELOAD (R216) -/
  | tlbinvReload (slice : Nat) (value : BitVec 64)
  /-- TLBINV_ALL (R216) -/
  | tlbinvAll (slice : Nat) (value : BitVec 64)
  /-- TLBINV_DONE (R216) -/
  | tlbinvDone (part : Nat)
  /-- SLICE_RESET (R308) -/
  | sliceReset (slice : Nat)
  /-- FUNCTION_READY (R307) -/
  | functionReady (slice : Nat) (bit : Nat)
  /-- FIREWALL_RELEASE_ALL (R306) -/
  | firewallReleaseAll (slice : Nat)
  /-- ACTCTL_WRITE (R336) -/
  | actctlWrite (slice : Nat) (value : Word)
  /-- PMCTL_THAW (R300) -/
  | pmctlThaw (slice : Nat) (value : Word)
  /-- ADDRESS_RANGE_WRITE (R343) -/
  | addressRangeWrite (slice : Nat) (offset : Nat) (value : BitVec 64)
  /-- REGISTER_WRITE (R7) -/
  | registerWrite (slice : Nat) (offset : Nat) (value : BitVec 64)
  /-- PROGRESS_WINDOW_END (R299) -/
  | progressWindowEnd (part : Nat)
  /-- DEBUG_HALT (R293) -/
  | debugHalt (u : Nat)
  /-- DEBUG_RESUME (R293) -/
  | debugResume (u : Nat) (lane : Nat) (skip : Bool)
  /-- PARTITION_FUSE (R303) -/
  | partitionFuse (x0 : Nat) (x1 : Nat) (y0 : Nat) (y1 : Nat) (world : Bool) (ranges : List RangeWords)
  /-- KERNEL_BOOT (R309) -/
  | kernelBoot (part : Nat) (image : List Byte) (sigOk : Bool)
  /-- PARTITION_RESIZE (R310) -/
  | partitionResize (part : Nat) (add : Bool) (edge : Edge)
  /-- RESIZE_SLICE_STEP (R310) -/
  | resizeSliceStep (part : Nat)
  /-- PARTITION_DISSOLVE (R311) -/
  | partitionDissolve (part : Nat)
  /-- SCRUB_CHUNK (R311) -/
  | scrubChunk (slice : Nat)
  /-- POWER_ON (R311) -/
  | powerOn
  /-- POWER_FAIL (R311) -/
  | powerFail
  /-- GET_VERSION (R329) -/
  | getVersion (part : Nat) (req : List Byte)
  /-- GET_CAPABILITIES (R329) -/
  | getCapabilities (part : Nat) (req : List Byte)
  /-- NEGOTIATE_ALGORITHMS (R329) -/
  | negotiateAlgorithms (part : Nat) (req : List Byte)
  /-- GET_DIGESTS (R329) -/
  | getDigests (part : Nat) (req : List Byte)
  /-- GET_CERTIFICATE (R329) -/
  | getCertificate (part : Nat) (req : List Byte)
  /-- CHALLENGE (R329) -/
  | challenge (part : Nat) (req : List Byte)
  /-- GET_MEASUREMENTS (R329) -/
  | getMeasurements (part : Nat) (req : List Byte)
  /-- MEASUREMENT_EXTEND (R330) -/
  | measurementExtend (part : Nat) (ix : Nat) (value : List Byte)
  /-- ROT_FAILOVER (R329) -/
  | rotFailover
  /-- PACKET_SEND (R326) -/
  | packetSend (slice : Nat) (assoc : Nat) (payload : List Byte)
  /-- PACKET_RECEIVE (R326) -/
  | packetReceive (slice : Nat) (assoc : Nat) (counter : BitVec 64) (cipher : List Byte)
  /-- PACKET_RETRY (R326) -/
  | packetRetry (slice : Nat) (assoc : Nat) (counter : BitVec 64)
  /-- REKEY (R327) -/
  | rekey (slice : Nat) (assoc : Nat)
  /-- REKEY_REOPEN (R327) -/
  | rekeyReopen (slice : Nat) (assoc : Nat) (key : Nat) (salt : Word)
  /-- FLASH_ACCESS (R328) -/
  | flashAccess (world : Bool) (addr : Nat) (write : Option (List Byte)) (len : Nat)
  /-- STACK_READ (R342) -/
  | stackRead (pkt : Packet)
  /-- STACK_WRITE (R342) -/
  | stackWrite (pkt : Packet)
  /-- STACK_ATOMIC (R342) -/
  | stackAtomic (pkt : Packet)
  /-- STACK_ZERO_LINE (R342) -/
  | stackZeroLine (pkt : Packet)
  /-- REFRESH_MANAGEMENT (R338) -/
  | refreshManagement (stack : Nat) (pch : Nat) (bank : Nat)
  /-- BANK_BLOCK_END (R339) -/
  | bankBlockEnd (stack : Nat) (pch : Nat) (bank : Nat)
  /-- REFRESH_WINDOW_END (R336) -/
  | refreshWindowEnd (stack : Nat)
  /-- PATROL_READ (R350) -/
  | patrolRead (stack : Nat) (line : Nat)
  /-- HOST_ACCESS (R227) -/
  | hostAccess (part : Nat) (hart : Nat) (acc : HostAccess)
  /-- CHILD_QUEUE_TAKE (R173) -/
  | childQueueTake (slice : Nat)
  /-- PEER_UNREACHABLE (R327) -/
  | peerUnreachable (slice : Nat) (assoc : Nat)
  /-- KEY_HANDLE_ISSUE (R325) -/
  | keyHandleIssue (part : Nat) (cls : BitVec 2) (destroy : Option Nat)
  /-- ROT_RESET (R311) -/
  | rotReset
  /-- GRID_END_BY_KERNEL (R301) -/
  | gridEndByKernel (grid : Nat)
deriving DecidableEq, Repr

end Sys2Proof
end

