-- ==== Sys2Proof/Config.lean ====
section
/-!
DEFINITION. What is fixed for the machine: the trap causes (R287), abort codes (R203), FSR flags (R64), and the free
values, which the spec leaves open and which are therefore opaque constants applied to plain data.
-/

namespace Sys2Proof.Config

/-! Trap causes (R287). -/

def causeReserved : Nat := 0x01
def causeWrongSet : Nat := 0x02
def causeLatchLost : Nat := 0x03
def causeMisaligned : Nat := 0x04
def causeTranslation : Nat := 0x05
def causeProtection : Nat := 0x06
def causeMemoryError : Nat := 0x07
def causeMemoryModel : Nat := 0x08
def causeTileBounds : Nat := 0x09
def causeTileState : Nat := 0x0A
def causeCallStack : Nat := 0x0B
def causeQuota : Nat := 0x0C
def causeSoftware : Nat := 0x0D
def causeBreakpoint : Nat := 0x0E
def causeWatchdog : Nat := 0x0F
def causeOverlayTag : Nat := 0x10
def causeLiteral : Nat := 0x11
def causeCounter : Nat := 0x12
def causeEngine : Nat := 0x13
def causeDepth : Nat := 0x14
def causeDouble : Nat := 0x15

/-! Abort codes (R203). -/

def abExplicit : Nat := 0x01
def abConflict : Nat := 0x02
def abReadLog : Nat := 0x03
def abWriteLog : Nat := 0x04
def abFault : Nat := 0x05
def abDisallowed : Nat := 0x06
def abPreempted : Nat := 0x07
def abHeadroom : Nat := 0x08

/-! FSR flags (R64). -/

def flNV : Word := 0x01#32
def flDZ : Word := 0x02#32
def flOF : Word := 0x04#32
def flUF : Word := 0x08#32
def flNX : Word := 0x10#32
def flSAT : Word := 0x20#32
def flVOID : Word := 0x40#32

/-! Free values. Each is applied to `State.tick`, so that each step sees a fresh one, or to the operands it depends on. -/

/-- How many cycles pass at a step, less one: the spec fixes no timing of steps against one another. Log 3. -/
opaque clkGap : Nat → Nat

/-- Which of the translations it may use an access takes while an invalidation is outstanding (R214): 0 for the entry as
it stands, n for the n-th older one. Log 6. -/
opaque oldTranslation : Nat → Nat

/-- Whether a cached access reaches the stack controller and activates its row (R220, R335). Log 7. -/
opaque lineFill : Nat → Bool

/-- Whether a row that a request opened is still open when the next request for it arrives (R335, R340): the tick, and the row's count.
Log 7. -/
opaque rowStays : Nat → Nat → Bool

/-- What the frame holds for a latch that is invalid at the trap (R289). Log 16. -/
opaque deadLatch : Nat → Word

/-- Which of the places that would do PALLOC or CNEW hands out (R226, R271). Log 19. -/
opaque allocPick : Nat → Nat

/-- What v(d+4) to v(d+7) count as in a re-issued ACCW, whose queue entry holds four data words (R290). Log 18. -/
opaque entryData : Nat → Word

/-- Whether a faulted engine command had already written a group of the bytes that come before the faulting one: the tick, and
the group (R142). Log 8. -/
opaque partialWrites : Nat → Nat → Bool

/-- FRCP between its exact cases: any value within the stated bound (R79). Log 9. -/
opaque frcp : Word → Word
/-- FRSQ between its exact cases: any value within the stated bound (R79). Log 9. -/
opaque frsq : Word → Word

/-- FEXP2 between its exact cases: any value within the stated bound (R79). Log 10. -/
opaque fexp2 : Word → Word
/-- FLOG2 between its exact cases: any value within the stated bound (R79). Log 10. -/
opaque flog2 : Word → Word
/-- FSINPI between its exact cases: any value within the stated bound (R79). Log 10. -/
opaque fsinpi : Word → Word
/-- FCOSPI between its exact cases: any value within the stated bound (R79). Log 10. -/
opaque fcospi : Word → Word
/-- FTANH between its exact cases: any value within the stated bound (R79). Log 10. -/
opaque ftanh : Word → Word

/-- A byte of a poisoned line that nothing has written since, as a reduction finds it (R217). Log 107. -/
opaque poisonedByte : Nat → Byte

/-- SHA-384 of a list of bytes (R190, R330, R332), an external standard. Log 11. -/
opaque sha384 : List Byte → BitVec 384

/-- The signature over bytes 0 to 255 of a seal record, by key handle and algorithm (R192). Log 11. -/
opaque sealSig : Word → Nat → List Byte → List Byte

/-- AES-256-GCM of a payload under a key slot, salt and packet counter, with its tag (R326). Log 11. -/
opaque gcmSeal : Nat → Word → DWord → List Byte → List Byte

/-- The payload of a packet that authenticates, `none` where authentication fails (R326). Log 11. -/
opaque gcmOpen : Nat → Word → DWord → List Byte → Option (List Byte)

/-- The flash key of a world: the two AES-256 keys of XTS (R328). Log 11. -/
opaque flashKey : Bool → BitVec 512

/-- The receive direction's key slot, given the transmit direction's key and salt (R326): the root of trust writes both. Log 118. -/
opaque rxSlot : Nat → Word → Nat × Word

/-- Whether a packet that is sent again is acknowledged by now (R326, R327). Log 118. -/
opaque linkAck : Nat → Bool

/-- The payload of the packet that carries a collective's or a transfer's message: the endpoint, the address and the counter at the
peer, and the bytes (R189, R326). Log 118. -/
opaque wire : Nat → Nat → Nat → List Byte → List Byte

/-- The payload of the packet that brings another member's message: the context and the communicator record it is for, and the message
(R189, R326). Log 118. -/
opaque wireMsg : Nat → Nat → Msg → List Byte

/-- The payload of the packet that brings a remote access (R189, R326). Log 118. -/
opaque wireAccess : RemoteAccess → List Byte

/-- The payload of the packet that answers a remote read with its bytes (R189, R326). Log 118. -/
opaque wireReply : RemoteAccess → List Byte → List Byte

/-- The Dolrix image in what the boot stub fetches under the transport key of a world (R309). Log 30. -/
opaque bootImage : Bool → List Byte → List Byte

/-- The bytes of the save area that a team's saved state takes: its warps, its quota, its window (R215, R295). Log 89. -/
opaque savedBytes : Nat → Nat → Nat → Nat

/-- Where the slot controller's firmware keeps its copy of a grid's launch record (R318). Log 119. -/
opaque recordAt : Nat → DWord

/-- A byte of a B tile whose window has been freed, as a matrix instruction reads it (R38, R133). Log 120. -/
opaque freedTile : Nat → Byte

/-- What a response of the root of trust to a partition's SPDM request holds beyond the fields the spec names (R329): partition,
request code, transcript. Log 12. -/
opaque spdmBody : Nat → Nat → List Byte → List Byte

/-- An ECDSA P-384 signature of the root of trust over a SHA-384 transcript hash (R329). Log 12. -/
opaque spdmSig : Nat → BitVec 384 → BitVec 768

/-- Whether a partition's port mapping grants an inbound access to a physical address (R304). Log 13. -/
opaque portGrants : Nat → Nat → Bool

/-- TCONF where the other half of the race is a slot controller, for which R236 gives no value, by partition. Log 32. -/
opaque slotConf : Nat → Word

/-- Whether the root of trust is busy when an SPDM request arrives (R329). Log 12. -/
opaque rotBusy : Nat → Bool

/-- The physical address, and whether it is to be written, that an inbound packet's payload names, if it names one (R304). Log
13. -/
opaque packetAddr : List Byte → Option (Nat × Bool)

/-- The firmware of the root of trust, as it is measured (R330). Log 30. -/
opaque rotFirmware : List Byte

/-- The boot stub, as it is measured (R309, R330). Log 30. -/
opaque bootStub : List Byte

/-- Whether a key of the root of trust is an ML-DSA-65 key rather than an ECDSA P-384 one, which is fixed by the key (R192). Log
31. -/
opaque keyIsMlDsa : Nat → Bool

end Sys2Proof.Config
end

