-- ==== Sys2Proof/Machine/Float.lean ====
section
/-!
DEFINITION. Number formats and rounding (R61 to R81): exact values of codes, the one rounding of every float operation,
the element conversions, QSCALE's choice, and the function instructions. Values are exact dyadic numbers; every operation
computes exactly and rounds once at its end.
-/

namespace Sys2Proof.Machine

/-- An exact value: a NaN (signalling or quiet), an infinity, or m × 2^e with a sign; zero is `m = 0` and keeps its sign. -/
inductive FVal where
  | nan (snan : Bool)
  | inf (neg : Bool)
  | fin (neg : Bool) (m : Nat) (e : Int)
deriving DecidableEq, Repr

/-- +0. -/
def FVal.zero : FVal := .fin false 0 0

/-- A float format (R61, R67): width, significand bits with the hidden one, exponent of the least normal value, and the
largest finite value maxM × 2^maxE. `ieee` formats have infinities; `nanCode` is the canonical NaN (R65), if there is one. -/
structure Fmt where
  w : Nat
  p : Nat
  emin : Int
  maxM : Nat
  maxE : Int
  ieee : Bool
  nanCode : Option Nat
deriving DecidableEq, Repr

def f32 : Fmt := { w := 32, p := 24, emin := -126, maxM := 0xFFFFFF, maxE := 104, ieee := true, nanCode := some 0x7FC00000 }
def bf16 : Fmt := { w := 16, p := 8, emin := -126, maxM := 0xFF, maxE := 120, ieee := true, nanCode := some 0x7FC0 }
def f16 : Fmt := { w := 16, p := 11, emin := -14, maxM := 0x7FF, maxE := 5, ieee := true, nanCode := some 0x7E00 }
def e4m3 : Fmt := { w := 8, p := 4, emin := -6, maxM := 14, maxE := 5, ieee := false, nanCode := some 0x7F }
def e5m2 : Fmt := { w := 8, p := 3, emin := -14, maxM := 7, maxE := 13, ieee := true, nanCode := some 0x7E }
def e3m2 : Fmt := { w := 6, p := 3, emin := -2, maxM := 7, maxE := 2, ieee := false, nanCode := none }
def e2m3 : Fmt := { w := 6, p := 4, emin := 0, maxM := 15, maxE := -1, ieee := false, nanCode := none }
def e2m1 : Fmt := { w := 4, p := 2, emin := 0, maxM := 3, maxE := 1, ieee := false, nanCode := none }

/-- The exponent of the least subnormal value. -/
def Fmt.qmin (f : Fmt) : Int := f.emin - (f.p - 1 : Nat)

/-- The code bits below the sign of an infinity: the exponent field all ones. -/
def Fmt.infCode (f : Fmt) : Nat := 2 ^ (f.w - 1) - 2 ^ (f.p - 1)

/-- The code of the largest finite magnitude. -/
def Fmt.maxCode (f : Fmt) : Nat := f.maxM + (f.maxE - f.qmin).toNat * 2 ^ (f.p - 1)

/-- The code with its sign bit. -/
def Fmt.sign (f : Fmt) (neg : Bool) (c : Nat) : Nat := if neg then c + 2 ^ (f.w - 1) else c

/-- The exact value of a code (R61, R67). Only F32, BF16 and F16 have signalling NaNs (R112). -/
def Fmt.decode (f : Fmt) (c : Nat) : FVal :=
  let neg := c / 2 ^ (f.w - 1) % 2 == 1
  let mag := c % 2 ^ (f.w - 1)
  let ex := mag / 2 ^ (f.p - 1)
  let fr := mag % 2 ^ (f.p - 1)
  if f.ieee && decide (f.infCode ≤ mag) then
    if fr = 0 then .inf neg else .nan (decide (16 ≤ f.w) && decide (fr < 2 ^ (f.p - 2)))
  else if f.nanCode == some mag then .nan false
  else if ex = 0 then .fin neg fr f.qmin
  else .fin neg (fr + 2 ^ (f.p - 1)) (f.qmin + (ex - 1 : Nat))

/-- Whether a value is a nonzero one below the least normal value of a format (R63). -/
def Fmt.subnormal (f : Fmt) : FVal → Bool
  | .fin _ m e => !(m == 0) && decide ((m.log2 : Int) + e < f.emin)
  | .nan _ | .inf _ => false

/-- The operand flush of FZ (R63, R81): a subnormal becomes a zero of its sign; no flag. -/
def Fmt.flush (f : Fmt) (fz : Bool) (x : FVal) : FVal :=
  match x with
  | .fin neg _ _ => if fz && f.subnormal x then .fin neg 0 0 else x
  | .nan _ | .inf _ => x

/-! ### Rounding -/

/-- A rounding mode as FCR.RM codes it (R62): 0 nearest even, 1 towards zero, 2 down, 3 up. -/
abbrev RM := BitVec 2

/-- Whether the magnitude is rounded up: `odd` the kept part, `cmp` compares the dropped part with one half, `inexact`
whether anything is dropped. -/
def roundUp (rm : RM) (neg odd : Bool) (cmp : Ordering) (inexact : Bool) : Bool :=
  if rm == 0#2 then (match cmp with | .gt => true | .eq => odd | .lt => false)
  else if rm == 1#2 then false
  else if rm == 2#2 then inexact && neg
  else inexact && !neg

/-- m × 2^e rounded to a multiple of 2^q: the multiple, and whether it is inexact. -/
def roundTo (rm : RM) (neg : Bool) (m : Nat) (e q : Int) : Nat × Bool :=
  if q ≤ e then (m * 2 ^ (e - q).toNat, false)
  else
    let s := (q - e).toNat
    let k := m / 2 ^ s
    let r := m % 2 ^ s
    let up := roundUp rm neg (k % 2 == 1) (compare (2 * r) (2 ^ s)) (!(r == 0))
    (if up then k + 1 else k, !(r == 0))

/-- m × 2^e with an exponent far outside the format's range brought near it: what rounds to overflow, or to zero or the
least subnormal, does so still. -/
def Fmt.clamp (f : Fmt) (m : Nat) (e : Int) : Nat × Int :=
  let top := (m.log2 : Int) + e
  if top < f.qmin - 2 then (1, f.qmin - 2)
  else if f.maxE + f.p + 2 < top then (1, f.maxE + f.p + 2)
  else (m, e)

/-- What a rounding gives: the code, and the flags raised. -/
structure FRes where
  code : Nat
  fl : Word
deriving DecidableEq, Repr

/-- The canonical NaN (R65); +0 with NV in a format that has none (R73). -/
def Fmt.nanRes (f : Fmt) (fl : Word) : FRes :=
  match f.nanCode with
  | some c => ⟨c, fl⟩
  | none => ⟨0, fl ||| Config.flNV⟩

/-- The result of an overflow (R73): OF and NX, and the value by the table. -/
def Fmt.overflow (f : Fmt) (rm : RM) (sat neg : Bool) : FRes :=
  let fl := Config.flOF ||| Config.flNX
  let toInf := rm == 0#2 || (rm == 2#2 && neg) || (rm == 3#2 && !neg)
  if sat || f.nanCode.isNone then ⟨f.sign neg f.maxCode, fl ||| Config.flSAT⟩
  else if toInf then (if f.ieee then ⟨f.sign neg f.infCode, fl⟩ else f.nanRes fl)
  else ⟨f.sign neg f.maxCode, fl⟩

/-- A nonzero finite value rounded to a format (R61, R73): one rounding with an unbounded exponent decides overflow and
tininess; a subnormal result is kept, or flushed where `fz` (R63). -/
def Fmt.roundFin (f : Fmt) (rm : RM) (sat fz neg : Bool) (m0 : Nat) (e0 : Int) : FRes :=
  let (m, e) := f.clamp m0 e0
  let qU := (m.log2 : Int) + e - (f.p - 1 : Nat)
  let (kU, ixU) := roundTo rm neg m e qU
  let tiny := decide ((kU.log2 : Int) + qU < f.emin)
  if f.maxE + f.p < qU + f.p || decide (f.maxM * 2 ^ (f.maxE - qU).toNat < kU) then f.overflow rm sat neg
  else
    let q := if qU < f.qmin then f.qmin else qU
    let (k, ix) := if qU < f.qmin then roundTo rm neg m e q else (kU, ixU)
    let sub := !(k == 0) && decide ((k.log2 : Int) + q < f.emin)
    if fz && sub then ⟨f.sign neg 0, Config.flUF ||| Config.flNX⟩
    else
      let c := k + (q - f.qmin).toNat * 2 ^ (f.p - 1)
      ⟨f.sign neg c, if ix then (if tiny then Config.flUF ||| Config.flNX else Config.flNX) else 0#32⟩

/-- A value rounded to a float format (R73): `rm`, saturation `sat`, result flush `fz`. -/
def Fmt.round (f : Fmt) (rm : RM) (sat fz : Bool) (x : FVal) : FRes :=
  match x with
  | .nan s => f.nanRes (if s then Config.flNV else 0#32)
  | .inf neg =>
    if sat || f.nanCode.isNone then ⟨f.sign neg f.maxCode, Config.flSAT⟩
    else if f.ieee then ⟨f.sign neg f.infCode, 0#32⟩
    else f.nanRes Config.flNV
  | .fin neg m e => if m = 0 then ⟨f.sign neg 0, 0#32⟩ else f.roundFin rm sat fz neg m e

/-! ### Exact arithmetic -/

/-- The signed integer m × 2^(e − q), for q at most e. -/
def scaled (neg : Bool) (m : Nat) (e q : Int) : Int :=
  let n : Int := ((m * 2 ^ (e - q).toNat : Nat) : Int)
  if neg then -n else n

/-- An exact result and whether it is invalid (NV). -/
abbrev FExact := FVal × Bool

/-- The exact sum. The sign of an exact zero follows R98: that of both operands if they agree, else + except under RDN. -/
def FVal.add (rm : RM) : FVal → FVal → FExact
  | .nan s, .nan t => (.nan false, s || t)
  | .nan s, _ => (.nan false, s)
  | _, .nan s => (.nan false, s)
  | .inf a, .inf b => if a == b then (.inf a, false) else (.nan false, true)
  | .inf a, _ => (.inf a, false)
  | _, .inf b => (.inf b, false)
  | .fin a m e, .fin b n g =>
    let q := min e g
    let t := scaled a m e q + scaled b n g q
    if t = 0 then (.fin (if a == b then a else rm == 2#2) 0 0, false)
    else (.fin (decide (t < 0)) t.natAbs q, false)

/-- The exact product (R98): 0 × ∞ is invalid. -/
def FVal.mul : FVal → FVal → FExact
  | .nan s, .nan t => (.nan false, s || t)
  | .nan s, _ => (.nan false, s)
  | _, .nan s => (.nan false, s)
  | .inf a, .inf b => (.inf (a != b), false)
  | .inf a, .fin b m _ => if m = 0 then (.nan false, true) else (.inf (a != b), false)
  | .fin a m _, .inf b => if m = 0 then (.nan false, true) else (.inf (a != b), false)
  | .fin a m e, .fin b n g => (.fin (a != b) (m * n) (e + g), false)

/-- x × y + z exactly (R99). An invalid product is invalid whatever z is; for BMAC2 and HMAC2 that is the model's choice (log
108). -/
def FVal.fma (rm : RM) (x y z : FVal) : FExact :=
  let (p, i) := FVal.mul x y
  let (r, j) := FVal.add rm p z
  (r, i || j)

/-- Negation of the sign. -/
def FVal.neg : FVal → FVal
  | .nan s => .nan s
  | .inf a => .inf !a
  | .fin a m e => .fin (!a) m e

/-- The numerical order of two values that are no NaNs; +0 and −0 are equal. -/
def FVal.lt : FVal → FVal → Bool
  | .inf a, .inf b => a && !b
  | .inf a, .fin _ _ _ => a
  | .fin _ _ _, .inf b => !b
  | .fin a m e, .fin b n g => let q := min e g; decide (scaled a m e q < scaled b n g q)
  | .nan _, _ => false
  | _, .nan _ => false

/-- Whether a value is a NaN. -/
def FVal.isNan : FVal → Bool
  | .nan _ => true
  | .inf _ | .fin _ _ _ => false

/-- Whether a value is a signalling NaN. -/
def FVal.isSnan : FVal → Bool
  | .nan s => s
  | .inf _ | .fin _ _ _ => false

/-- The sign. -/
def FVal.isNeg : FVal → Bool
  | .nan _ => false
  | .inf a => a
  | .fin a _ _ => a

/-- NV for an invalid result. -/
def nvIf (b : Bool) : Word := if b then Config.flNV else 0#32

/-- An exact result rounded to an arithmetic format under FCR, with S = 0 (R73). -/
def Fmt.finish (f : Fmt) (rm : RM) (fz : Bool) (r : FExact) : FRes :=
  let o := f.round rm false fz r.1
  ⟨o.code, o.fl ||| nvIf r.2⟩

/-! ### The vector float operations, on codes of one format (R98 to R102, R104) -/

/-- FADD and the packed adds. -/
def Fmt.fadd (f : Fmt) (rm : RM) (fz : Bool) (x y : Nat) : FRes :=
  f.finish rm fz (FVal.add rm (f.flush fz (f.decode x)) (f.flush fz (f.decode y)))

/-- FSUB. A NaN operand keeps no sign, so negating the second operand is exact. -/
def Fmt.fsub (f : Fmt) (rm : RM) (fz : Bool) (x y : Nat) : FRes :=
  f.finish rm fz (FVal.add rm (f.flush fz (f.decode x)) (f.flush fz (f.decode y)).neg)

/-- FMUL and the packed multiplies. -/
def Fmt.fmul (f : Fmt) (rm : RM) (fz : Bool) (x y : Nat) : FRes :=
  f.finish rm fz (FVal.mul (f.flush fz (f.decode x)) (f.flush fz (f.decode y)))

/-- FMAC, FMAL and the packed multiply-adds: one rounding (R99). -/
def Fmt.ffma (f : Fmt) (rm : RM) (fz : Bool) (x y z : Nat) : FRes :=
  f.finish rm fz (FVal.fma rm (f.flush fz (f.decode x)) (f.flush fz (f.decode y)) (f.flush fz (f.decode z)))

/-- The code of an operand as FMIN and FMAX return it: itself, or under FZ a zero of its sign (R100). -/
def Fmt.flushCode (f : Fmt) (fz : Bool) (x : Nat) : Nat :=
  if fz && f.subnormal (f.decode x) then f.sign (f.decode x).isNeg 0 else x % 2 ^ f.w

/-- FMIN (`max = false`) and FMAX (R100). −0 counts as less than +0. -/
def Fmt.fminmax (f : Fmt) (max fz : Bool) (x y : Nat) : FRes :=
  let a := f.decode x
  let b := f.decode y
  let nv := nvIf (a.isSnan || b.isSnan)
  if a.isNan && b.isNan then f.nanRes nv
  else if a.isNan then ⟨f.flushCode fz y, nv⟩
  else if b.isNan then ⟨f.flushCode fz x, nv⟩
  else
    let a := f.flush fz a
    let b := f.flush fz b
    let less := a.lt b || (!(b.lt a) && a.isNeg && !b.isNeg)
    ⟨if less == max then f.flushCode fz y else f.flushCode fz x, nv⟩

/-- FSCALE (R101). -/
def Fmt.fscale (f : Fmt) (rm : RM) (fz : Bool) (x : Nat) (n : Int) : FRes :=
  match f.flush fz (f.decode x) with
  | .fin neg m e => f.finish rm fz (.fin neg m (e + n), false)
  | .nan s => f.finish rm fz (.nan false, s)
  | .inf a => f.finish rm fz (.inf a, false)

/-- The relation of a float compare (R102). -/
inductive FRel where
  | eq | lt | le | un
deriving DecidableEq, Repr

/-- A float compare: the predicate, and NV (R102). -/
def Fmt.fcmp (f : Fmt) (r : FRel) (fz : Bool) (x y : Nat) : Bool × Word :=
  let a := f.flush fz (f.decode x)
  let b := f.flush fz (f.decode y)
  let nan := a.isNan || b.isNan
  let snan := a.isSnan || b.isSnan
  match r with
  | .eq => (!nan && !(a.lt b) && !(b.lt a), nvIf snan)
  | .lt => (!nan && a.lt b, nvIf nan)
  | .le => (!nan && !(b.lt a), nvIf nan)
  | .un => (nan, nvIf snan)

/-! ### Integer conversions (R74, R105, R106) -/

/-- A value rounded to an integer and clamped to lo..hi (R74). -/
def roundInt (rm : RM) (lo hi : Int) : FVal → Int × Word
  | .nan _ => (0, Config.flNV)
  | .inf a => (if a then lo else hi, Config.flSAT)
  | .fin neg m e =>
    let big := !(m == 0) && decide ((64 : Int) < (m.log2 : Int) + e)
    let (k, ix) := if big then (2 ^ 64, false) else if (m.log2 : Int) + e < -2 then roundTo rm neg (if m = 0 then 0 else 1) (-2) 0
      else roundTo rm neg m e 0
    let n : Int := if neg then -(k : Int) else k
    let nx := if ix then Config.flNX else 0#32
    if n < lo then (lo, nx ||| Config.flSAT) else if hi < n then (hi, nx ||| Config.flSAT) else (n, nx)

/-- CVTFI (R105). -/
def cvtfi (rm : RM) (fz : Bool) (x : Word) : Word × Word :=
  let (n, fl) := roundInt rm (-2147483648) 2147483647 (f32.flush fz (f32.decode x.toNat))
  (BitVec.ofInt 32 n, fl)

/-- CVTIF (R106). -/
def cvtif (rm : RM) (x : Word) : FRes :=
  f32.finish rm false (.fin (decide (x.toInt < 0)) x.toInt.natAbs 0, false)

/-! ### Block scales and element formats (R66 to R75) -/

/-- What a scale byte says of a block (R69, R70): no scale or a factor 2^x with the N4 type, a void block, or NaN. -/
inductive Scale where
  | factor (x : Int) (ty : BitVec 2)
  | void
  | nan
deriving DecidableEq, Repr

/-- The scale of a block under scale kind `sk`, from its scale byte; kinds 0 and 3 apply none (R69 to R71). -/
def scaleOf (sk : Nat) (byte : Byte) : Scale :=
  if sk = 1 then (if byte == 0xFF#8 then .nan else .factor ((byte.toNat : Int) - 127) 0#2)
  else if sk = 2 then
    (if byte.toNat % 64 = 63 then .void else .factor ((byte.toNat % 64 : Nat) - 32) (byte.extractLsb' 6 2))
  else .factor 0 0#2

/-- The magnitudes of N4 types 2 and 3 by code, in eighths and in units, with the next step above the largest (R69;
the step above the largest is the model's own, log 15). -/
def n4Mags (ty : BitVec 2) : List Nat :=
  if ty == 2#2 then [0, 1, 2, 4, 8, 16, 32, 64, 128] else [0, 1, 2, 3, 4, 6, 8, 12, 16]

/-- The exponent of the unit in which `n4Mags` counts. -/
def n4Unit (ty : BitVec 2) : Int := if ty == 2#2 then -3 else 0

/-- The value of a four-bit code of the N4 family under a type (R69). -/
def n4Decode (ty : BitVec 2) (c : Nat) : FVal :=
  if ty == 0#2 then
    let n : Int := (BitVec.ofNat 4 c).toInt
    .fin (decide (n < 0)) n.natAbs 0
  else if ty == 1#2 then e2m1.decode c
  else .fin (c / 8 % 2 == 1) ((n4Mags ty).getD (c % 8) 0) (n4Unit ty)

/-- The float format of an element code, where it is one (R66). -/
def fmtOf (fmt : Nat) : Option Fmt :=
  match fmt with
  | 0 => some f32
  | 1 => some bf16
  | 2 => some f16
  | 3 => some e4m3
  | 4 => some e5m2
  | 5 => some e3m2
  | 6 => some e2m3
  | 7 => some e2m1
  | _ => none

/-- The width in bits of an element format (R66). -/
def fmtWidth (fmt : Nat) : Nat :=
  match fmt with
  | 0 => 32
  | 1 | 2 => 16
  | 3 | 4 | 9 | 10 => 8
  | 5 | 6 => 6
  | _ => 4

/-- The value of a code before its factor (R66, R67, R69). -/
def rawDecode (fmt : Nat) (ty : BitVec 2) (c : Nat) : FVal :=
  match fmtOf fmt with
  | some f => f.decode (c % 2 ^ f.w)
  | none =>
    if fmt = 8 then n4Decode ty (c % 16)
    else
      let n : Int :=
        if fmt = 9 then (BitVec.ofNat 8 c).toInt else if fmt = 10 then ((c % 256 : Nat) : Int) else (BitVec.ofNat 4 c).toInt
      .fin (decide (n < 0)) n.natAbs 0

/-- decode(c, F, byte) (R75, R81): the exact value of a code under a scale. -/
def decodeElem (fmt : Nat) (sc : Scale) (c : Nat) : FVal :=
  match sc with
  | .void => FVal.zero
  | .nan => .nan false
  | .factor x ty =>
    match rawDecode fmt ty c with
    | .fin neg m e => .fin neg m (e + x)
    | .nan s => .nan s
    | .inf a => .inf a

/-- A magnitude rounded to the values of N4 types 2 and 3: the code 0 to 8 (8 is past the largest), and whether it is
inexact (R73). -/
def n4Round (rm : RM) (neg : Bool) (vals : List Nat) (m : Nat) (e : Int) (i : Nat) : Nat × Bool :=
  match vals with
  | a :: b :: r =>
    let lo := scaled false a 0 (min e 0)
    let hi := scaled false b 0 (min e 0)
    let x := scaled false m e (min e 0)
    if x < hi then
      let up := roundUp rm neg (i % 2 == 1) (compare (2 * x) (lo + hi)) (decide (lo < x))
      (if up then i + 1 else i, decide (lo < x))
    else n4Round rm neg (b :: r) m e (i + 1)
  | _ => (i, true)

/-- Conversion to a code of the N4 family under a type (R73, R74). -/
def n4Encode (rm : RM) (ty : BitVec 2) (x : FVal) : FRes :=
  if ty == 0#2 then
    let (n, fl) := roundInt rm (-8) 7 x
    ⟨(BitVec.ofInt 4 n).toNat, fl⟩
  else if ty == 1#2 then e2m1.round rm true false x
  else
    match x with
    | .nan _ => ⟨0, Config.flNV⟩
    | .inf a => ⟨(if a then 15 else 7), Config.flSAT⟩
    | .fin neg m e =>
      let s := if neg then 8 else 0
      if m = 0 then ⟨s, 0#32⟩
      else
        let (i, ix) := n4Round rm neg (n4Mags ty) m (e - n4Unit ty) 0
        if 8 ≤ i then ⟨s + 7, Config.flOF ||| Config.flNX ||| Config.flSAT⟩
        else ⟨s + i, if ix then Config.flNX else 0#32⟩

/-- cvt(x, F, factor, mode) (R73, R74, R81) for a scale that is no void block. A NaN scale acts as a NaN input (R111),
a quiet one, whatever x is: DEDUCED, log 112. `fz` flushes results of F32, BF16 and F16 alone (R63). -/
def encodeElem (fmt : Nat) (sc : Scale) (rm : RM) (sat fz : Bool) (x : FVal) : FRes :=
  let (y, ty) := match sc with
    | .void => (FVal.zero, 0#2)
    | .nan => (FVal.nan false, 0#2)
    | .factor k ty =>
      (match x with
       | .fin neg m e => FVal.fin neg m (e - k)
       | .nan s => .nan s
       | .inf a => .inf a, ty)
  match fmtOf fmt with
  | some f => f.round rm sat (fz && decide (fmt ≤ 2)) y
  | none =>
    if fmt = 8 then n4Encode rm ty y
    else
      let (lo, hi) : Int × Int := if fmt = 9 then (-128, 127) else if fmt = 10 then (0, 255) else (-8, 7)
      let (n, fl) := roundInt rm lo hi y
      ⟨(BitVec.ofInt (fmtWidth fmt) n).toNat, fl⟩

/-! ### Format slots (R71) -/

/-- FMT of a slot. -/
def slotFmt (s : Word) : Nat := s.toNat % 16
/-- SK of a slot. -/
def slotSk (s : Word) : Nat := s.toNat / 16 % 4
/-- POL of a slot. -/
def slotPol (s : Word) : Nat := s.toNat / 64 % 8

/-- Whether a slot of a launch record is valid (R72). -/
def slotValid (s : Word) : Bool :=
  decide (s.toNat < 512) && decide (slotFmt s ≤ 11) &&
  (!(slotSk s == 1 || slotSk s == 2) || decide (3 ≤ slotFmt s)) &&
  (!(slotFmt s == 8) || slotSk s == 2) &&
  (slotPol s == 0 || (slotFmt s == 8 && decide (slotPol s ≤ 4)))

/-- Whether a slot carries a block scale. -/
def slotScaled (s : Word) : Bool := slotSk s == 1 || slotSk s == 2

/-- The rounding mode of an LC word: the mode's bits, or FCR.RM when mode bit 2 is set (R73). -/
def lcMode (mode : BitVec 4) (fcr : Word) : RM := if mode.getLsbD 2 then fcr.setWidth 2 else mode.setWidth 2

/-- CVTN on one lane (R111). -/
def cvtn (slot : Word) (byte : Byte) (mode : BitVec 4) (fcr : Word) (x : Word) : Word × Word :=
  let fz := fcr.getLsbD 2
  let sc := scaleOf (slotSk slot) byte
  if sc = .void then (0#32, 0#32)
  else
    let r := encodeElem (slotFmt slot) sc (lcMode mode fcr) (mode.getLsbD 3) fz (f32.flush fz (f32.decode x.toNat))
    (BitVec.ofNat 32 r.code, r.fl)

/-- CVTW on one lane (R112). Only a scaled magnitude beyond F32, a NaN, a void block and a flush are not exact; with an
E8M0 factor a subnormal result may also be. -/
def cvtw (slot : Word) (byte : Byte) (fcr : Word) (x : Word) : Word × Word :=
  let fz := fcr.getLsbD 2
  let sc := scaleOf (slotSk slot) byte
  if sc = .void then (0#32, Config.flVOID)
  else
    let r := f32.round 0#2 false fz (decodeElem (slotFmt slot) sc x.toNat)
    (BitVec.ofNat 32 r.code, r.fl)

/-! ### QSCALE (R76, R113) -/

/-- A value as a multiple of 2^-200, which every F32 value and every scaled element value is. -/
def fixed200 : FVal → Int
  | .fin neg m e => scaled neg m e (-200)
  | .nan _ | .inf _ => 0

/-- The error of a candidate over a block: the sum of (x − q)² (R76). -/
def qscaleErr (fmt : Nat) (sc : Scale) (rm : RM) (xs : List FVal) : Nat :=
  xs.foldl (fun acc x =>
    let c := (encodeElem fmt sc rm true false x).code
    let d := (fixed200 x - fixed200 (decodeElem fmt sc c)).natAbs
    acc + d * d) 0

/-- The best of the candidates e, e+1, … (`n` of them) of one type, against the best so far (R76). -/
def qscaleBest (fmt sk ty : Nat) (rm : RM) (xs : List FVal) (e : Nat) : Nat → Option (Nat × Byte) → Option (Nat × Byte)
  | 0, best => best
  | n + 1, best =>
    let b := BitVec.ofNat 8 (64 * ty + e)
    let err := qscaleErr fmt (scaleOf sk b) rm xs
    let best' := match best with
      | some (e0, _) => if err < e0 then some (err, b) else best
      | none => some (err, b)
    qscaleBest fmt sk ty rm xs (e + 1) n best'

/-- The candidates of one type: e from 0 to 62, or to 254 under E8M0 (R76). -/
def qscaleType (fmt sk ty : Nat) (rm : RM) (xs : List FVal) (best : Option (Nat × Byte)) : Option (Nat × Byte) :=
  qscaleBest fmt sk ty rm xs 0 (if sk = 1 then 255 else 63) best

/-- The winner among all candidates of a slot; none where the slot has no block scale to choose (R76). -/
def qscaleWin (fmt sk pol : Nat) (rm : RM) (xs : List FVal) : Option (Nat × Byte) :=
  if fmt = 8 then
    if pol = 4 then [0, 1, 2, 3].foldl (fun b ty => qscaleType 8 2 ty rm xs b) none
    else qscaleType 8 2 (pol % 4) rm xs none
  else if (decide (3 ≤ fmt) && decide (fmt ≤ 7) || fmt == 11) && (sk == 1 || sk == 2) then
    qscaleType fmt sk 0 rm xs none
  else none

/-- QSCALE's byte and whether NV is set, from the 32 lanes' values (R76). -/
def qscale (slot : Word) (rm : RM) (xs : List FVal) : Byte × Bool :=
  let bad := xs.any fun x => match x with
    | .fin _ _ _ => false
    | .nan _ | .inf _ => true
  let ys := xs.map fun x => match x with
    | .fin neg m e => FVal.fin neg m e
    | .nan _ | .inf _ => FVal.zero
  match qscaleWin (slotFmt slot) (slotSk slot) (slotPol slot) rm ys with
  | some p => (p.2, bad)
  | none => (0#8, true)

/-! ### CVTSR, packing, widening (R16, R107, R108, R114) -/

/-- CVTSR on one lane (R114). -/
def cvtsr (fz : Bool) (x y : Word) : Word × Word :=
  let v := f32.decode x.toNat
  if v.isNan then (0x7FC0#32, nvIf v.isSnan)
  else if x.toNat % 2 ^ 31 = 0x7F800000 then (x >>> 16, 0#32)
  else
    let fx := f32.flushCode fz x.toNat % 2 ^ 31
    let h := x.toNat / 2 ^ 31 * 2 ^ 15 + (fx + y.toNat % 65536) / 65536
    let nx := if fx % 65536 = 0 then 0#32 else Config.flNX
    let of := if h % 32768 / 128 = 255 then Config.flOF else 0#32
    if fz && bf16.subnormal (bf16.decode h) then
      (BitVec.ofNat 32 (h / 32768 * 32768), nx ||| of ||| Config.flUF ||| Config.flNX)
    else (BitVec.ofNat 32 h, nx ||| of)

/-- F32 to a 16-bit format under FCR (R16, R107). -/
def Fmt.narrow (f : Fmt) (rm : RM) (fz : Bool) (x : Word) : FRes :=
  f.round rm false fz (f32.flush fz (f32.decode x.toNat))

/-- PKBF and PKHF: two values into the halves of one word. -/
def packTwo (f : Fmt) (rm : RM) (fz : Bool) (x y : Word) : Word × Word :=
  let a := f.narrow rm fz x
  let b := f.narrow rm fz y
  (BitVec.ofNat 32 (a.code + 65536 * b.code), a.fl ||| b.fl)

/-- UPKLO and UPKHI: a BF16 half widened to F32 (R108). -/
def widenBf (fz : Bool) (h : Nat) : Word × Word :=
  let r := f32.round 0#2 false fz (bf16.decode h)
  (BitVec.ofNat 32 r.code, r.fl)

/-- An operation on both halves of a pair (R104). -/
def bothHalves (op : Nat → Nat → Nat → FRes) (x y d : Word) : Word × Word :=
  let lo := op (x.toNat % 65536) (y.toNat % 65536) (d.toNat % 65536)
  let hi := op (x.toNat / 65536) (y.toNat / 65536) (d.toNat / 65536)
  (BitVec.ofNat 32 (lo.code + 65536 * hi.code), lo.fl ||| hi.fl)

/-! ### The function instructions (R15, R79, R80, R103) -/

/-- The integer square root, by its bits from `k` down. -/
def isqrt (n : Nat) : Nat → Nat → Nat
  | 0, r => r
  | k + 1, r => if (r + 2 ^ k) * (r + 2 ^ k) ≤ n then isqrt n k (r + 2 ^ k) else isqrt n k r

/-- FSQRT (R80): correctly rounded under FCR. -/
def fsqrt (rm : RM) (fz : Bool) (x : Word) : FRes :=
  match f32.flush fz (f32.decode x.toNat) with
  | .nan s => f32.nanRes (nvIf s)
  | .inf neg => if neg then f32.nanRes Config.flNV else ⟨f32.infCode, 0#32⟩
  | .fin neg m e =>
    if m = 0 then ⟨f32.sign neg 0, 0#32⟩
    else if neg then f32.nanRes Config.flNV
    else
      let odd := decide (e % 2 = 1)
      let m2 := (if odd then 2 * m else m) * 2 ^ 64
      let e2 := (if odd then e - 1 else e) - 64
      let s := isqrt m2 48 0
      f32.finish rm fz (.fin false (2 * s + (if s * s = m2 then 0 else 1)) (e2 / 2 - 1), false)

/-- Whether a magnitude is a power of two, and its exponent. -/
def pow2? (m : Nat) (e : Int) : Option Int := if m = 2 ^ m.log2 then some ((m.log2 : Int) + e) else none

/-- The flags and the flush of a free function result (R103): NX, UF where it is tiny, OF where it is infinite. -/
def freeRes (fz : Bool) (r : Word) : FRes :=
  let v := f32.decode r.toNat
  if v.isNan then f32.nanRes Config.flNX
  else if f32.subnormal v then
    ⟨f32.flushCode fz r.toNat, Config.flUF ||| Config.flNX⟩
  else if r.toNat % 2 ^ 31 = 0 then ⟨r.toNat, Config.flUF ||| Config.flNX⟩
  else if r.toNat % 2 ^ 31 = f32.infCode then ⟨r.toNat, Config.flOF ||| Config.flNX⟩
  else ⟨r.toNat, Config.flNX⟩

/-- 2^n as an exact result: representable, or past the range either way. -/
def exactPow (fz neg : Bool) (n : Int) : FRes := f32.finish 0#2 fz (.fin neg 1 n, false)

/-- ulp(y) as an exponent, for y = m × 2^e / d with a known ⌊log₂ y⌋ (R79). -/
def ulpExp (lg : Int) : Int := max lg (-126) - 23

/-- ⌊log₂ (1/m)⌋ for a significand that is no power of two. -/
def recipLog (m : Nat) (e : Int) : Int := -((m.log2 : Int) + e) - 1

/-- Whether |r − 1/(m × 2^e)| is at most one ulp: |r·x − 1| ≤ ulp·x, in exact integers (R79). -/
def frcpOk (m : Nat) (e : Int) (r : Word) : Bool :=
  match f32.decode (r.toNat % 2 ^ 31) with
  | .fin _ k g =>
    let u := ulpExp (recipLog m e)
    let q := min (min (g + e) (u + e)) 0
    let d := scaled false (k * m) (g + e) q - scaled false 1 0 q
    decide ((d.natAbs : Int) ≤ scaled false m (u + e) q)
  | .nan _ | .inf _ => false

/-- The value nearest to 1/(m × 2^e), as a magnitude: 2^100 / m with a sticky bit, rounded. -/
def frcpNear (m : Nat) (e : Int) : Nat :=
  let k := 2 ^ 100 / m
  (f32.roundFin 0#2 false false false (2 * k + (if k * m = 2 ^ 100 then 0 else 1)) (-101 - e)).code

/-- FRCP (R80): exact at powers of two; else the free value `Config.frcp` where it is within 1 ulp, the nearest value
where it is not. Of the results beyond F32 only 2^128 has values within 1 ulp, the two largest; for the others no value is
and the free value stands (log 9). -/
def frcp (fz : Bool) (x : Word) : FRes :=
  match f32.flush fz (f32.decode x.toNat) with
  | .nan s => f32.nanRes (nvIf s)
  | .inf neg => ⟨f32.sign neg 0, 0#32⟩
  | .fin neg m e =>
    if m = 0 then ⟨f32.sign neg f32.infCode, Config.flDZ⟩
    else
      let c := (Config.frcp x).toNat % 2 ^ 31
      let gives := fun (r : Nat) => freeRes fz (BitVec.ofNat 32 (f32.sign neg r))
      match pow2? m e with
      | some n =>
        if -128 < n then exactPow fz neg (-n)
        else if n = -128 then gives (if c = 0x7F7FFFFE then c else 0x7F7FFFFF)
        else gives c
      | none =>
        if 128 ≤ recipLog m e then gives c
        else gives (if frcpOk m e (BitVec.ofNat 32 c) then c else frcpNear m e)

/-- Whether |r − 1/√x| is at most one ulp u, for x = m × 2^e: (r − u)²·x ≤ 1 ≤ (r + u)²·x, the left part where r > u
(R79). -/
def frsqOk (m : Nat) (e : Int) (u : Int) (r : Word) : Bool :=
  match f32.decode (r.toNat % 2 ^ 31) with
  | .fin _ k g =>
    let q := min g u
    let a := scaled false k g q
    let b := scaled false 1 u q
    let z := min (2 * q + e) 0
    let one := scaled false 1 0 z
    let sq := fun (t : Int) => scaled false (t.natAbs * t.natAbs * m) (2 * q + e) z
    decide (one ≤ sq (a + b)) && (decide (a ≤ b) || decide (sq (a - b) ≤ one))
  | .nan _ | .inf _ => false

/-- The value nearest to 1/√(m × 2^e): √(2^200 / m') with a sticky bit, rounded. -/
def frsqNear (m : Nat) (e : Int) : Nat :=
  let odd := decide (e % 2 = 1)
  let m2 := if odd then 2 * m else m
  let e2 := if odd then e - 1 else e
  let s := isqrt (2 ^ 200 / m2) 101 0
  (f32.roundFin 0#2 false false false (2 * s + 1) (-101 - e2 / 2)).code

/-- ⌊log₂ (1/√x)⌋ for x = m × 2^e that is no power of 4. -/
def rsqrtLog (m : Nat) (e : Int) : Int :=
  let t := (m.log2 : Int) + e
  0 - t / 2 - 1

/-- FRSQ (R80): exact at powers of 4; else within 1 ulp, the free value where it is and the nearest where it is not. -/
def frsq (fz : Bool) (x : Word) : FRes :=
  match f32.flush fz (f32.decode x.toNat) with
  | .nan s => f32.nanRes (nvIf s)
  | .inf neg => if neg then f32.nanRes Config.flNV else ⟨0, 0#32⟩
  | .fin neg m e =>
    if m = 0 then ⟨f32.sign neg f32.infCode, Config.flDZ⟩
    else if neg then f32.nanRes Config.flNV
    else
      let free :=
        let c := (Config.frsq x).toNat % 2 ^ 31
        let r := if frsqOk m e (ulpExp (rsqrtLog m e)) (BitVec.ofNat 32 c) then c else frsqNear m e
        freeRes fz (BitVec.ofNat 32 r)
      match pow2? m e with
      | some n => if n % 2 = 0 then exactPow fz false (-(n / 2)) else free
      | none => free

/-! ### Elementary functions in fixed point (R79)

Values are integers in units of 2^-256. Every finite F32 value is a whole number of units, and the series below are off by
far less than `fxFloor` needs: outside the exact cases a true value never lies on the grid on which R79's bounds lie, so the
place between two grid points that `fxFloor` gives decides the bounds exactly. -/

/-- One, in fixed point. -/
def fxOne : Int := 2 ^ 256

/-- `n` terms of a series from the `k`-th on: `p` is the `k`-th power, `next` gives the next one, `out` the term. -/
def fxSum (next out : Nat → Int → Int) : Nat → Nat → Int → Int
  | 0, _, _ => 0
  | n + 1, k, p => out k p + fxSum next out n (k + 1) (next k p)

/-- The natural logarithm of 2, as 2·artanh(1/3). -/
def fxLn2 : Int := 2 * fxSum (fun _ p => p / 9) (fun k p => p / (2 * k + 1)) 90 0 (fxOne / 3)

/-- The arctangent of 1/d. -/
def fxAtanInv (d : Int) : Int := fxSum (fun _ p => -p / (d * d)) (fun k p => p / (2 * k + 1)) 60 0 (fxOne / d)

/-- π, by Machin's formula. -/
def fxPi : Int := 16 * fxAtanInv 5 - 4 * fxAtanInv 239

/-- 2^x; below 2^-300 it is 0 here. -/
def fxExp2 (x : Int) : Int :=
  let n := x / fxOne
  let t := x % fxOne * fxLn2 / fxOne
  let e := fxSum (fun k p => p * t / (fxOne * (k + 1))) (fun _ p => p) 60 0 fxOne
  if 0 ≤ n then e * 2 ^ n.toNat else if n < -300 then 0 else e / 2 ^ (-n).toNat

/-- log₂ z for z from 1 to 2, as 2·artanh((z − 1)/(z + 1))/ln 2. -/
def fxLog2 (z : Int) : Int :=
  let s := (z - fxOne) * fxOne / (z + fxOne)
  let s2 := s * s / fxOne
  2 * fxSum (fun _ p => p * s2 / fxOne) (fun k p => p / (2 * k + 1)) 90 0 s * fxOne / fxLn2

/-- sin πx, with x reduced modulo 2 and folded into 0 to 1/2. -/
def fxSinPi (x : Int) : Int :=
  let r := x % (2 * fxOne)
  let neg := decide (fxOne ≤ r)
  let a := if neg then r - fxOne else r
  let b := if fxOne < 2 * a then fxOne - a else a
  let t := b * fxPi / fxOne
  let t2 := t * t / fxOne
  let y := fxSum (fun k p => -(p * t2) / (fxOne * ((2 * k + 2) * (2 * k + 3)))) (fun _ p => p) 45 0 t
  if neg then -y else y

/-- tanh x for x ≥ 0, as (1 − u)/(1 + u) with u = e^(−2x). -/
def fxTanh (x : Int) : Int :=
  let u := fxExp2 (-(2 * x * fxOne / fxLn2))
  (fxOne - u) * fxOne / (fxOne + u)

/-- ulp(y) of R79 for a value whose ⌊log₂|y|⌋ is that of `lo`, a grid point; 0 stands for a value below every grid point. -/
def fxUlp (lo : Nat) : Nat := if lo = 0 then 2 ^ 107 else 2 ^ (max ((lo.log2 : Int) - 256) (-126) + 233).toNat

/-- The grid point (a multiple of 2^k units) just below a true value whose computed magnitude is `mag`. Where `mag` is on a
grid point but for the error of the computation, `above` says on which side of it the true value lies. -/
def fxFloor (k : Nat) (above : Bool) (mag : Nat) : Nat :=
  let g := 2 ^ k
  let q := mag / g
  let r := mag % g
  if r * 2 ^ 60 < g then (if above then q else q - 1) * g
  else if (g - r) * 2 ^ 60 < g then (if above then q + 1 else q) * g
  else q * g

/-- The free value `c` where it is within `tol` of the true value, which lies between the grid points `lo` and `lo` + 2^k and has
the sign `neg`; else the value nearest to the computed magnitude (R79). -/
def pickNear (c : Word) (neg : Bool) (k lo mag tol : Nat) : Word :=
  let ok := match f32.decode c.toNat with
    | .fin n m g =>
      let x := scaled (n != neg) m g (-256)
      decide (x - tol ≤ (lo : Int)) && decide ((lo : Int) + 2 ^ k ≤ x + tol)
    | .nan _ | .inf _ => false
  if ok then c
  else if mag = 0 then 0#32
  else BitVec.ofNat 32 (f32.roundFin 0#2 false false neg mag (-256)).code

/-- FEXP2 (R80): exact at integers whose power is representable; +∞ with OF and NX from 128 up; else within 1 ulp. -/
def fexp2 (fz : Bool) (x : Word) : FRes :=
  match f32.flush fz (f32.decode x.toNat) with
  | .nan s => f32.nanRes (nvIf s)
  | .inf neg => ⟨if neg then 0 else f32.infCode, 0#32⟩
  | .fin neg m e =>
    if m = 0 then exactPow fz false 0
    else if !neg && decide (7 ≤ (m.log2 : Int) + e) then ⟨f32.infCode, Config.flOF ||| Config.flNX⟩
    else
      let a := scaled neg m e (-256)
      let y := (fxExp2 a).natAbs
      let g := 107 + (a / fxOne).toNat
      let lo := fxFloor g true y
      let free := freeRes fz (pickNear (Config.fexp2 x) false g lo y (fxUlp lo))
      let (k, ix) := roundTo 1#2 false m e 0
      let n : Int := if neg then -(k : Int) else k
      if ix || decide (n < -149) then free else exactPow fz false n

/-- FLOG2 (R80): exact at powers of two; else within 1 ulp, or within 2^-23 where the operand is in [0.5, 2] (R79). -/
def flog2 (fz : Bool) (x : Word) : FRes :=
  match f32.flush fz (f32.decode x.toNat) with
  | .nan s => f32.nanRes (nvIf s)
  | .inf neg => if neg then f32.nanRes Config.flNV else ⟨f32.infCode, 0#32⟩
  | .fin neg m e =>
    if m = 0 then ⟨f32.sign true f32.infCode, Config.flDZ⟩
    else if neg then f32.nanRes Config.flNV
    else match pow2? m e with
      | some n => f32.finish 0#2 fz (.fin (decide (n < 0)) n.natAbs 0, false)
      | none =>
        let lg := (m.log2 : Int) + e
        let y := lg * fxOne + fxLog2 (m * 2 ^ 256 / 2 ^ m.log2)
        let lo := fxFloor 107 false y.natAbs
        let ulp := fxUlp lo
        freeRes fz (pickNear (Config.flog2 x) (decide (y < 0)) 107 lo y.natAbs (if -1 ≤ lg ∧ lg ≤ 0 then max ulp (2 ^ 233) else ulp))

/-- An argument in half-turns: 2x reduced modulo 4 where 2x is an integer (R15). -/
def halfTurns (m : Nat) (e : Int) : Option Nat :=
  if 2 ≤ e then some 0
  else
    let (k, ix) := roundTo 1#2 false m (e + 1) 0
    if ix then none else some (k % 4)

/-- FSINPI and FCOSPI (R15, R79, R80): exact where the exact result is 0 or ±1; else within 1 ulp of a result of at least
2^-10, and within 2^-34 of a smaller one. -/
def fsincos (cos fz : Bool) (x : Word) : FRes :=
  match f32.flush fz (f32.decode x.toNat) with
  | .nan s => f32.nanRes (nvIf s)
  | .inf _ => f32.nanRes Config.flNV
  | .fin neg m e =>
    let y := fxSinPi (scaled neg m e (-256) + (if cos then fxOne / 2 else 0))
    let lo := fxFloor 107 false y.natAbs
    let tol := if 2 ^ 246 ≤ lo then fxUlp lo else 2 ^ 222
    let free := freeRes fz (pickNear (if cos then Config.fcospi x else Config.fsinpi x) (decide (y < 0)) 107 lo y.natAbs tol)
    match halfTurns m e with
    | none => free
    | some h =>
      if cos then
        (if h = 0 then ⟨0x3F800000, 0#32⟩ else if h = 2 then ⟨0xBF800000, 0#32⟩ else ⟨0, 0#32⟩)
      else if h % 2 = 0 then ⟨f32.sign neg 0, 0#32⟩
      else ⟨if (h == 3) == neg then 0x3F800000 else 0xBF800000, 0#32⟩

/-- FTANH (R79, R80): ±0 and ±∞ exact; else within 2 ulp. -/
def ftanh (fz : Bool) (x : Word) : FRes :=
  match f32.flush fz (f32.decode x.toNat) with
  | .nan s => f32.nanRes (nvIf s)
  | .inf neg => ⟨f32.sign neg 0x3F800000, 0#32⟩
  | .fin neg m e =>
    if m = 0 then ⟨f32.sign neg 0, 0#32⟩
    else
      let y := (fxTanh (scaled false m e (-256))).natAbs
      let lo := fxFloor 107 false y
      freeRes fz (pickNear (Config.ftanh x) neg 107 lo y (2 * fxUlp lo))

/-! ### Matrix accumulation (R77, R78) -/

/-- The exact sum of a group's products (R77, R78): NaN where a factor is one, a product is ∞ × 0, or infinities of both
signs meet; an exact zero is −0 only when every product is −0. -/
def groupSum (ps : List (FVal × FVal)) : FVal :=
  match ps with
  | [] => FVal.zero
  | p :: r =>
    r.foldl (fun acc q => (FVal.add 0#2 acc (FVal.mul q.1 q.2).1).1) (FVal.mul p.1 p.2).1

/-- One group added to an accumulator element (R77): one RNE rounding; a NaN is canonical; no flag but VOID. -/
def accAdd (acc : Word) (s : FVal) (scale : Int) : Word :=
  let s := match s with
    | .fin neg m e => FVal.fin neg m (e + scale)
    | .nan b => .nan b
    | .inf a => .inf a
  BitVec.ofNat 32 (f32.finish 0#2 false (FVal.add 0#2 (f32.decode acc.toNat) s)).code

end Sys2Proof.Machine
end

