-- ==== Sys2Proof/Machine/Tab.lean ====
section
/-!
DEFINITION. Sparse tables: the one form in which memory, register files and the device's tables are held. A table is a
list of (key, value) pairs with strictly rising keys; an absent key reads as a default that the reader names. `Tab.set`
removes an entry whose new value is the default, so equal memories are equal lists.
-/

namespace Sys2Proof.Machine

/-- A table with natural-number keys, in rising order of its keys. -/
abbrev Tab (β : Type) := List (Nat × β)

/-- The value at a key; the default where the key is not listed. -/
def Tab.get {β : Type} (dflt : β) : Tab β → Nat → β
  | [], _ => dflt
  | (a, x) :: r, k => if a = k then x else Tab.get dflt r k

/-- The value at a key, if it is listed. -/
def Tab.find? {β : Type} : Tab β → Nat → Option β
  | [], _ => none
  | (a, x) :: r, k => if a = k then some x else Tab.find? r k

/-- Lists `v` at `k`. -/
def Tab.put {β : Type} : Tab β → Nat → β → Tab β
  | [], k, v => [(k, v)]
  | (a, x) :: r, k, v =>
    if k < a then (k, v) :: (a, x) :: r
    else if k = a then (k, v) :: r
    else (a, x) :: Tab.put r k v

/-- Removes the entry at `k`. -/
def Tab.del {β : Type} (t : Tab β) (k : Nat) : Tab β := t.filter fun p => !(p.1 == k)

/-- Writes `v` at `k`, keeping no entry that equals the default. -/
def Tab.set {β : Type} [DecidableEq β] (dflt : β) (t : Tab β) (k : Nat) (v : β) : Tab β :=
  if v = dflt then Tab.del t k else Tab.put t k v

/-- Applies `f` to the value at `k` and lists the result. -/
def Tab.mod {β : Type} (dflt : β) (t : Tab β) (k : Nat) (f : β → β) : Tab β := Tab.put t k (f (Tab.get dflt t k))

/-- The keys a table lists. -/
def Tab.keys {β : Type} (t : Tab β) : List Nat := t.map (·.1)

/-- Strictly rising keys. -/
def Tab.sorted {β : Type} : Tab β → Bool
  | [] => true
  | [_] => true
  | (a, _) :: (b, y) :: r => decide (a < b) && Tab.sorted ((b, y) :: r)

/-- The canonical form: strictly rising keys, and no entry equal to what an unlisted key reads as. -/
def Tab.wf {β : Type} [DecidableEq β] (dflt : β) (t : Tab β) : Bool := t.sorted && t.all fun p => !(decide (p.2 = dflt))

end Sys2Proof.Machine
end

