-- ==== Sys2Proof/Machine/State.lean ====
section
/-!
DEFINITION. The state of the N24: everything the spec gives the device, as plain data, and the state right after
power-on reset. INVENTORY.md lists every field with its rule and its reset value.
-/

namespace Sys2Proof.Machine

/-- Why the machine stops with a fault. No instruction word that an issue group issues raises one. -/
inductive Fault where
  /-- The agenda names a step that cannot happen in this state (a completion of nothing, a wake of a thread that does
  not wait). Raised by the meanings of the 101 steps of other agents and by `step`. SAFE: the hardware takes no such
  step, so nothing the hardware does is lost. -/
  | notPossible
  /-- The meaning of an instruction word was asked for where no issue group is issuing (`State.cur` is not active).
  Raised by the meanings of instruction words. SAFE: `step` always sets the group first. -/
  | noIssueGroup
deriving DecidableEq, Repr

/-- Why the model has no meaning to give. -/
inductive Refusal where
  /-- An instruction the model does not cover. Raised by `exec` alone; no arm answers it. SAFE. -/
  | notModelled (mnemonic : String)
deriving DecidableEq, Repr

/-- What one step answers. -/
abbrev Out (σ : Type) := Host.Outcome σ Fault Refusal

/-! ### Ordering between agents (R228 to R237) -/

/-- An agent (R228). An engine agent is one class serving one unit; `n` tells its commands apart, because nothing orders
them among themselves. -/
inductive Agent where
  | unit (u : Nat)
  | engine (u cls n : Nat)
  | hart (slice h : Nat)
  | port (slice : Nat)
  | slotCtl (part : Nat)
deriving DecidableEq, Repr

/-- For each agent, how many of its regions are ordered before (R232). -/
abbrev VC := List (Agent × Nat)

/-- A place an access touches: physical memory, or one team's local window (R234). -/
inductive Space where
  | glob
  | loc (team : Nat)
deriving DecidableEq, Repr

/-- A performed access that a later one may race with (R234). `atom` is the scope of an atomic access, `vc` the agent's
clock at the access. -/
structure Acc where
  agent : Agent
  epoch : Nat
  space : Space
  lo : Nat
  len : Nat
  write : Bool
  atom : Option (BitVec 2)
  vc : VC
deriving DecidableEq, Repr

/-- A release that an acquire reading this location can synchronise with (R231). -/
structure Rel where
  loc : Nat
  agent : Agent
  scope : BitVec 2
  vc : VC
deriving DecidableEq, Repr

/-- The ordering state of one agent: its clock, what of it came by a counter, TSTATE or MWAIT and so orders its engine commands too
(R238), the FENCEs before its later relaxed atomics, the releases its relaxed reads have read from, those of counters apart (R231),
and its FENCEX-ordered epochs by class (R238). -/
structure AgentOrd where
  vc : VC
  paths : VC
  fences : List (BitVec 2 × VC)
  seen : List Rel
  seenCtr : List Rel
  fencex : List (Nat × VC)
deriving DecidableEq, Repr

/-- An agent that has done nothing. -/
def AgentOrd.init : AgentOrd := { vc := [], paths := [], fences := [], seen := [], seenCtr := [], fencex := [] }

/-- The accesses, releases and clocks that race detection needs (R230 to R237). -/
structure Order where
  agents : List (Agent × AgentOrd)
  accs : List Acc
  rels : List Rel
deriving DecidableEq, Repr

/-! ### Threads -/

/-- A trap's record: cause, TADDR and TCONF (R287). -/
structure TrapRec where
  cause : Nat
  taddr : DWord
  conf : Word
deriving DecidableEq, Repr

/-- An L-set memory word that a thread has issued and not finished (R288), with its operands as read at issue (R290).
`latch` is the latch position that awaits its result, 7 for none; registers from `cap` on have been given back since, and take
no result (R34); `since` is the step in which it issued. -/
structure Flight where
  seq : Nat
  word : Word
  lit : Word
  base : DWord
  a : Word
  b : Word
  d : List Word
  latch : Nat
  cap : Nat
  since : Nat
  fault : Option TrapRec
deriving DecidableEq, Repr

/-- A replay-queue entry that TRET re-issues (R290, R291). -/
structure Entry where
  word : Word
  lit : Word
  latch : Nat
  base : DWord
  a : Word
  b : Word
  d : List Word
deriving DecidableEq, Repr

/-- A speculative region (R240): the abort target with its overlay slot, the call-stack depth, and for TRY the SPM
octets with the quota below which their checkpoint lies, for a transaction the TXOPEN offset and whether it runs in serial mode
(R207). -/
inductive Region where
  | none
  | tryR (target : Word) (slot depth : Nat) (spm : BitVec 15) (top : Nat)
  | tx (target : Word) (slot depth : Nat) (off : Word) (serial : Bool)
deriving DecidableEq, Repr

/-- A store buffered in a TRY region: a local or a global address and its bytes (R241, R256). -/
structure BufStore where
  isLocal : Bool
  addr : Nat
  bytes : List Byte
deriving DecidableEq, Repr

/-- A lane's speculation: its region, TRY buffer in program order, transaction logs by sector and byte (R245), the logged sectors
of uncached pages (R221), the virtual sectors it wrote, and the abort count with the TXOPEN offset it counts (R207). -/
structure Spec where
  region : Region
  buf : List BufStore
  rlog : List (Nat × List Byte)
  wlog : Tab Byte
  wvas : List Nat
  uncs : List Nat
  abOff : Word
  abCount : Nat
deriving DecidableEq, Repr

/-- No region, nothing logged. -/
def Spec.init : Spec := { region := .none, buf := [], rlog := [], wlog := [], wvas := [], uncs := [], abOff := 0#32, abCount := 0 }

/-- What a thread waits for while it is not runnable (R23). -/
inductive Wait where
  | none
  | counter (va thr : DWord) (scope : BitVec 2) (deadline : Option DWord) (members : Word)
  | barrier (members : Word)
  | sleep (till : DWord) (members : Word)
  | grow (n : Nat) (members : Word)
  | tile (t : Nat)
deriving DecidableEq, Repr

/-- A lane that does not exist (R20), a live thread, or one that has exited (R165). -/
inductive TStatus where
  | absent
  | live
  | exited
deriving DecidableEq, Repr

/-- A call-stack entry (R160, R163): offset, overlay slot, and the slot's tag at the push. -/
structure Ret where
  off : Word
  slot : Nat
  tag : Option Nat
deriving DecidableEq, Repr

/-- One thread (R19): the smallest architectural unit. A latch that is `none` is invalid (R28). `lastGroup` is the
membership of its previous issue, `backGroup` that of its last issue before the trap it is handling (R29, R168).
`pend` is set while a debugger holds the thread with a Breakpoint pending: its trap mode and mask before it (R293). `ftag0`
and `ftag1` are the slots' tags when the frame was written, and `stale` is set by a return into a slot whose tag has
changed, until the next fetch (R163). `atEntry` says that the thread stands at its handler's entry and has issued no word of it
(R294, R298). -/
structure Thread where
  status : TStatus
  pc : Word
  slot : Nat
  v : Tab Word
  p : BitVec 8
  l0 : Option Word
  l1 : Option Word
  l2 : Option Word
  l3 : Option Word
  abc : Word
  stack : List Ret
  trapMode : Bool
  mask : Bool
  frame : Tab Word
  ftag0 : Option Nat
  ftag1 : Option Nat
  stale : Bool
  replay : List Entry
  flights : List Flight
  lastGroup : Option Word
  backGroup : Option Word
  wait : Wait
  sp : Spec
  pend : Option (Bool × Bool)
  atEntry : Bool
deriving DecidableEq, Repr

/-- A permanently inactive lane: its registers read as zero (R20). -/
def Thread.init : Thread :=
  { status := .absent, pc := 0#32, slot := 0, v := [], p := 0#8, l0 := none, l1 := none, l2 := none, l3 := none,
    abc := 0#32, stack := [], trapMode := false, mask := false, frame := [], ftag0 := none, ftag1 := none,
    stale := false, replay := [], flights := [],
    lastGroup := none, backGroup := none, wait := .none, sp := Spec.init, pend := none,
    atEntry := false }

/-! ### Warps and Reckoners -/

/-- A pending user interrupt: payload, sender's warp number or all ones, the clock its release carries (R169, R170), and
whether the end it puts to the warp's regions still waits for the serial token (R248). -/
structure UIntr where
  payload : Word
  sender : Word
  vc : VC
  due : Bool
deriving DecidableEq, Repr

/-- The interrupt frame: the interrupted offset and slot, and s62 and s63 (R170). -/
structure UFrame where
  off : Word
  slot : Nat
  s62 : Word
  s63 : Word
deriving DecidableEq, Repr

/-- The uniform state of a warp or Reckoner (R20, R156). -/
structure Uni where
  s : Tab Word
  q : BitVec 8
  fcr : Word
  fsr : Word
  shadow : Option Word
  spm : Word
  ablanes : Word
  tvec : Word
  uivec : Word
  ccnt : DWord
  uint : Option UIntr
  uframe : Option UFrame
deriving DecidableEq, Repr

/-- Uniform state at the start of a launch but for what the launch record gives (R22). -/
def Uni.init : Uni :=
  { s := [], q := 0#8, fcr := 0#32, fsr := 0#32, shadow := none, spm := 0#32, ablanes := 0#32, tvec := 0xFFFFFFFF#32,
    uivec := 0xFFFFFFFF#32, ccnt := 0#64, uint := none, uframe := none }

/-- What the issue slot keeps of a warp: base and effective priority, age count, hold count, and whether it yielded, or took a
trap, since it began its last issue (R25, R27, R321). -/
structure Sched where
  base : Nat
  eff : Nat
  age : Nat
  hold : Nat
  yielded : Bool
  trapped : Bool
deriving DecidableEq, Repr

/-- An engine fault held for its issuer (R142, R158): the chain's team and its tile with F set, the captured counter, whether
it is a failed completion add, whether it is a SEALU's (R191), and TADDR. -/
structure Held where
  team : Nat
  tile : Option Nat
  ctr : DWord
  failedAdd : Bool
  sealu : Bool
  cls : Nat
  taddr : DWord
deriving DecidableEq, Repr

/-- A seal context: key handle, record-area VA, and the bytes absorbed so far, whose SHA-384 state and count it stands
for (R190). `void` is the reason for which it is to be voided, once the SEALUs in its chain have completed; `bad` are the
threads that have taken the trap of a faulted SEALU of it and have not returned (R191). -/
structure Seal where
  key : Word
  area : DWord
  bytes : List Byte
  void : Option Nat
  bad : Word
deriving DecidableEq, Repr

/-- A SYSC that waits for the kernel's reply, with the clock its release covers (R172). -/
structure Sysc where
  dest : Nat
  num : Word
  arg : Word
  members : Word
  vc : VC
deriving DecidableEq, Repr

/-- An OVLOAD under way: image VA, target slot, whether the copy has begun (R162). -/
structure OvWait where
  va : DWord
  slot : Nat
  copying : Bool
  members : Word
deriving DecidableEq, Repr

/-- A firewall freeze: the violating lanes with their VAs, to take Protection at RELALL (R306). -/
structure Frozen where
  lanes : List (Nat × DWord)
  members : Word
  pa : Nat
deriving DecidableEq, Repr

/-- Where a unit stands in being withdrawn from its core (R294 to R297). -/
inductive Withdraw where
  | no
  | preparing
  | graceOver
  | saved
deriving DecidableEq, Repr

/-! ### Teams, tiles, engine commands -/

/-- A tile's state (R129). -/
inductive TileSt where
  | empty
  | filling
  | ready
  | draining
deriving DecidableEq, Repr

/-- A tile-table entry (R129). `base` and `extent` are in bytes; `fUnit` is the issuer whose fault F reports (R142). `vc` is
the clock of the engine and matrix accesses that the tile's states order before later ones (R131, R228), `done` the agent
and clock of the completion that made it READY (R132). -/
structure TileEnt where
  base : Nat
  extent : Nat
  kind : Bool
  st : TileSt
  f : Bool
  fUnit : Nat
  readers : Nat
  vc : VC
  done : Option (Agent × VC)
deriving DecidableEq, Repr

/-- An entry at placement (R129). -/
def TileEnt.init : TileEnt :=
  { base := 0, extent := 0, kind := false, st := .empty, f := false, fUnit := 0, readers := 0, vc := [],
    done := none }

/-- A blocked register grow (R34, R35). -/
structure Grow where
  u : Nat
  members : Word
  n : Nat
  waiting : Bool
deriving DecidableEq, Repr

/-- A team's life (R21, R133, R165, R295). -/
inductive TeamSt where
  | placed
  | saved
  | ended
  | freed
deriving DecidableEq, Repr

/-- A team (R19): its place, its register pool and blocked grows (R34, R35), local window (R128), tile table (R129),
barrier generation and the clocks of the arrivals (R275); `group` is the Reckoner with whose cluster it is saved (R133). -/
structure Team where
  st : TeamSt
  grid : Nat
  idx : Nat
  slice : Nat
  core : Nat
  warps : List Nat
  pool : Nat
  grows : List Grow
  win : Nat
  mem : Tab Byte
  tiles : Tab TileEnt
  barGen : Nat
  barVC : VC
  group : Option Nat
deriving DecidableEq, Repr

/-- No team. -/
def Team.init : Team :=
  { st := .freed, grid := 0, idx := 0, slice := 0, core := 0, warps := [], pool := 0, grows := [], win := 0, mem := [],
    tiles := [], barGen := 0, barVC := [], group := none }

/-- What an engine command does (R176). -/
inductive CmdOp where
  | cpyin | cpyout | cpygg | gather | scatter | coll | sealb | sealu | sealf | ckpt
deriving DecidableEq, Repr

/-- Where a command stands: in its chain, started, failing with this TADDR, held for a firewall violation at this address and
physical address, or held for one that its completion add makes (R140 to R142, R158, R306). -/
inductive CmdSt where
  | queued
  | running
  | failing (taddr : DWord)
  | held (taddr : DWord) (pa : Nat)
  | addHeld (pa : Nat)
deriving DecidableEq, Repr

/-- An engine command with what it captured at issue (R140, R182): issuer, chain's team, class, tile, base pairs, the s
value, CCNT, the clock its release covers, and the clock its own accesses start from. `recb` is its record as read at the
start (R141), for a SEALF the record once signed; `marked` lists the pages a checkpoint save has still to copy and `copies` what it
has copied (R194), what a restore writes once its step is chosen (R333), or a collective's SEND once it has been sent, with `msgs` the
messages that have come for it in order of arrival (R189); `done` are the operations of its plan that it has already performed (R183), and for
class 3, a matrix instruction whose completion add the firewall holds, its core. -/
structure Cmd where
  id : Nat
  u : Nat
  team : Nat
  cls : Nat
  op : CmdOp
  tile : Option Nat
  bp : DWord
  bp2 : DWord
  sval : Word
  ccnt : DWord
  rel : VC
  start : VC
  recb : List Byte
  st : CmdSt
  grid : Nat
  marked : List Nat
  copies : List (Nat × List Byte)
  msgs : List Msg
  done : List Nat
deriving DecidableEq, Repr

/-! ### Cores and the matrix path -/

/-- An overlay slot: the VA of its image, and the image's words (R161). -/
structure Ovl where
  tag : Option Nat
  code : List Word
deriving DecidableEq, Repr

/-- An empty slot. -/
def Ovl.init : Ovl := { tag := none, code := [] }

/-- What a matrix instruction does on its core (R197 to R199). -/
inductive MatKind where
  | mma
  | mmas
  | mscale
  | mzero
deriving DecidableEq, Repr

/-- A matrix instruction issued and not completed (R122, R195): the A rows as read (word i of row r at 8r + i), the A
scale bytes by row, MSCALE's factors by row, where its B tile lies, the format slots, the captured CCNT and the clock its
release covers. `grp` ties the cells of one MMAG together, whose add is made with the last, and `cores` are all the cores it acts
on (R201). -/
structure MatOp where
  id : Nat
  u : Nat
  kind : MatKind
  acc : Bool
  z : Bool
  bTeam : Nat
  tile : Nat
  a : Tab Word
  sa : Tab Word
  factor : Tab Word
  slotA : Word
  slotB : Word
  ccnt : DWord
  rel : VC
  start : VC
  grp : Nat
  cores : List Nat
  started : Bool
deriving DecidableEq, Repr

/-- The held A operand (R137): the octet's words by row, and bytes 0 and 1 of the scale register by row. -/
structure Hold where
  a : Tab Word
  sb : Tab Word
deriving DecidableEq, Repr

/-- A SIMT core (R21): overlay slots, accumulators (element (n, row, col) at 24576n + 192row + col, R138), hold latch,
feeder binding (the launch's team and first warp, R136), matrix queue, and per issue slot the current warp and the
warp that last left (R25). -/
structure Core where
  ov0 : Ovl
  ov1 : Ovl
  acc : Tab Word
  hold : Option Hold
  bind : Option (Nat × Nat)
  mq : List MatOp
  cur : Tab Nat
  left : Tab Nat
deriving DecidableEq, Repr

/-- A core that holds nothing. -/
def Core.init : Core :=
  { ov0 := Ovl.init, ov1 := Ovl.init, acc := [], hold := none, bind := none, mq := [], cur := [], left := [] }

/-- A warp, or a Reckoner thread, which is a unit of one thread (R20, R36). `core` is CORE, `cw` the core-wide warp
number, `k` WARP. `gone` is why it ended, as a void reason (R190). `wdAt` is CLK at its
withdrawal (R297), `kept` what its core or, for a Reckoner, its cluster held when it was saved (R133, R295), and `mdone` the
clocks of a Reckoner's completed matrix adds by core (R201). -/
structure Warp where
  live : Bool
  reck : Bool
  grid : Nat
  team : Nat
  part : Nat
  slice : Nat
  core : Nat
  k : Nat
  cw : Nat
  quota : Nat
  u : Uni
  th : Tab Thread
  sched : Sched
  held : List Held
  sealCtx : Option Seal
  sysc : Option Sysc
  ovw : Option OvWait
  halted : Bool
  frozen : Option Frozen
  wd : Withdraw
  seq : Nat
  gone : Nat
  wdAt : DWord
  kept : List Core
  mdone : Tab VC
deriving DecidableEq, Repr

/-- No unit. -/
def Warp.init : Warp :=
  { live := false, reck := false, grid := 0, team := 0, part := 0, slice := 0, core := 0, k := 0, cw := 0, quota := 0,
    u := Uni.init, th := [], sched := { base := 0, eff := 0, age := 0, hold := 0, yielded := false, trapped := false }, held := [],
    sealCtx := none, sysc := none, ovw := none, halted := false, frozen := none, wd := .no, seq := 0, gone := 0, wdAt := 0#64, kept := [], mdone := [] }

/-! ### Slices, partitions, root of trust -/

/-- A slice's state in the journal (R311). -/
inductive SliceSt where
  | free
  | owned
  | scrubbing
  | tainted
deriving DecidableEq, Repr

/-- A bind record (R318), whose CONTEXT is the physical address of the context's descriptor (R215). -/
structure Bind where
  op : Nat
  prio : Nat
  qcls : Nat
  v : Bool
  grid : Nat
  cores : DWord
  team0 : Nat
  nteam : Nat
  record : DWord
  context : DWord
deriving DecidableEq, Repr

/-- A record that LAUNCH queued (R173): the copy, its depth, priority, parent grid and the clock of its release. -/
structure Child where
  recb : List Byte
  depth : Nat
  prio : Nat
  parent : Nat
  vc : VC
deriving DecidableEq, Repr

/-- A translation a slice holds (R214): context, 64 KiB page number, the leaf entry as it maps that page, whether it came from a
512 MiB leaf, and the key of the entry's bytes. -/
structure TlbEnt where
  asid : Nat
  page : Nat
  leaf : DWord
  big : Bool
  ent : Nat
deriving DecidableEq, Repr

/-- A message that a member has sent to an endpoint (R189): the address and the counter at the peer (0 for none), how many bytes it
asks for, and the bytes it brings. -/
structure Sent where
  endpoint : Nat
  addr : Nat
  ctr : Nat
  asks : Nat
  bytes : List Byte
deriving DecidableEq, Repr

/-- One slice: journal state, owner, CLK, and its register block (R305). `srWait` is the SRDY value a reset waits to see
again (R308), and `upAt` CLK at power-on or at the last reset (R307). `portFrozen`, `portDrops` and `portOut` are the port's: its
freeze, with the address that froze it, the packets it dropped (R306), and the bytes its last remote read answered; `portSent` is what
its members have sent to other endpoints (R189). `relPend` is a RELALL that a Stall freeze holds back (R298). -/
structure Slice where
  st : SliceSt
  chunk : Nat
  part : Option Nat
  clk : DWord
  srdy : Word
  srWait : Word
  srBusy : Bool
  fwviol : DWord
  vcnt : Nat
  irqroute : Word
  mevstat : Word
  mevcnt : DWord
  mevaddr : DWord
  actctl : Word
  actaddr : DWord
  childQ : List Child
  binds : Tab Bind
  tlb : List TlbEnt
  placing : Bool
  portFrozen : Bool
  portPa : Nat
  portDrops : Nat
  portOut : List Byte
  portSent : List Sent
  upAt : DWord
  relPend : Bool
deriving DecidableEq, Repr

/-- A slice after power-on: scrubbed and unowned, nothing ready (R307, R311). -/
def Slice.init : Slice :=
  { st := .free, chunk := 0, part := none, clk := 0#64, srdy := 0#32, srWait := 0#32, srBusy := false, fwviol := 0#64,
    vcnt := 0, irqroute := 0x80000000#32, mevstat := 0#32, mevcnt := 0#64, mevaddr := 0#64, actctl := 0x01E3C78F#32,
    actaddr := 0#64, childQ := [], binds := [], tlb := [], placing := true, portFrozen := false,
    portPa := 0, portDrops := 0, portOut := [], portSent := [], upAt := 0#64, relPend := false }

/-- A reply of a stack controller (R342): tag, STATUS, data. -/
structure Reply where
  tag : BitVec 10
  status : Nat
  data : List Byte
deriving DecidableEq, Repr

/-- A stack controller: activation counts by (pch, bank, row) (R335), the count of every row of a 64 MiB chunk that has no count of
its own, by chunk, which scrubs add to (R311, R350), the open row of each (pch, bank) with the uniform requests for it that
may not have completed, each as its unit and the s registers that await it, and the step in which one of its other requests last
completed (R335), the rows whose
counts have reached the threshold and await management, with the step at which they did (by the row's key), the requests that came to such a bank in that very step, which back off as they
activate a row (R339), each with its address and activation class, the blocked banks with CLK at the block's start, CLK at the
start of the refresh window (R336), the packets that backed off in order of arrival
(R339), and the replies given. -/
structure Stack where
  counts : Tab Nat
  base : Tab Nat
  openRow : Tab Nat
  asked : Tab (List (Nat × List Nat))
  doneAt : Tab Nat
  due : Tab Nat
  late : List (Nat × Nat)
  blocked : Tab DWord
  win : DWord
  held : List (Nat × Packet)
  replies : List Reply
deriving DecidableEq, Repr

/-- A stack with no row open and nothing counted. -/
def Stack.init : Stack := { counts := [], base := [], openRow := [], asked := [], doneAt := [], due := [], late := [], blocked := [], win := 0#64, held := [], replies := [] }

/-- A counter of a context's pool that CNEW has handed out, with its scope (R271). -/
structure Ctr where
  va : Nat
  scope : BitVec 2
deriving DecidableEq, Repr

/-- A device context as its descriptor gives it (R215), with the allocation state of both pools, which the slot
controller keeps outside them; `bound` says that a grid of it has been bound. -/
structure Ctx where
  asid : Nat
  desc : Nat
  hbase : Nat
  hlimit : Nat
  hoff : Nat
  ptbase : Nat
  cpbase : Nat
  cpsize : Nat
  dpbase : Nat
  dpsize : Nat
  save : Nat
  savesz : Nat
  ctrs : List Ctr
  blocks : List (Nat × Nat)
  bound : Bool
deriving DecidableEq, Repr

/-- No context: no heap window and no tables. -/
def Ctx.init : Ctx :=
  { asid := 0, desc := 0, hbase := 0, hlimit := 0, hoff := 0, ptbase := 0, cpbase := 0, cpsize := 0, dpbase := 0,
    dpsize := 0, save := 0, savesz := 0, ctrs := [], blocks := [], bound := false }

/-- A user-mode queue the slot controller watches (R312, R324). -/
structure Queue where
  qid : Nat
  asid : Nat
  ring : Nat
  logsz : Nat
  primax : Nat
  tail : Nat
  head : Nat
  n : Nat
deriving DecidableEq, Repr

/-- The kernel's event ring (R324). -/
structure EvRing where
  addr : Nat
  logsz : Nat
  prod : Nat
deriving DecidableEq, Repr

/-- What raised an interrupt (R279, R306). -/
inductive Irq where
  | mem (slice : Nat)
  | firewall (slice : Nat)
  | resetEnd (slice : Nat)
  | slotCtl
  | stall
deriving DecidableEq, Repr

/-- An interrupt delivered to a host core (R306): what raised it, and the slice and hart that the route names. -/
structure IrqAt where
  what : Irq
  slice : Nat
  hart : Nat
deriving DecidableEq, Repr

/-- A PGREQ whose range is not yet resident (R267), with its counter; a range that PGADV.will named has none (R268). -/
structure PgReq where
  id : Nat
  asid : Nat
  va : Nat
  len : Nat
  ctr : Option Nat
  grid : Nat
deriving DecidableEq, Repr

/-- Advice PGADV gave the kernel (R268). -/
structure Advice where
  asid : Nat
  va : Nat
  len : Nat
  kind : Nat
deriving DecidableEq, Repr

/-- The SPDM responder of a partition (R329): how far the sequence has come, the transcript with its running SHA-384 hash (0
while it is empty), and the last reply. -/
structure Spdm where
  phase : Nat
  transcript : List Byte
  hash : BitVec 384
  reply : List Byte
deriving DecidableEq, Repr

/-- A resize under way (R310): the rectangle it goes to, and the slices still to be handled. -/
structure Resize where
  add : Bool
  x0 : Nat
  x1 : Nat
  y0 : Nat
  y1 : Nat
  todo : List Nat
deriving DecidableEq, Repr

/-- A responder with an empty transcript. -/
def Spdm.init : Spdm := { phase := 0, transcript := [], hash := 0#384, reply := [] }

/-- A partition (R302): rectangle, world, the registers that act for the whole of it, its slot controller's state, its
contexts, its serial token, progress monitor (`pmAt` is CLK of its corner slice at the start of the window, R299), measurements and SPDM
responder. `fails` are the functions, slice and SRDY bit, whose failed bring-up was reported when their slice was fused (R307),
`nextGrid` the number of its next grid, `bootFail` a kernel image whose check failed (R309), and `colls` the collectives that its members have started, by context,
communicator and command (R189). -/
structure Part where
  live : Bool
  x0 : Nat
  x1 : Nat
  y0 : Nat
  y1 : Nat
  world : Bool
  slices : List Nat
  ranges : List RangeWords
  pmctl : Word
  pmstat : Word
  pmbuf : DWord
  stalled : Bool
  activity : Bool
  pmAt : DWord
  sccmd : DWord
  scstat : Word
  sccons : DWord
  tlbinv : DWord
  queues : List Queue
  ring : Option EvRing
  prod : Nat
  events : List (List Byte)
  irqs : List IrqAt
  ctxs : List Ctx
  token : Option (Nat × Nat)
  tokenQ : List (Nat × Nat)
  pgreqs : List PgReq
  advice : List Advice
  meas : Tab (BitVec 384)
  spdm : Spdm
  resize : Option Resize
  kernelUp : Bool
  bootFail : Bool
  fails : List (Nat × Nat)
  colls : List (Nat × Nat × Nat)
  nextGrid : Nat
deriving DecidableEq, Repr

/-- No partition; the values its registers take when it is fused (R300, R324, R330). -/
def Part.init : Part :=
  { live := false, x0 := 0, x1 := 0, y0 := 0, y1 := 0, world := false, slices := [], ranges := [],
    pmctl := 0x800186A0#32, pmstat := 0#32, pmbuf := 0#64, stalled := false, activity := false, pmAt := 0#64, sccmd := 0#64,
    scstat := 0#32, sccons := 0#64, tlbinv := 0#64, queues := [], ring := none, prod := 0, events := [], irqs := [],
    ctxs := [], token := none, tokenQ := [], pgreqs := [], advice := [], meas := [],
    spdm := Spdm.init, resize := none, kernelUp := false, bootFail := false, fails := [], colls := [], nextGrid := 1 }

/-- Where a grid stands (R313 to R320, R40). -/
inductive GridSt where
  | none
  | accepted
  | eligible
  | retired
deriving DecidableEq, Repr

/-- A grid: its number among its partition's grids (R156, log 136), the copy of its launch record (R314), its place in the order of acceptance, the teams already placed and
ended, the clock its start acquires (R313), its units, whether a debugger is attached (R293), and the corner's CLK at the
start of its time slice (R322). `ranges` is its range list as checked (R316); `holes` are runs of teams, first index and count,
whose bind record a slice reset cleared before they were placed. -/
structure Grid where
  st : GridSt
  part : Nat
  num : Nat
  asid : Nat
  qid : Nat
  ix : Nat
  parent : Option Nat
  depth : Nat
  prio : Nat
  recb : List Byte
  order : Nat
  placed : Nat
  ended : Nat
  vc : VC
  agents : List Nat
  debug : Bool
  since : DWord
  ranges : List (Nat × Nat)
  holes : List (Nat × Nat)
deriving DecidableEq, Repr

/-- No grid. -/
def Grid.init : Grid :=
  { st := .none, part := 0, num := 0, asid := 0, qid := 0, ix := 0, parent := none, depth := 0, prio := 0, recb := [], order := 0,
    placed := 0, ended := 0, vc := [], agents := [], debug := false, since := 0#64, ranges := [], holes := [] }

/-- A key of the root of trust (R325): handle, the partition it was issued to, sequence number, algorithm, and whether it is
destroyed. -/
structure Key where
  handle : Word
  part : Nat
  seq : DWord
  alg : Nat
  dead : Bool
deriving DecidableEq, Repr

/-- A security association at a port (R326, R327), with a key slot for each direction. -/
structure Assoc where
  key : Nat
  salt : Word
  rxKey : Nat
  rxSalt : Word
  tx : DWord
  rxHigh : DWord
  seen : List DWord
  fails : Nat
  drops : Nat
  barred : Bool
  needRekey : Bool
  sent : List (DWord × List Byte)
  delivered : List (List Byte)
deriving DecidableEq, Repr

/-- A shard in the checkpoint store (R332): its descriptor, with the SHA-384 of its bytes, and the bytes; `twin` is the replica whose
shard a reference stands for. -/
structure Shard where
  store : Word
  tensor : DWord
  step : DWord
  replica : Word
  ndim : Nat
  esz : Nat
  ranges : List (Nat × Nat)
  sha : BitVec 384
  twin : Option Word
  bytes : List Byte
deriving DecidableEq, Repr

/-- The root of trust and what lies behind the ports: keys, standby, associations by 2^24 × slice + the INDEX of the handle that
selects them, flash bytes, checkpoint store, and the functions whose bring-up has failed (R307, R325 to R333). -/
structure Rot where
  keys : List Key
  standby : Bool
  assocs : Tab Assoc
  flash : Tab Byte
  flashOut : List Byte
  shards : List Shard
  fails : List (Nat × Nat)
deriving DecidableEq, Repr

/-- What a host hart has been answered (R227): the bytes of its last load or AMO, an access fault, a page fault, a halt; and whether
the firewall holds it, with the address that froze it (R306). -/
structure Hart where
  reply : List Byte
  fault : Bool
  pageFault : Bool
  halted : Bool
  frozen : Bool
  frozenPa : Nat
deriving DecidableEq, Repr

/-- A hart before it has made an access. -/
def Hart.init : Hart :=
  { reply := [], fault := false, pageFault := false, halted := true, frozen := false, frozenPa := 0 }

/-! ### The whole device -/

/-- The word being issued, which the fetch hands to the meanings (the model's own): the unit, the members of its issue
group as a lane mask, the word's offset and overlay slot, and the instruction's length in words. `replay` is the queue
entry that TRET re-issues (R291), if this is one; `tick` numbers the step. `done` is set when the word has issued; a group that lacks something
does not issue (R23) and leaves it clear. -/
structure Cur where
  active : Bool
  u : Nat
  members : Word
  pc : Word
  slot : Nat
  len : Nat
  replay : Option Entry
  tick : Nat
  done : Bool
deriving DecidableEq, Repr

/-- Nothing is being issued. -/
def Cur.init : Cur :=
  { active := false, u := 0, members := 0#32, pc := 0#32, slot := 0, len := 1, replay := none, tick := 0, done := false }

/-- What moves next (the model's own): a step of another agent, the issue slot of a core, a Reckoner, or the next
replay-queue entry of a thread. -/
inductive Choice where
  | ev (i : Instr)
  | issue (slice core slot : Nat)
  | reck (slice cluster : Nat)
  | replay (u lane : Nat)
deriving DecidableEq, Repr

/-- The state of the N24. `mem` is the content of the 48 stacks: byte L of stack k of slice s is at
(2s + k) × 2^36 + L (R334, R344). `poison` holds, for each poisoned line, the mask of bytes written since (R283);
`ecc` the bad symbols of a half line (R349), `resv` what the harts' LRs have reserved: hart, key and length (R227). `cores` is keyed 64 × slice + CORE, `rovl` 16 × slice + cluster. -/
structure State where
  mem : List Host.Cell
  poison : Tab (BitVec 128)
  ecc : Tab Nat
  packed : Tab Bool
  stackTab : Tab Stack
  slices : Tab Slice
  parts : Tab Part
  cores : Tab Core
  rovl : Tab Ovl
  units : Tab Warp
  teams : Tab Team
  grids : Tab Grid
  cmds : List Cmd
  order : Order
  rot : Rot
  harts : Tab Hart
  resv : List (Nat × Nat × Nat)
  powered : Bool
  nextId : Nat
  cur : Cur
  agenda : List Choice
  tick : Nat
deriving DecidableEq, Repr

/-- The device right after power-on reset: power is up, no function is ready, every slice is FREE and scrubbed, no
partition is fused, nothing runs (R307, R311). -/
def State.reset : State :=
  { mem := [], poison := [], ecc := [], packed := [], stackTab := [],
    slices := (List.range 24).map fun i => (i, Slice.init), parts := [], cores := [], rovl := [],
    units := [], teams := [], grids := [], cmds := [], order := { agents := [], accs := [], rels := [] },
    rot := { keys := [], standby := false, assocs := [], flash := [], flashOut := [], shards := [], fails := [] }, harts := [], resv := [],
    powered := true, nextId := 1, cur := Cur.init, agenda := [], tick := 0 }

end Sys2Proof.Machine
end

