-- ==== Sys2Proof/Machine/Order.lean ====
section
/-!
DEFINITION. Ordering and race detection (R228 to R239): vector clocks over agents, the releases an acquire synchronises
with, and the test that finds the second access of a race.
-/

namespace Sys2Proof.Machine

/-- How many regions of `a` a clock holds. -/
def VC.get : VC → Agent → Nat
  | [], _ => 0
  | (b, n) :: r, a => if b = a then n else VC.get r a

/-- Raises the entry of `a` to at least `n`. -/
def VC.raise : VC → Agent → Nat → VC
  | [], a, n => if n = 0 then [] else [(a, n)]
  | (b, m) :: r, a, n => if b = a then (b, Nat.max m n) :: r else (b, m) :: VC.raise r a n

/-- The join of two clocks. -/
def VC.join (v w : VC) : VC := w.foldl (fun acc p => VC.raise acc p.1 p.2) v

/-- The ordering state of an agent. -/
def Order.agentOf (o : Order) (a : Agent) : AgentOrd :=
  match o.agents.find? (fun p => p.1 == a) with
  | some p => p.2
  | none => AgentOrd.init

/-- Replaces the ordering state of an agent. -/
def Order.setAgent (o : Order) (a : Agent) (x : AgentOrd) : Order :=
  { o with agents := (a, x) :: o.agents.filter fun p => !(p.1 == a) }

/-- The clock of an agent. -/
def Order.clock (o : Order) (a : Agent) : VC := (o.agentOf a).vc

/-- Joins a clock into an agent's: everything the clock covers is ordered before the agent's later accesses. -/
def Order.acquireVC (o : Order) (a : Agent) (v : VC) : Order :=
  let x := o.agentOf a
  o.setAgent a { x with vc := VC.join x.vc v }

/-- An acquire by a counter, TSTATE or MWAIT: it orders the agent's later engine commands too (R238). -/
def Order.acquirePath (o : Order) (a : Agent) (v : VC) : Order :=
  let x := o.agentOf a
  o.setAgent a { x with vc := VC.join x.vc v, paths := VC.join x.paths v }

/-- Ends the agent's region and gives the clock that covers it: its accesses so far are within the clock (R230). -/
def Order.endRegion (o : Order) (a : Agent) : Order × VC :=
  let x := o.agentOf a
  let v := VC.raise x.vc a (VC.get x.vc a + 1)
  (o.setAgent a { x with vc := v }, v)

/-- Where an agent stands: partition, slice, and team (R229); a Reckoner is in no team. -/
def agentPlace (s : State) : Agent → Nat × Nat × Option Nat
  | .unit u =>
    let w := Tab.get Warp.init s.units u
    (w.part, w.slice, if w.reck then none else some w.team)
  | .engine u _ _ =>
    let w := Tab.get Warp.init s.units u
    (w.part, w.slice, if w.reck then none else some w.team)
  | .hart sl _ => (((Tab.get Slice.init s.slices sl).part).getD 0, sl, none)
  | .port sl => (((Tab.get Slice.init s.slices sl).part).getD 0, sl, none)
  | .slotCtl p => (p, p, none)

/-- The unit an agent is or serves. -/
def Agent.unitOf : Agent → Option Nat
  | .unit u => some u
  | .engine u _ _ => some u
  | .hart _ _ | .port _ | .slotCtl _ => none

/-- Whether the instance of a scope at agent `a` contains agent `b` (R229). A Reckoner is in no team's instance; at team scope it meets
the engine agents that serve it, and those one another. DESIGN CHOICE, log 134. -/
def scopeHas (s : State) (scope : BitVec 2) (a b : Agent) : Bool :=
  let pa := agentPlace s a
  let pb := agentPlace s b
  if a == b then true
  else if scope == 0#2 then
    (match pa.2.2, pb.2.2 with
     | some t, some t' => t == t'
     | _, _ => a.unitOf.isSome && a.unitOf == b.unitOf)
  else if scope == 1#2 then pa.1 == pb.1 && pa.2.1 == pb.2.1
  else pa.1 == pb.1

/-- Whether two scopes at two agents each contain both (R231, R234). -/
def scopesMeet (s : State) (sc : BitVec 2) (a : Agent) (sc' : BitVec 2) (b : Agent) : Bool :=
  scopeHas s sc a b && scopeHas s sc' b a

/-- Whether two accesses come from one agent (R228): an engine agent is one class serving one unit. -/
def sameAgent : Agent → Agent → Bool
  | .engine u c _, .engine u' c' _ => u == u' && c == c'
  | a, b => a == b

/-- Whether an agent is a gather engine, whose atomic adds race with those of another command whatever their scope (R187). -/
def scatters : Agent → Bool
  | .engine _ c _ => c == 2
  | .unit _ | .hart _ _ | .port _ | .slotCtl _ => false

/-- Whether a recorded access and a new one conflict (R187, R234). -/
def conflicts (s : State) (x : Acc) (a : Agent) (space : Space) (lo len : Nat) (write : Bool) (atom : Option (BitVec 2)) : Bool :=
  !(sameAgent x.agent a) && x.space == space && decide (x.lo < lo + len) && decide (lo < x.lo + x.len) &&
  (write || x.write) &&
  (match x.atom, atom with
   | some sc, some sc' => (scatters x.agent && scatters a) || !(scopesMeet s sc x.agent sc' a)
   | _, _ => true)

/-- The other agent of the race that a new access, whose agent's clock is `v`, would complete (R234, R235). -/
def raceOf (s : State) (a : Agent) (v : VC) (space : Space) (lo len : Nat) (write : Bool) (atom : Option (BitVec 2)) :
    Option Agent :=
  (s.order.accs.find? fun x =>
    conflicts s x a space lo len write atom && decide (VC.get v x.agent < x.epoch)).map (·.agent)

/-- The clock of a new access of an agent: an engine command's accesses are its epoch 1. -/
def accEpoch (s : State) (a : Agent) : Nat :=
  match a with
  | .engine _ _ _ => 1
  | .unit _ | .hart _ _ | .port _ | .slotCtl _ => VC.get (s.order.clock a) a + 1

/-- Puts an entry in front of a list that does not hold it. -/
def addNew {α : Type} [DecidableEq α] (x : α) (l : List α) : List α := if l.contains x then l else x :: l

/-- Records a performed access, in place of the same agent's earlier ones of the same kind there: what is ordered after it is
ordered after them. -/
def noteAccess (s : State) (a : Agent) (space : Space) (lo len : Nat) (write : Bool) (atom : Option (BitVec 2)) : State :=
  let x : Acc := { agent := a, epoch := accEpoch s a, space, lo, len, write, atom, vc := s.order.clock a }
  let same := fun (y : Acc) =>
    y.agent == a && y.space == space && y.lo == lo && y.len == len && y.write == write && y.atom == atom
  { s with order := { s.order with accs := x :: s.order.accs.filter fun y => !(same y) } }

/-- A transactional access, which is a partition-scope atomic access, is ordered after every conflicting access performed before it
(R234, R235): the agent's clock takes in each of them and what was ordered before it. -/
def orderAfter (s : State) (a : Agent) (lo len : Nat) (write : Bool) : State :=
  let v := (s.order.accs.filter fun x => conflicts s x a .glob lo len write (some 2#2)).foldl
    (fun acc x => VC.raise (VC.join acc x.vc) x.agent x.epoch) []
  { s with order := s.order.acquireVC a v }

/-- Whether a release is of one of some bytes; a counter has eight. -/
def Rel.within (r : Rel) (loc len : Nat) : Bool := decide (loc ≤ r.loc) && decide (r.loc < loc + len)

/-- The clock of the releases that an acquire reads from at some bytes, at a scope (R231). -/
def relClock (s : State) (a : Agent) (scope : BitVec 2) (loc : Nat) (len : Nat := 8) : VC :=
  (s.order.rels.filter fun r => r.within loc len && scopesMeet s r.scope r.agent scope a).foldl
    (fun acc r => VC.join acc r.vc) []

/-- Acquires, at a scope, every release that the value read at some bytes carries (R231). -/
def acquireAt (s : State) (a : Agent) (scope : BitVec 2) (loc : Nat) (len : Nat := 8) : State :=
  { s with order := (s.order.acquireVC a (relClock s a scope loc len)).endRegion a |>.1 }

/-- Acquires what a counter's value carries, for the agent's engine commands too (R231, R238). -/
def acquireCtr (s : State) (a : Agent) (scope : BitVec 2) (loc : Nat) : State :=
  { s with order := (s.order.acquirePath a (relClock s a scope loc)).endRegion a |>.1 }

/-- Remembers the releases that a relaxed atomic has read from, for a later FENCE (R231). -/
def seeAt (s : State) (a : Agent) (loc : Nat) (len : Nat := 8) : State :=
  let x := s.order.agentOf a
  { s with order := s.order.setAgent a { x with seen := (s.order.rels.filter fun r => r.within loc len).foldr addNew x.seen } }

/-- Remembers the releases that a relaxed read of a counter page has read from, for a later FENCE (R231). -/
def seeCtr (s : State) (a : Agent) (loc : Nat) (len : Nat := 8) : State :=
  let x := s.order.agentOf a
  { s with order := s.order.setAgent a { x with seenCtr := (s.order.rels.filter fun r => r.within loc len).foldr addNew x.seenCtr } }

/-- Publishes a release with the clock `v` at some bytes (R231). -/
def publish (s : State) (a : Agent) (scope : BitVec 2) (loc len : Nat) (v : VC) : State :=
  let rels := (List.range len).foldr (fun i l => addNew ({ loc := loc + i, agent := a, scope, vc := v } : Rel) l) s.order.rels
  { s with order := { s.order with rels } }

/-- A release at some bytes: ends the region and publishes its clock (R230, R231). -/
def releaseAt (s : State) (a : Agent) (scope : BitVec 2) (loc : Nat) (len : Nat := 8) : State :=
  let (o, v) := s.order.endRegion a
  publish { s with order := o } a scope loc len v

/-- A relaxed atomic, reduction or CADD: a release for each FENCE before it (R231). -/
def relaxedAt (s : State) (a : Agent) (loc : Nat) (len : Nat := 8) : State :=
  (s.order.agentOf a).fences.foldl (fun s f => publish s a f.1 loc len f.2) s

/-- The value at these bytes is written by a plain store: earlier releases there are no longer read from (R231, log 106). -/
def overwriteAt (s : State) (lo len : Nat) : State :=
  { s with order := { s.order with rels := s.order.rels.filter fun r => !(r.within lo len) } }

/-- FENCE at a scope: a release for the relaxed atomics after it, an acquire of those before it (R231, R276). -/
def fenceOrder (s : State) (a : Agent) (scope : BitVec 2) : State :=
  let x := s.order.agentOf a
  let got := fun (rs : List Rel) => (rs.filter fun r => scopesMeet s r.scope r.agent scope a).foldl (fun acc r => VC.join acc r.vc) []
  let o := (s.order.acquireVC a (got x.seen)).acquirePath a (got x.seenCtr)
  let (o, v) := o.endRegion a
  let x := o.agentOf a
  { s with order := o.setAgent a { x with fences := (scope, v) :: x.fences.filter fun f => !(f.1 == scope) } }

/-- The clock an engine command's own accesses start from: what the issuer has acquired by a counter, TSTATE or MWAIT, and what a
FENCEX has ordered before this class (R238). DEDUCED, log 14. -/
def engineStart (s : State) (u cls : Nat) : VC :=
  let x := s.order.agentOf (.unit u)
  (x.fencex.filter fun p => p.1 == cls).foldl (fun acc p => VC.join acc p.2) x.paths

/-- FENCEX: the issuer's accesses of class `c1` are ordered before its later ones of `c2` (R238); its own, with what they are ordered
after, for class 0. `done` is the clock of the accesses of an engine class. -/
def fencexOrder (s : State) (u c1 c2 : Nat) (done : VC) : State :=
  let (o, v) := s.order.endRegion (.unit u)
  let v := if c1 = 0 then v else done
  let x := o.agentOf (.unit u)
  { s with order := o.setAgent (.unit u) (if c2 = 0 then { x with vc := VC.join x.vc v } else { x with fencex := (c2, v) :: x.fencex }) }

/-- Drops the accesses of a retired grid's units, and those that came before them by the units' clock `v`: they are ordered before
everything that follows (R232). -/
def retireOrder (s : State) (us : List Nat) (v : VC) : State :=
  let keep := fun (x : Acc) => decide (VC.get v x.agent < x.epoch) && (match x.agent.unitOf with
    | some u => !(us.contains u)
    | none => true)
  { s with order := { s.order with accs := s.order.accs.filter keep } }

end Sys2Proof.Machine
end

