-- ==== Sys2Proof/Machine/Memory.lean ====
section
/-!
DEFINITION. Main memory and the way to it: bytes and lines, correction and poisoning (R282, R283, R349), row activations
(R335 to R338), the address-range table (R344), page tables (R208 to R216), the checks of R217, and each access performed
as one event with its race detection (R234, R235). Byte order is decided here alone (R6).
-/

namespace Sys2Proof.Machine

/-! ### Bytes -/

/-- The value of bytes, the first the least significant (R6). -/
def leNat : List Byte → Nat
  | [] => 0
  | b :: r => b.toNat + 256 * leNat r

/-- The low `n` bytes of a value, the least significant first (R6). -/
def leBytes : Nat → Nat → List Byte
  | 0, _ => []
  | n + 1, v => BitVec.ofNat 8 v :: leBytes n (v / 256)

/-- A little-endian word. -/
def leWord (bs : List Byte) : Word := BitVec.ofNat 32 (leNat bs)

/-- The field of `n` bytes at offset `o` of a record. -/
def fieldAt (bs : List Byte) (o n : Nat) : Nat := leNat ((bs.drop o).take n)

/-- Whether the bytes from `o` to `o + n` of a record are zero. -/
def zeroAt (bs : List Byte) (o n : Nat) : Bool := ((bs.drop o).take n).all (· == 0#8)

/-! ### Parts of the state -/

/-- A unit. -/
def State.unit (s : State) (u : Nat) : Warp := Tab.get Warp.init s.units u
/-- Replaces a unit. -/
def State.setUnit (s : State) (u : Nat) (w : Warp) : State := { s with units := Tab.put s.units u w }
/-- A slice. -/
def State.slice (s : State) (i : Nat) : Slice := Tab.get Slice.init s.slices i
/-- Changes a slice. -/
def State.modSlice (s : State) (i : Nat) (f : Slice → Slice) : State :=
  { s with slices := Tab.mod Slice.init s.slices i f }
/-- A partition, by its number (R302). -/
def State.part (s : State) (i : Nat) : Part := Tab.get Part.init s.parts i
/-- Changes a partition. -/
def State.modPart (s : State) (i : Nat) (f : Part → Part) : State := { s with parts := Tab.mod Part.init s.parts i f }
/-- A team. -/
def State.team (s : State) (i : Nat) : Team := Tab.get Team.init s.teams i
/-- Changes a team. -/
def State.modTeam (s : State) (i : Nat) (f : Team → Team) : State := { s with teams := Tab.mod Team.init s.teams i f }
/-- A grid. -/
def State.grid (s : State) (i : Nat) : Grid := Tab.get Grid.init s.grids i
/-- Changes a grid. -/
def State.modGrid (s : State) (i : Nat) (f : Grid → Grid) : State := { s with grids := Tab.mod Grid.init s.grids i f }
/-- A core, by 64 × slice + CORE. -/
def State.core (s : State) (k : Nat) : Core := Tab.get Core.init s.cores k
/-- Changes a core. -/
def State.modCore (s : State) (k : Nat) (f : Core → Core) : State := { s with cores := Tab.mod Core.init s.cores k f }
/-- A stack, by 2 × slice + stack. -/
def State.stack (s : State) (k : Nat) : Stack := Tab.get Stack.init s.stackTab k
/-- Changes a stack. -/
def State.modStack (s : State) (k : Nat) (f : Stack → Stack) : State := { s with stackTab := Tab.mod Stack.init s.stackTab k f }

/-- A context of a partition, by ASID (R215). -/
def Part.ctx (p : Part) (asid : Nat) : Ctx := (p.ctxs.find? fun c => c.asid == asid).getD Ctx.init

/-- The corner slice of a partition, where its slot controller lies (R302, R306); its id is the partition's number. -/
def Part.corner (p : Part) : Nat := 6 * p.y0 + p.x0

/-- Changes a context of a partition. -/
def State.modCtx (s : State) (part asid : Nat) (f : Ctx → Ctx) : State :=
  s.modPart part fun p => { p with ctxs := p.ctxs.map fun c => if c.asid = asid then f c else c }

/-! ### The stacks' bytes, poison and correction -/

/-- A byte of the stacks. -/
def State.byte (s : State) (k : Nat) : Byte := Tab.get 0#8 s.mem k

/-- `n` bytes of the stacks. -/
def State.bytes (s : State) (k n : Nat) : List Byte := (List.range n).map fun i => s.byte (k + i)

/-- Whether a line is poisoned. -/
def State.poisoned (s : State) (line : Nat) : Bool := (Tab.find? s.poison line).isSome

/-- A write of one byte: on a poisoned line its mask bit is set, and the poison is cleared when the mask is full (R283). A hart's
reservation that holds the byte is lost (R227). -/
def State.writeByte (s : State) (k : Nat) (b : Byte) : State :=
  let s := { s with mem := Tab.set 0#8 s.mem k b, resv := s.resv.filter fun r => decide (k < r.2.1) || decide (r.2.1 + r.2.2 ≤ k) }
  match Tab.find? s.poison (k / 128) with
  | none => s
  | some m =>
    let m := m ||| (1#128 <<< (k % 128))
    if m = BitVec.allOnes 128 then { s with poison := Tab.del s.poison (k / 128) }
    else { s with poison := Tab.put s.poison (k / 128) m }

/-- A write of consecutive bytes. -/
def State.writeBytes (s : State) (k : Nat) : List Byte → State
  | [] => s
  | b :: r => (s.writeByte k b).writeBytes (k + 1) r

/-! ### The address-range table (R343, R344) -/

/-- Where a physical address lies: the key of its byte, and the activation class and compression of its range. -/
structure Loc where
  key : Nat
  cls : Nat
  comp : Bool
deriving DecidableEq, Repr

/-- Whether an entry is enabled and covers an address (R344). -/
def rangeCovers (r : RangeWords) (pa : Nat) : Bool :=
  !(r.size == 0#64) && decide (r.ctl.toNat % 16 ≤ 9) && !(r.stk == 0#64) && decide (r.base.toNat ≤ pa) &&
  decide (pa < r.base.toNat + r.size.toNat)

/-- The mapping of one entry (R344); none where L is in the metadata region or past the stack. -/
def rangeMap (r : RangeWords) (pa : Nat) : Option Loc :=
  let set := (List.range 48).filter fun i => r.stk.getLsbD i
  let g := 128 * 2 ^ (r.ctl.toNat % 16)
  let o := pa - r.base.toNat
  let c := o / g
  let stk := set.getD (c % set.length) 0
  let l := r.ctl.toNat / 65536 % 1048576 * 65536 + c / set.length * g + o % g
  if 0xFFC000000 ≤ l then none
  else some { key := stk * 2 ^ 36 + l, cls := r.ctl.toNat / 32 % 4, comp := r.ctl.getLsbD 7 }

/-- The physical address at which one entry would map a line of a stack. -/
def rangeUnmap (r : RangeWords) (stk l : Nat) : Nat :=
  let set := (List.range 48).filter fun i => r.stk.getLsbD i
  let g := 128 * 2 ^ (r.ctl.toNat % 16)
  let rel := l - r.ctl.toNat / 65536 % 1048576 * 65536
  let pos := (set.takeWhile fun i => !(i == stk)).length
  r.base.toNat + ((rel / g * set.length + pos) * g + rel % g)

/-- Where the register blocks begin (R305). -/
def regBase : Nat := 0x000FFF0000000000

/-- The slice whose register block an address lies in. -/
def regSlice (pa : Nat) : Option Nat :=
  if regBase ≤ pa ∧ pa < regBase + 24 * 65536 then some ((pa - regBase) / 65536) else none

/-- Whether every stack of an entry's set lies on a slice of the partition (R304). -/
def rangeWithin (r : RangeWords) (slices : List Nat) : Bool :=
  (List.range 48).all fun i => !(r.stk.getLsbD i) || slices.contains (i / 2)

/-- Where a physical address of a partition lies; none where it violates the firewall (R304, R344): the register blocks are for
host cores alone (R305). -/
def Part.locate (p : Part) (pa : Nat) : Option Loc :=
  if (regSlice pa).isSome then none
  else match p.ranges.find? fun r => rangeCovers r pa with
    | none => none
    | some r => if rangeWithin r p.slices then rangeMap r pa else none

/-! ### Poison and correction -/

/-- Adds 1 to a 16-bit count that holds at 0xFFFF, at bit `lo` of MEVCNT (R280). -/
def bumpCount (c : DWord) (lo : Nat) : DWord :=
  if (c >>> lo).toNat % 65536 = 65535 then c else c + (1#64 <<< lo)

/-- Delivers an interrupt on a slice's own route, to the hart the route names, where the route is enabled (R306). -/
def State.sliceIrq (s : State) (sl : Nat) (i : Irq) : State :=
  let x := s.slice sl
  match x.part with
  | some p =>
    if x.irqroute.getLsbD 31 then
      s.modPart p fun q =>
        { q with irqs := q.irqs ++ [{ what := i, slice := x.irqroute.toNat / 8 % 32, hart := x.irqroute.toNat % 8 }] }
    else s
  | none => s

/-- The place to which a range table maps an address: the lowest-numbered entry that covers it maps it (R344). -/
def mapIn (ranges : List RangeWords) (pa : Nat) : Option Loc := (ranges.find? fun r => rangeCovers r pa).bind fun r => rangeMap r pa

/-- The physical address of a stack byte in the partition that owns it, for MEVADDR (R281): one that the table maps to it (R344). -/
def unmapLine (ranges : List RangeWords) (stk l : Nat) : Nat :=
  ((ranges.map fun r => rangeUnmap r stk l).find? fun pa => (mapIn ranges pa).any fun x => x.key == stk * 2 ^ 36 + l).getD 0

/-- The event that poisons a sound line (R282): UE, UECNT, MEVADDR at the line's slice, and the interrupt when UE rises
(R279). -/
def State.poisonLine (s : State) (line : Nat) : State :=
  let stk := line / 2 ^ 29
  let sl := stk / 2
  let x := s.slice sl
  let pa := unmapLine (s.part (x.part.getD 0)).ranges stk (line % 2 ^ 29 * 128)
  let rose := !(x.mevstat.getLsbD 0)
  let s := { s with poison := Tab.put s.poison line 0#128,
                    ecc := Tab.del (Tab.del s.ecc (2 * line)) (2 * line + 1) }
  let s := s.modSlice sl fun y =>
    { y with mevstat := y.mevstat ||| 1#32, mevcnt := bumpCount y.mevcnt 0,
             mevaddr := BitVec.ofNat 64 (2 ^ 63 + pa / 128 * 128) }
  if rose then s.sliceIrq sl (.mem sl) else s

/-- What a read that reaches the stack finds in some halves of a line (R349): poison, an error beyond correction, or an
error it corrects. Answers the STATUS. -/
def State.readHalves (s : State) (line : Nat) (halves : List Nat) : State × Nat :=
  if s.poisoned line then (s, 2)
  else if halves.any fun h => decide (2 ≤ Tab.get 0 s.ecc (2 * line + h)) then (s.poisonLine line, 2)
  else if halves.any fun h => Tab.get 0 s.ecc (2 * line + h) == 1 then
    let s := { s with ecc := halves.foldl (fun e h => Tab.del e (2 * line + h)) s.ecc }
    (s.modSlice (line / 2 ^ 30) fun y => { y with mevstat := y.mevstat ||| 4#32, mevcnt := bumpCount y.mevcnt 16 }, 1)
  else (s, 0)

/-! ### Compression (R346, R347) -/

/-- The 8 exponent bits of field i of a line, read as BF16. -/
def fieldExp (bs : List Byte) (i : Nat) : Nat := fieldAt bs (2 * i) 2 / 128 % 256

/-- The least exponent of a line's 64 fields. -/
def leastExp (bs : List Byte) : Nat := (List.range 64).foldl (fun m i => Nat.min m (fieldExp bs i)) 255

/-- Whether the 64 fields of a line have exponents within 7 of the least (R346). -/
def compressible (bs : List Byte) : Bool := (List.range 64).all fun i => decide (fieldExp bs i ≤ leastExp bs + 7)

/-- The 96 bytes that a compressed line is stored in (R346). -/
def packLine (bs : List Byte) : List Byte :=
  let m := leastExp bs
  leBytes 96 ((List.range 64).foldl (fun acc i =>
    let x := fieldAt bs (2 * i) 2
    acc + (x % 128 + (fieldExp bs i - m) * 128 + x / 32768 * 1024) * 2 ^ (8 + 11 * i)) m)

/-- The line that 96 stored bytes stand for (R346). -/
def unpackLine (ps : List Byte) : List Byte :=
  let v := leNat ps
  (List.range 64).flatMap fun i =>
    let f := v / 2 ^ (8 + 11 * i) % 2048
    leBytes 2 (f % 128 + (v % 256 + f / 128 % 8) * 128 + f / 1024 * 32768)

/-- A line has been written: its flag says whether it is stored compressed (R346, R347). -/
def State.setPacked (s : State) (line : Nat) (comp : Bool) : State :=
  { s with packed := Tab.set false s.packed line (comp && compressible (s.bytes (128 * line) 128)) }

/-- The 96 or 128 bytes in which a line is stored (R346). -/
def State.stored (s : State) (line : Nat) : List Byte :=
  if Tab.get false s.packed line then packLine (s.bytes (128 * line) 128) else s.bytes (128 * line) 128

/-- A byte of the stacks as the range table of the partition that owns it reaches it: its activation class and compression. -/
def State.homeLoc (s : State) (key : Nat) : Loc :=
  let rs := (s.part ((s.slice (key / 2 ^ 37)).part.getD 24)).ranges
  ((mapIn rs (unmapLine rs (key / 2 ^ 36) (key % 2 ^ 36))).filter fun l => l.key == key).getD { key, cls := 0, comp := false }

/-- Whether the range of the owning partition that maps a byte of the stacks enables compression. -/
def State.homeComp (s : State) (key : Nat) : Bool := (s.homeLoc key).comp

/-- A page-table entry takes a value. -/
def State.putEntry (s : State) (k v : Nat) : State := (s.writeBytes k (leBytes 8 v)).setPacked (k / 128) (s.homeComp k)

/-! ### Row activation (R334 to R338) -/

/-- The key of a row's count: (pch, bank, row) of a stack-local address (R334). -/
def rowKey (l : Nat) : Nat := (l / 2 ^ 11 % 64 * 64 + l / 2 ^ 17 % 64) * 8192 + l / 2 ^ 23 % 8192

/-- The key of a bank: (pch, bank). -/
def bankKey (l : Nat) : Nat := l / 2 ^ 11 % 64 * 64 + l / 2 ^ 17 % 64

/-- The threshold of an activation class (R337). -/
def threshold (actctl : Word) (cls : Nat) : Nat := 32 * (actctl.toNat / 2 ^ (7 * cls) % 128 + 1)

/-- A row's activation count. -/
def Stack.count (t : Stack) (k : Nat) : Nat := (Tab.find? t.counts k).getD (Tab.get 0 t.base (k % 8192 / 8))

/-- A request as a bank sees it (R335): the step since which it may have been on its way, 0 where that is not known; for a request of a
uniform word, which completes when a later word waits for it, its unit and the s registers that await it; and whether it goes with an
earlier access of the same event. -/
structure Req where
  since : Nat
  asks : Option (Nat × List Nat)
  joined : Bool
deriving DecidableEq, Repr

/-- A request of which nothing is known. -/
def Req.free : Req := { since := 0, asks := none, joined := false }

/-- Whether a bank's queue may still hold a request for its open row when a request arrives: one of a uniform word that nothing has
waited for, or one that had not completed when this one went on its way (R335). -/
def Stack.mayHold (t : Stack) (b : Nat) (r : Req) : Bool :=
  !((Tab.get [] t.asked b).isEmpty) || decide (r.since ≤ Tab.get 0 t.doneAt b)

/-- A bank of which a row has reached its threshold in this very step: a further request of the step backs off (R338, R339). -/
def Stack.dueAt (t : Stack) (bank now : Nat) : Bool := t.due.any fun p => p.1 / 8192 == bank && p.2 == now

/-- A request in step `now`, where `hit` says that there is one, through a range whose threshold is `lim`, is presented to its bank: it
activates its row unless the row is still open, and a row that reaches the threshold awaits refresh management (R335, R338). The row is closed where the bank's queue holds no
request for it; where it may hold one, whether it does is free (R335, R340, log 123). -/
def Stack.present (t : Stack) (hit : Bool) (now lim l : Nat) (r : Req) : Stack :=
  let b := bankKey l
  let row := l / 2 ^ 23 % 8192
  let stays := Tab.find? t.openRow b == some row && t.mayHold b r && Config.rowStays now (t.count (rowKey l))
  let n := t.count (rowKey l) + 1
  { t with
    counts := Tab.put t.counts (rowKey l) (if hit && !stays then n else t.count (rowKey l))
    openRow := if hit then Tab.put t.openRow b row else t.openRow
    asked := if hit then Tab.set [] t.asked b ((if stays then Tab.get [] t.asked b else []) ++ r.asks.toList) else t.asked
    doneAt := if hit then Tab.set 0 t.doneAt b (if r.asks.isNone then now else if stays then Tab.get 0 t.doneAt b else 0) else t.doneAt
    due := if decide (lim ≤ n) && hit && !stays then Tab.put t.due (rowKey l) now else t.due }

/-- A request reaches the stack, where `hit` says that there is one: it is presented, or backs off where a row of its bank has reached the
threshold in this step, and then activates its row when the block ends (R339). -/
def State.activate (s : State) (stk l cls : Nat) (hit : Bool := true) (r : Req := Req.free) : State :=
  s.modStack stk fun t =>
    if t.dueAt (bankKey l) s.tick then { t with late := if hit then t.late ++ [(l, cls)] else t.late }
    else t.present hit s.tick (threshold (s.slice (stk / 2)).actctl cls) l r

/-- The requests of a unit's uniform words that a bank may hold and that meet a test have completed before this step. -/
def Stack.settle (t : Stack) (u now : Nat) (f : List Nat → Bool) : Stack :=
  let ends := fun (x : Nat × List Nat) => x.1 == u && f x.2
  t.asked.foldl (fun t p =>
    if p.2.any ends then
      { t with asked := Tab.set [] t.asked p.1 (p.2.filter fun x => !(ends x)),
               doneAt := Tab.set 0 t.doneAt p.1 (Nat.max (Tab.get 0 t.doneAt p.1) now) }
    else t) t

/-- A word that waits for some of a unit's uniform requests finds them completed (R335, R340). -/
def State.settle (s : State) (u : Nat) (f : List Nat → Bool) : State :=
  { s with stackTab := s.stackTab.map fun p => (p.1, p.2.settle u (s.tick - 1) f) }

/-- Whether a slice serves its memory: FW, L2, CTR and the stack's bit (R307). -/
def homeReady (s : State) (key : Nat) : Bool :=
  let x := s.slice (key / 2 ^ 37)
  x.srdy.getLsbD 2 && x.srdy.getLsbD 7 && x.srdy.getLsbD 11 && x.srdy.getLsbD (5 + key / 2 ^ 36 % 2)

/-- A bank that refresh management blocks, or that is to be blocked since an earlier step than `now` (R338, R339). -/
def Stack.shut (t : Stack) (bank now : Nat) : Bool :=
  (t.blocked.any fun p => p.1 == bank) || t.due.any fun p => p.1 / 8192 == bank && decide (p.2 < now)

/-- Whether an access reaches the stack controller now: always to an uncached page, else when `Config.lineFill` says so (R220, R221,
R335). -/
def State.reaches (s : State) (key : Nat) (unc : Bool) : Bool := unc || Config.lineFill (s.tick + key / 128)

/-- Whether an access may be performed at a line now: its home serves it (R307), and it does not reach a bank that makes it back off
(R339). -/
def State.lineReady (s : State) (key : Nat) (unc : Bool) : Bool :=
  homeReady s key && !((s.stack (key / 2 ^ 36)).shut (bankKey (key % 2 ^ 36)) s.tick && s.reaches key unc)

/-- The line's trip to the stack controller, if it makes one, where it reads those of these halves of the line that hold bad symbols;
the others show nothing. Answers whether the line is poisoned. -/
def State.reachLine (s : State) (key : Nat) (halves : List Nat) (unc : Bool) (cls : Nat) (r : Req := Req.free) :
    State × Bool :=
  let line := key / 128
  let hit := s.reaches key unc
  let s := s.activate (key / 2 ^ 36) (key % 2 ^ 36) cls (hit && !r.joined) r
  let (s, st) := s.readHalves line (halves.filter fun h => decide (0 < Tab.get 0 s.ecc (2 * line + h)) && hit)
  (s, st == 2)

/-! ### Translation (R208 to R216) -/

/-- A translation: physical address, the bits of R212 that an access consults, and where the entry lies; `out` says that there is none,
since `pa` is the address of a table entry outside the partition's ranges, which violates the firewall (R304, R344). -/
structure Xlat where
  pa : Nat
  out : Bool
  w : Bool
  p : Bool
  x : Bool
  k : Bool
  sn : Bool
  pol : Nat
  bias : Nat
  ent : Option Nat
  leaf : DWord
  big : Bool
deriving DecidableEq, Repr

/-- What a walk comes to that would read a table at an address in no range of the partition. -/
def Xlat.outside (pa : Nat) : Xlat :=
  { pa, out := true, w := false, p := false, x := false, k := false, sn := false, pol := 0, bias := 31, ent := none, leaf := 0#64,
    big := false }

/-- Whether an access that writes writes where it violates the firewall: a walk's access reads (R305). -/
def Xlat.wr (x : Xlat) (write : Bool) : Bool := write && !x.out

/-- The 8 bytes of a table entry at a physical address of a partition. -/
def State.tableEntry (s : State) (p : Part) (pa : Nat) : Option (Nat × DWord) :=
  (p.locate pa).map fun l => (l.key, BitVec.ofNat 64 (leNat (s.bytes l.key 8)))

/-- FRAME of an entry, in bytes. -/
def entFrame (e : DWord) : Nat := e.toNat / 65536 % 2 ^ 36 * 65536

/-- Whether an entry is a pointer: V = X = K = 1 (R211). -/
def entPointer (e : DWord) : Bool := e.getLsbD 0 && e.getLsbD 3 && e.getLsbD 4

/-- A pointer has no other bit set below the software bits (R211). -/
def entPointerOk (e : DWord) : Bool := e.toNat % 65536 == 0x19

/-- What a leaf gives an address of 64 KiB page offset `off`. -/
def xlatOfLeaf (leaf : DWord) (key : Nat) (off : Nat) (big : Bool) : Xlat :=
  { pa := entFrame leaf + off, out := false, w := leaf.getLsbD 2, p := leaf.getLsbD 1, x := leaf.getLsbD 3, k := leaf.getLsbD 4,
    sn := leaf.getLsbD 5, pol := leaf.toNat / 2 ^ 14 % 4, bias := leaf.toNat / 2 ^ 9 % 32, ent := some key, leaf, big }

/-- A 512 MiB leaf as it maps one of its 64 KiB pages. -/
def leafAt (e : DWord) (page : Nat) : DWord := e + BitVec.ofNat 64 (page % 8192 * 65536)

/-- One entry of a walk: `f` goes on from its key and value; an address in no range ends the walk there (R304, R344). -/
def State.walkEntry (s : State) (p : Part) (pa : Nat) (f : Nat → DWord → Option Xlat) : Option Xlat :=
  match s.tableEntry p pa with
  | none => some (Xlat.outside pa)
  | some (k, e) => f k e

/-- The walk of a context's three tables; none for a walk fault (R211). -/
def State.walk (s : State) (p : Part) (c : Ctx) (va : Nat) : Option Xlat :=
  s.walkEntry p (c.ptbase + va / 2 ^ 42 % 8192 * 8) fun _ e0 =>
    if !(entPointer e0 && entPointerOk e0) then none
    else s.walkEntry p (entFrame e0 + va / 2 ^ 29 % 8192 * 8) fun k1 e1 =>
      if !(e1.getLsbD 0) then none
      else if entPointer e1 then
        if !(entPointerOk e1) then none
        else s.walkEntry p (entFrame e1 + va / 2 ^ 16 % 8192 * 8) fun k2 e2 =>
          if !(e2.getLsbD 0) || (e2.getLsbD 3 && e2.getLsbD 4) then none else some (xlatOfLeaf e2 k2 (va % 65536) false)
      else if e1.toNat / 65536 % 8192 ≠ 0 then none
      else some (xlatOfLeaf (leafAt e1 (va / 65536)) k1 (va % 65536) true)

/-- The lines of the entries that a walk reads. -/
def State.walkLocs (s : State) (p : Part) (c : Ctx) (va : Nat) : List Loc :=
  let read := fun (pa : Nat) => (p.locate pa).map fun l => (l, (BitVec.ofNat 64 (leNat (s.bytes l.key 8)) : DWord))
  match read (c.ptbase + va / 2 ^ 42 % 8192 * 8) with
  | none => []
  | some (l0, e0) =>
    l0 :: (if !(entPointer e0 && entPointerOk e0) then [] else match read (entFrame e0 + va / 2 ^ 29 % 8192 * 8) with
      | none => []
      | some (l1, e1) =>
        l1 :: (if !(e1.getLsbD 0 && entPointer e1 && entPointerOk e1) then []
          else ((p.locate (entFrame e1 + va / 2 ^ 16 % 8192 * 8)).toList)))

/-- The walker reads the lines of its entries; whether one of them is poisoned. -/
def State.readWalk (s : State) (ls : List Loc) : State × Bool :=
  ls.foldl (fun (r : State × Bool) l =>
    let (s, bad) := r.1.reachLine l.key [0, 1] false l.cls
    (s, r.2 || bad)) (s, false)

/-- The heap window's translation, where the address lies in it (R209, R210). -/
def Ctx.heap (c : Ctx) (va : Nat) : Option Xlat :=
  if c.hbase ≤ va ∧ va < c.hbase + c.hlimit then
    some { pa := va - c.hbase + c.hoff, out := false, w := true, p := true, x := false, k := false, sn := false, pol := 0, bias := 31,
           ent := none, leaf := 0#64, big := false }
  else none

/-- The bits of an entry that hardware leaves to the kernel: all but A, D and S. -/
def leafBits (e : DWord) : DWord := e &&& ~~~(0x1A0#64)

/-- The translations of a page that a slice holds. -/
def State.tlbHeld (s : State) (c : Ctx) (sl va : Nat) : List TlbEnt :=
  (s.slice sl).tlb.filter fun t => t.asid == c.asid && t.page == va / 65536

/-- The held translations of a page that differ from its entry as a walk finds it now. -/
def tlbOld (now : Option Xlat) (held : List TlbEnt) : List TlbEnt :=
  held.filter fun t => match now with
    | some x => !(leafBits t.leaf == leafBits x.leaf)
    | none => true

/-- Which of them an access uses (R214): 0 for the entry as it stands, n for the n-th older one. -/
def State.tlbPick (s : State) (old : List TlbEnt) : Nat :=
  if old.isEmpty then 0 else Config.oldTranslation s.tick % (old.length + 1)

/-- Whether an access has to walk the tables: no held translation serves it. -/
def State.walks (s : State) (p : Part) (c : Ctx) (sl va : Nat) : Bool :=
  let now := s.walk p c va
  let held := s.tlbHeld c sl va
  let old := tlbOld now held
  s.tlbPick old == 0 && !(decide (old.length < held.length))

/-- A write that leaves a slice for a line of another one is a die-to-die flit, which is activity for the progress monitor (R299). -/
def State.crossing (s : State) (sl key : Nat) : State :=
  if key / 2 ^ 37 = sl then s else match (s.slice sl).part with
    | some p => s.modPart p fun q => { q with activity := true }
    | none => s

/-- A bit of a page-table entry is set from a slice, by an atomic update at the entry's home (R212). -/
def State.setEntryBit (s : State) (sl k bit : Nat) : State :=
  let e := leNat (s.bytes k 8)
  if e.testBit bit then s else (s.putEntry k (e ||| 2 ^ bit)).crossing sl k

/-- Translation by page tables, through the slice's TLB (R214): the entry as it stands, or an older one that no TLBINV has
covered, whole, whichever `Config.oldTranslation` picks. The entry used is kept in the TLB, and A is set when it is first loaded
(R212). A walk that reads a poisoned line gives Memory-Error (log 116). -/
def State.translateTable (s : State) (p : Part) (c : Ctx) (sl va : Nat) : State × Except Nat Xlat :=
  let page := va / 65536
  let now := s.walk p c va
  let held := s.tlbHeld c sl va
  let old := tlbOld now held
  let pick := s.tlbPick old
  if pick = 0 then
    if old.length < held.length then (s, match now with
      | some x => .ok x
      | none => .error Config.causeTranslation)
    else
      let (s, bad) := s.readWalk (s.walkLocs p c va)
      if bad then (s, .error Config.causeMemoryError)
      else match now with
        | none => (s, .error Config.causeTranslation)
        | some x => if x.out then (s, .ok x) else
          let k := x.ent.getD 0
          let s := s.setEntryBit sl k 8
          (s.modSlice sl fun y => { y with tlb := { asid := c.asid, page, leaf := x.leaf, big := x.big, ent := k } :: y.tlb }, .ok x)
  else
    let t := old.getD (pick - 1) { asid := c.asid, page, leaf := 0#64, big := false, ent := 0 }
    (s, .ok (xlatOfLeaf t.leaf t.ent (va % 65536) t.big))

/-- Translation of a global virtual address (R208 to R211), or the trap cause it gives. -/
def State.translate (s : State) (pn asid sl : Nat) (va : DWord) : State × Except Nat Xlat :=
  let p := s.part pn
  let c := p.ctx asid
  if 2 ^ 55 ≤ va.toNat then (s, .error Config.causeTranslation)
  else match c.heap va.toNat with
    | some x => (s, .ok x)
    | none => s.translateTable p c sl va.toNat

/-- Whether a translation must wait: its walk reads a table at a home that is not ready, or in a bank that makes it back off (R283,
R307, R339). -/
def State.walkWaits (s : State) (pn asid sl : Nat) (va : DWord) : Bool :=
  let p := s.part pn
  let c := p.ctx asid
  decide (va.toNat < 2 ^ 55) && (c.heap va.toNat).isNone && s.walks p c sl va.toNat &&
  (s.walkLocs p c va.toNat).any fun l => !(s.lineReady l.key false)

/-! ### The checks of R217 -/

/-- What the checks of R217 give an access: a trap cause, a page that is not resident, a walk that has to wait, or the
translation. -/
inductive Chk where
  | trap (cause : Nat)
  | nonres
  | wait
  | ok (x : Xlat)
deriving DecidableEq, Repr

/-- Steps 1 to 7 of R217 for an access of `size` bytes. -/
def State.check (s : State) (pn asid sl : Nat) (va : DWord) (size : Nat) (write : Bool) : State × Chk :=
  if va.toNat % size ≠ 0 then (s, .trap Config.causeMisaligned)
  else if s.walkWaits pn asid sl va then (s, .wait)
  else match s.translate pn asid sl va with
    | (s, .error cause) => (s, .trap cause)
    | (s, .ok x) =>
      if x.out then (s, .ok x)
      else if write && !x.w then (s, .trap Config.causeProtection)
      else if x.k then (if write then (s, .trap Config.causeCounter) else (s, .ok x))
      else if !x.p then (s, .nonres)
      else (s, .ok x)

/-- The checks of an access about to be performed: one that writes also has to set D in its entry (R212), which waits for the entry's
home as the walk does (R283, R307) and finds the poison of the entry's line (log 116). -/
def State.permit (s : State) (pn asid sl : Nat) (va : DWord) (size : Nat) (write : Bool) : State × Chk :=
  match s.check pn asid sl va size write with
  | (s, .ok x) =>
    match x.ent with
    | none => (s, .ok x)
    | some k =>
      if !write || (s.byte k).getLsbD 7 then (s, .ok x)
      else if !(s.lineReady k false) then (s, .wait)
      else match s.reachLine k [0, 1] false (s.homeLoc k).cls with
        | (s, true) => (s, .trap Config.causeMemoryError)
        | (s, false) => (s, .ok x)
  | r => r

/-! ### Accesses performed (R217, R230 to R237) -/

/-- An access that is about to be performed: its agent and the clock its races are judged by, the location as partition
and physical address, the byte's key, its length, whether its page is a counter page (never a race, R234), and whether it
reaches the stack controller whatever is cached (R221), its range's activation class and compression, the page's bias slice (R222),
and the request it makes of the bank. -/
structure Acc1 where
  agent : Agent
  clock : VC
  loc : Nat
  key : Nat
  len : Nat
  k : Bool
  unc : Bool
  cls : Nat
  comp : Bool
  bias : Nat
  req : Req
deriving DecidableEq, Repr

/-- How an access that was not performed ended: poison consumed, or a race with this agent. -/
inductive Bad where
  | poison
  | race (a : Agent)
deriving DecidableEq, Repr

/-- The location of a physical address, for ordering and races: a partition's own address space (R234). -/
def locOf (pn pa : Nat) : Nat := pn * 2 ^ 52 + pa

/-- An access of an agent through a translation to a place in the stacks. -/
def Xlat.acc (x : Xlat) (ag : Agent) (clock : VC) (pn : Nat) (l : Loc) (len : Nat) (req : Req := Req.free) : Acc1 :=
  { agent := ag, clock, loc := locOf pn x.pa, key := l.key, len, k := x.k, unc := x.pol == 2, cls := l.cls, comp := l.comp,
    bias := x.bias, req }

/-- The race test for an access, counter pages apart (R234). -/
def State.raceTest (s : State) (a : Acc1) (write : Bool) (atom : Option (BitVec 2)) : Option Agent :=
  if a.k then none else raceOf s a.agent a.clock .glob a.loc a.len write atom

/-- Records an access where it is one that can race. -/
def State.note (s : State) (a : Acc1) (write : Bool) (atom : Option (BitVec 2)) : State :=
  if a.k then s else noteAccess s a.agent .glob a.loc a.len write atom

/-- The access's trip to the stack controller. -/
def State.reach (s : State) (a : Acc1) (halves : List Nat) : State × Bool := s.reachLine a.key halves a.unc a.cls a.req

/-- A write that leaves its agent's slice is a die-to-die flit, which is activity for the progress monitor (R299). -/
def State.flit (s : State) (a : Acc1) : State :=
  let pl := agentPlace s a.agent
  if a.key / 2 ^ 37 = pl.2.1 then s else s.modPart pl.1 fun p => { p with activity := true }

/-- An atomic leaves its agent's slice as a flit unless it is performed in the issuer's L1: at team scope, or near, where the page's
bias is that slice (R222, R299). -/
def State.flitAtomic (s : State) (a : Acc1) (scope : BitVec 2) : State :=
  if !a.unc && (scope == 0#2 || a.bias == (agentPlace s a.agent).2.1) then s else s.flit a

/-- A load of bytes whose line has been reached. -/
def State.loadAt (s : State) (a : Acc1) (acq : Option (BitVec 2)) : State × Except Bad (List Byte) :=
  match s.raceTest a false acq with
  | some o => (s, .error (.race o))
  | none =>
    let bs := s.bytes a.key a.len
    let s := s.note a false acq
    let s := match acq with
      | some sc => acquireAt s a.agent sc a.loc a.len
      | none => if a.k then seeCtr s a.agent a.loc a.len else s
    (s, .ok bs)

/-- A load: poison is consumed before a race is judged (R217). `acq` is the scope of an acquire; a load of a counter page
is a relaxed read (R231). -/
def State.perfLoad (s : State) (a : Acc1) (acq : Option (BitVec 2)) : State × Except Bad (List Byte) :=
  let (s, p) := s.reach a [0, 1]
  if p then (s, .error .poison) else s.loadAt a acq

/-- The 64-byte halves of a line that `n` bytes at `lo` of the line cover whole (R349). -/
def wholeHalves (lo n : Nat) : List Nat := [0, 1].filter fun h => decide (lo ≤ 64 * h) && decide (64 * h + 64 ≤ lo + n)

/-- The halves that those bytes touch and leave part of unwritten. -/
def partHalves (lo n : Nat) : List Nat :=
  [0, 1].filter fun h => decide (lo < 64 * h + 64) && decide (64 * h < lo + n) && !((wholeHalves lo n).contains h)

/-- The halves that a write of `n` bytes reads first (R349): those it leaves part of unwritten, and of a compressed line that it does
not cover both. -/
def State.readFirst (s : State) (key n : Nat) : List Nat :=
  if Tab.get false s.packed (key / 128) && (wholeHalves (key % 128) n).length < 2 then [0, 1] else partHalves (key % 128) n

/-- The halves that a write replaces without reading get new check symbols: an error in them that no read has found is gone (R349). -/
def State.coverHalves (s : State) (key n : Nat) : State :=
  let hs := (wholeHalves (key % 128) n).filter fun h => !((s.readFirst key n).contains h)
  { s with ecc := hs.foldl (fun e h => Tab.del e (2 * (key / 128) + h)) s.ecc }

/-- Writes an access's bytes, and tests the line for compression. -/
def State.putBytes (s : State) (a : Acc1) (bs : List Byte) : State := (s.writeBytes a.key bs).setPacked (a.key / 128) a.comp

/-- A store: `rel` is the scope of a release. A write that leaves part of a half unwritten reads that half first (R349, log
107). A plain store ends what earlier releases at its bytes can be read for (R231, log 106). -/
def State.perfStore (s : State) (a : Acc1) (bs : List Byte) (rel : Option (BitVec 2)) : State × Except Bad Unit :=
  match s.raceTest a true rel with
  | some o => (s, .error (.race o))
  | none =>
    let (s, _) := s.reach a (s.readFirst a.key a.len)
    let s := ((s.coverHalves a.key a.len).note a true rel).flit a
    let s := s.putBytes a bs
    let s := match rel with
      | some sc => releaseAt s a.agent sc a.loc a.len
      | none => overwriteAt s a.loc a.len
    (s, .ok ())

/-- The new value an atomic writes, from the old value and its operands (R258, R259). -/
def atomApply (op : AtomOp) (old x : DWord) (y : Word) : DWord :=
  let o := old.lo
  let a := x.lo
  let w := fun (v : Word) => (v.setWidth 64 : DWord)
  match op with
  | .add | .radd => w (o + a)
  | .add64 => old + x
  | .min => w (if o.toInt ≤ a.toInt then o else a)
  | .max | .rmax => w (if a.toInt ≤ o.toInt then o else a)
  | .and => w (o &&& a)
  | .or => w (o ||| a)
  | .xchg => w a
  | .cas => w (if o = a then y else o)
  | .raddf => w (BitVec.ofNat 32 (f32.fadd 0#2 false o.toNat a.toNat).code)

/-- The bytes an atomic touches. -/
def atomSize : AtomOp → Nat
  | .add64 => 8
  | .add | .min | .max | .and | .or | .xchg | .cas | .radd | .raddf | .rmax => 4

/-- Whether an operation is a reduction, which returns nothing (R259): it consumes no poison (R217). -/
def reduces : AtomOp → Bool
  | .radd | .raddf | .rmax => true
  | .add | .add64 | .min | .max | .and | .or | .xchg | .cas => false

/-- What an atomic or reduction finds at its bytes: on a poisoned line, a byte that nothing has written since the poisoning
has no value that the spec gives (R217, R283, log 107). -/
def State.oldBytes (s : State) (k n : Nat) : List Byte :=
  match Tab.find? s.poison (k / 128) with
  | none => s.bytes k n
  | some m => (List.range n).map fun i => if m.getLsbD ((k + i) % 128) then s.byte (k + i) else Config.poisonedByte (s.tick + i)

/-- What an atomic of `n` bytes orders (R230, R231): an acquire or release at its scope, by its order field; a relaxed one is a release
for each FENCE before it and, unless it is a reduction, is remembered for a FENCE after it. -/
def State.orderAtomic (s : State) (a : Acc1) (n : Nat) (red : Bool) (scope order : BitVec 2) : State :=
  let s := if order.getLsbD 0 then acquireAt s a.agent scope a.loc n
    else if order == 0#2 && !red then seeAt s a.agent a.loc n else s
  if order.getLsbD 1 then releaseAt s a.agent scope a.loc n
  else if order == 0#2 then relaxedAt s a.agent a.loc n else s

/-- A read-modify-write of `n` bytes by `f`: one event (R222 to R225). One that finds poison performs nothing, a reduction apart
(R217). The order is 0 relaxed, 1 acquire, 2 release, 3 both (R51). Answers the old value. -/
def State.perfRmw (s : State) (a : Acc1) (n : Nat) (red : Bool) (f : DWord → DWord) (scope order : BitVec 2) :
    State × Except Bad DWord :=
  let (s, p) := s.reach a [0, 1]
  if p && !red then (s, .error .poison)
  else match s.raceTest a true (some scope) with
    | some o => (s, .error (.race o))
    | none =>
      let old : DWord := BitVec.ofNat 64 (leNat (s.oldBytes a.key n))
      let s := (s.note a true (some scope)).flitAtomic a scope
      let s := s.putBytes a (leBytes n (f old).toNat)
      (s.orderAtomic a n red scope order, .ok old)

/-- An atomic or reduction at memory (R258, R259). -/
def State.perfAtomic (s : State) (a : Acc1) (op : AtomOp) (x : DWord) (y : Word) (scope order : BitVec 2) :
    State × Except Bad DWord :=
  s.perfRmw a (atomSize op) (reduces op) (fun old => atomApply op old x y) scope order

/-- Sets D in the entry that a performed store or atomic of a slice went through (R212). -/
def State.setDirty (s : State) (sl : Nat) (x : Xlat) : State :=
  match x.ent with
  | some k => s.setEntryBit sl k 7
  | none => s

/-! ### Counters (R270) -/

/-- Whether an address is a live counter of a context: inside the pool, one that CNEW handed out and CFREE has not
returned; elsewhere always (R270). -/
def Ctx.live (c : Ctx) (va : Nat) : Bool :=
  if c.cpbase ≤ va ∧ va < c.cpbase + c.cpsize then c.ctrs.any fun k => k.va == va else true

/-- The scope a counter was created with; partition scope outside the pool (R270). -/
def Ctx.ctrScope (c : Ctx) (va : Nat) : BitVec 2 :=
  if c.cpbase ≤ va ∧ va < c.cpbase + c.cpsize then
    ((c.ctrs.find? fun k => k.va == va).map (·.scope)).getD 2#2
  else 2#2

/-- A counter that passed the checks of R270: its bytes' key, its location, its creation scope, how its line is reached, and whether
it may be now (R307, R339). -/
structure CtrRef where
  key : Nat
  loc : Nat
  scope : BitVec 2
  unc : Bool
  cls : Nat
  comp : Bool
  ready : Bool
deriving DecidableEq, Repr

/-- The checks of every counter word (R270): Misaligned, Translation, Counter for K = 0 or no live counter. P is not
consulted. `none` inside is a firewall violation at that physical address. -/
def State.counterAt (s : State) (pn asid sl : Nat) (va : DWord) : State × Except Nat (Except Nat CtrRef) :=
  if va.toNat % 8 ≠ 0 then (s, .error Config.causeMisaligned)
  else
    let waits := s.walkWaits pn asid sl va
    match s.translate pn asid sl va with
    | (s, .error cause) => (s, .error cause)
    | (s, .ok x) =>
      let c := (s.part pn).ctx asid
      if !x.out && (!x.k || !(c.live va.toNat)) then (s, .error Config.causeCounter)
      else match (s.part pn).locate x.pa with
        | none => (s, .ok (.error x.pa))
        | some l => (s, .ok (.ok { key := l.key, loc := locOf pn x.pa, scope := c.ctrScope va.toNat, unc := x.pol == 2, cls := l.cls,
                                   comp := l.comp, ready := !waits && s.lineReady l.key (x.pol == 2) }))

/-- A counter's line is reached; whether it is poisoned. -/
def State.reachCtr (s : State) (c : CtrRef) (r : Req := Req.free) : State × Bool := s.reachLine c.key [0, 1] c.unc c.cls r

/-- A counter's value. -/
def State.counterVal (s : State) (key : Nat) : DWord := BitVec.ofNat 64 (leNat (s.bytes key 8))

/-- What an add finds in a counter; on a poisoned line what nothing has written since is open (log 107). -/
def State.counterOld (s : State) (key : Nat) : DWord := BitVec.ofNat 64 (leNat (s.oldBytes key 8))

/-- The value that a counter takes, and whether that is activity for the progress monitor: it changes, or the operation crossed to
another slice (R299). `sl` is the slice it comes from. -/
def State.counterPut (s : State) (pn sl : Nat) (c : CtrRef) (v : Nat) : State :=
  let old := s.counterOld c.key
  let s := (s.writeBytes c.key (leBytes 8 v)).setPacked (c.key / 128) c.comp
  if v = old.toNat ∧ c.key / 2 ^ 37 = sl then s else s.modPart pn fun p => { p with activity := true }

/-- An add to a counter: it saturates (R272). -/
def State.counterAdd (s : State) (pn sl : Nat) (c : CtrRef) (n : DWord) (r : Req := Req.free) : State :=
  let s := (s.reachCtr c r).1
  s.counterPut pn sl c (Nat.min (2 ^ 64 - 1) ((s.counterOld c.key).toNat + n.toNat))

end Sys2Proof.Machine
end

