-- ==== Sys2Proof/Machine/Flags.lean ====
section
/-!
DEFINITION. The control and status registers' fields (R62, R64), predicates and guards (R45, R46), the integer relations
of the compares (R95, R151), and lane masks.
-/

namespace Sys2Proof.Machine

/-- FCR.RM (R62). -/
def fcrRm (fcr : Word) : RM := fcr.setWidth 2

/-- FCR.FZ (R62). -/
def fcrFz (fcr : Word) : Bool := fcr.getLsbD 2

/-- What SWR leaves in FCR: bits [2:0] (R62). -/
def fcrWrite (x : Word) : Word := x &&& 7#32

/-- What SWR leaves in FSR: bits [6:0] (R64). -/
def fsrWrite (x : Word) : Word := x &&& 0x7F#32

/-- Raises flags in FSR; hardware only sets bits (R64). -/
def Uni.raise (u : Uni) (fl : Word) : Uni := { u with fsr := u.fsr ||| fl }

/-- The guard of an L-set word in one thread (R46): g 0 to 6 names a predicate, 7 means always. -/
def lguard (t : Thread) (g : BitVec 3) : Bool := g == 7#3 || t.p.getLsbD g.toNat

/-- The guard of a G-set word (R46). -/
def qguard (u : Uni) (q : BitVec 3) : Bool := q == 7#3 || u.q.getLsbD q.toNat

/-- Sets or clears one bit of a predicate file. -/
def setBit8 (x : BitVec 8) (n : Nat) (b : Bool) : BitVec 8 :=
  if b then x ||| (1#8 <<< n) else x &&& ~~~(1#8 <<< n)

/-- Writes a predicate. -/
def Thread.setP (t : Thread) (n : Nat) (b : Bool) : Thread := { t with p := setBit8 t.p n b }

/-- Reads a predicate. -/
def Thread.getP (t : Thread) (n : Nat) : Bool := t.p.getLsbD n

/-- Writes a uniform predicate. -/
def Uni.setQ (u : Uni) (n : Nat) (b : Bool) : Uni := { u with q := setBit8 u.q n b }

/-- Reads a uniform predicate. -/
def Uni.getQ (u : Uni) (n : Nat) : Bool := u.q.getLsbD n

/-- Reads an s register. -/
def Uni.getS (u : Uni) (n : Nat) : Word := Tab.get 0#32 u.s n

/-- Writes an s register. -/
def Uni.setS (u : Uni) (n : Nat) (x : Word) : Uni := { u with s := Tab.set 0#32 u.s n x }

/-- The pair s(2n+1):s(2n) (R45). -/
def Uni.getPair (u : Uni) (n : Nat) : DWord := DWord.ofWords (u.getS (2 * n)) (u.getS (2 * n + 1))

/-- Writes a pair. -/
def Uni.setPair (u : Uni) (n : Nat) (x : DWord) : Uni := (u.setS (2 * n) x.lo).setS (2 * n + 1) x.hi

/-- Reads a v register; an unlisted one holds 0 (R22). -/
def Thread.getV (t : Thread) (n : Nat) : Word := Tab.get 0#32 t.v n

/-- Writes a v register. -/
def Thread.setV (t : Thread) (n : Nat) (x : Word) : Thread := { t with v := Tab.set 0#32 t.v n x }

/-- A latch; none is invalid (R28). -/
def Thread.latch (t : Thread) (k : Nat) : Option Word :=
  if k = 0 then t.l0 else if k = 1 then t.l1 else if k = 2 then t.l2 else t.l3

/-- Writes a latch. -/
def Thread.setLatch (t : Thread) (k : Nat) (x : Option Word) : Thread :=
  if k = 0 then { t with l0 := x } else if k = 1 then { t with l1 := x }
  else if k = 2 then { t with l2 := x } else { t with l3 := x }

/-- All four latches become invalid (R29); a result that awaits a latch fills none. -/
def Thread.dropLatches (t : Thread) : Thread :=
  { t with l0 := none, l1 := none, l2 := none, l3 := none, flights := t.flights.map fun f => { f with latch := 7 } }

/-- The shift of R28 with a result, or with one still to come (R30): the positions that await results move with it. -/
def Thread.shift (t : Thread) (x : Option Word) : Thread :=
  { t with l0 := x, l1 := t.l0, l2 := t.l1, l3 := t.l2,
           flights := t.flights.map fun f => { f with latch := if f.latch < 3 then f.latch + 1 else 7 } }

/-- Writes a destination of one 32-bit result and shifts the latches (R28, R82). -/
def Thread.result (t : Thread) (d : Dest) (x : Word) : Thread :=
  let t := match d with
    | .reg n => t.setV n.val x
    | .discard => t
  t.shift (some x)

/-! ### Integer relations and arithmetic -/

/-- The relation of an integer compare (R95, R151). -/
inductive IRel where
  | eq | ne | slt | sle | ult | ule
deriving DecidableEq, Repr

/-- x relation y. -/
def IRel.test (r : IRel) (x y : Word) : Bool :=
  match r with
  | .eq => x == y
  | .ne => !(x == y)
  | .slt => x.slt y
  | .sle => x.sle y
  | .ult => x.ult y
  | .ule => x.ule y

/-- A logical left shift by all 32 bits of the count (R90). -/
def shl32 (x y : Word) : Word := if y.toNat < 32 then x <<< y.toNat else 0#32
/-- A logical right shift (R90). -/
def shr32 (x y : Word) : Word := if y.toNat < 32 then x >>> y.toNat else 0#32
/-- An arithmetic right shift (R90). -/
def sar32 (x y : Word) : Word :=
  if y.toNat < 32 then x.sshiftRight y.toNat else if x.getLsbD 31 then 0xFFFFFFFF#32 else 0#32

/-- Leading zero bits (R91). -/
def clz32 (x : Word) : Word := BitVec.ofNat 32 (if x = 0#32 then 32 else 31 - x.toNat.log2)
/-- One bits (R91). -/
def popc32 (x : Word) : Word := BitVec.ofNat 32 ((List.range 32).filter fun i => x.getLsbD i).length

/-- A word from its bits. -/
def maskOf (f : Nat → Bool) : Word :=
  (List.range 32).foldl (fun m i => if f i then m ||| (1#32 <<< i) else m) 0#32

/-- Bits reversed (R91). -/
def brev32 (x : Word) : Word := maskOf fun i => x.getLsbD (31 - i)

/-- pos and len of a field, and the width that fits (R92). -/
def fieldPos (y : Word) : Nat × Nat :=
  let pos := y.toNat % 32
  let len := Nat.min (y.toNat / 256 % 64) 32
  (pos, Nat.min (pos + len) 32 - pos)

/-- BFE (R92). -/
def bfe32 (x y : Word) : Word :=
  let (pos, n) := fieldPos y
  BitVec.ofNat 32 (x.toNat / 2 ^ pos % 2 ^ n)

/-- BFES (R92). -/
def bfes32 (x y : Word) : Word :=
  let (pos, n) := fieldPos y
  let f := x.toNat / 2 ^ pos % 2 ^ n
  if n = 0 then 0#32 else if f / 2 ^ (n - 1) % 2 = 1 then BitVec.ofNat 32 (f + 2 ^ 32 - 2 ^ n) else BitVec.ofNat 32 f

/-- BFI (R93): bits of `d` replaced by the low bits of `x`. -/
def bfi32 (d x y : Word) : Word :=
  let (pos, n) := fieldPos y
  let m : Word := BitVec.ofNat 32 ((2 ^ n - 1) * 2 ^ pos)
  (d &&& ~~~m) ||| ((x <<< pos) &&& m)

/-- Bits 63:32 of the signed product (R87). -/
def mulhs (x y : Word) : Word := BitVec.ofInt 32 (x.toInt * y.toInt / 4294967296)

/-- Bits 63:32 of the unsigned product (R87). -/
def mulhu (x y : Word) : Word := BitVec.ofNat 32 (x.toNat * y.toNat / 4294967296)

/-- |x| (R88). -/
def iabs32 (x : Word) : Word := if x.getLsbD 31 then 0#32 - x else x

/-! ### Lane masks -/

/-- The lanes of a mask, in ascending order. -/
def lanesOf (m : Word) : List Nat := (List.range 32).filter fun i => m.getLsbD i

/-- A mask of one lane. -/
def laneBit (l : Nat) : Word := 1#32 <<< l

/-- A thread of a unit. -/
def Warp.lane (w : Warp) (l : Nat) : Thread := Tab.get Thread.init w.th l

/-- Changes the threads of a mask, each from its own state, in ascending lane order. -/
def Warp.mapLanes (w : Warp) (m : Word) (f : Nat → Thread → Thread) : Warp :=
  { w with th := (lanesOf m).foldl (fun t l => Tab.mod Thread.init t l (f l)) w.th }

/-- The lanes of a mask whose thread meets a test. -/
def Warp.lanesWhere (w : Warp) (m : Word) (f : Thread → Bool) : Word := maskOf fun l => m.getLsbD l && f (w.lane l)

/-- Every lane. -/
def allLanes : Word := 0xFFFFFFFF#32

/-- The live threads of a unit. -/
def Warp.liveMask (w : Warp) : Word := w.lanesWhere allLanes fun t => t.status == .live

end Sys2Proof.Machine
end

