-- ==== Sys2Proof/Machine/Ops.lean ====
section
/-!
DEFINITION. The named operations over the state that more than one meaning uses: changing threads, ending regions (R244,
R250), taking a trap (R286 to R289) and returning from one (R168), fatal traps (R292), how warps and teams end (R165, R40),
the team barrier (R275), events to the kernel (R323), and the local window (R128, R132).
-/

namespace Sys2Proof.Machine

/-- Changes a unit. -/
def State.modUnit (s : State) (u : Nat) (f : Warp → Warp) : State := s.setUnit u (f (s.unit u))

/-- The first unit that meets a test. -/
def State.findUnit (s : State) (f : Warp → Bool) : Option Nat := (List.find? (fun p => f p.2) s.units).map (·.1)

/-- Changes threads of a unit, each from its own state. -/
def State.modLanes (s : State) (u : Nat) (m : Word) (f : Nat → Thread → Thread) : State :=
  s.modUnit u fun w => w.mapLanes m f

/-- Changes the uniform state of a unit. -/
def State.modUni (s : State) (u : Nat) (f : Uni → Uni) : State := s.modUnit u fun w => { w with u := f w.u }

/-- The core a unit stands on, as `State.cores` is keyed. -/
def Warp.coreKey (w : Warp) : Nat := 64 * w.slice + w.core

/-- CLK of a unit's slice (R157). -/
def State.clk (s : State) (w : Warp) : DWord := (s.slice w.slice).clk

/-- The context number of a unit's grid (R215). -/
def State.asid (s : State) (w : Warp) : Nat := (s.grid w.grid).asid

/-- An overlay slot as a unit sees it: one of its core's two, or a Reckoner's single slot (R161). -/
def State.ovl (s : State) (w : Warp) (slot : Nat) : Ovl :=
  if w.reck then Tab.get Ovl.init s.rovl (16 * w.slice + w.core / 4)
  else if slot = 0 then (s.core w.coreKey).ov0 else (s.core w.coreKey).ov1

/-- Whether an offset lies outside an overlay's code (R41, R50). -/
def Ovl.outside (o : Ovl) (off : Word) : Bool := decide (off.toNat % 4 ≠ 0) || decide (o.code.length ≤ off.toNat / 4)

/-- Moves threads past the word being issued. -/
def State.advance (s : State) (u : Nat) (m : Word) (pc : Word) : State := s.modLanes u m fun _ t => { t with pc }

/-- The offset after the word being issued and its literals (R47). -/
def Cur.next (c : Cur) : Word := c.pc + BitVec.ofNat 32 (4 * c.len)

/-! ### Events to the partition kernel (R323) -/

/-- An event record. -/
def eventRec (kind code orig frm id index addr tpc : Nat) : List Byte :=
  leBytes 1 kind ++ leBytes 1 code ++ leBytes 1 orig ++ leBytes 1 frm ++ leBytes 4 id ++ leBytes 8 index ++
  leBytes 8 addr ++ leBytes 4 tpc ++ leBytes 4 0

/-- The slot controller raises an event; it waits in order until it is written to the ring (R324). -/
def State.raiseEvent (s : State) (pn : Nat) (r : List Byte) : State :=
  s.modPart pn fun p => { p with events := p.events ++ [r] }

/-- A warp or grid that ends is activity for the progress monitor (R299). -/
def State.active (s : State) (pn : Nat) : State := s.modPart pn fun p => { p with activity := true }

/-! ### Regions (R240 to R250) -/

/-- Whether a thread is in a region. -/
def Thread.inTry (t : Thread) : Bool := match t.sp.region with
  | .tryR _ _ _ _ _ => true
  | .none | .tx _ _ _ _ _ => false

/-- Whether a thread is in a transaction. -/
def Thread.inTx (t : Thread) : Bool := match t.sp.region with
  | .tx _ _ _ _ _ => true
  | .none | .tryR _ _ _ _ _ => false

/-- Whether a thread is in a transaction in serial mode (R207). -/
def Thread.serial (t : Thread) : Bool := match t.sp.region with
  | .tx _ _ _ _ b => b
  | .none | .tryR _ _ _ _ _ => false

/-- Whether a thread is in either kind of region. -/
def Thread.inRegion (t : Thread) : Bool := t.inTry || t.inTx

/-- The octets SPM names (R49). -/
def octets (spm : BitVec 15) : List Nat := (List.range 15).filter fun i => spm.getLsbD i

/-- The size W of the checkpoint area a warp holds back (R204). -/
def Warp.heldSize (w : Warp) : Nat :=
  (lanesOf allLanes).foldl (fun m l => match (w.lane l).sp.region with
    | .tryR _ _ _ spm _ => Nat.max m (8 * (octets spm).length)
    | .none | .tx _ _ _ _ _ => m) 0

/-- Whether a warp holds a register back (R204, R244): it lies in the area of the checkpoint of some lane in a TRY region, below
the quota at which that region opened (log 115). -/
def Warp.holds (w : Warp) (r : Nat) : Bool :=
  (lanesOf allLanes).any fun l => match (w.lane l).sp.region with
    | .tryR _ _ _ spm top => decide (top - 8 * (octets spm).length ≤ r) && decide (r < top)
    | .none | .tx _ _ _ _ _ => false

/-- Whether a word names a register that the warp holds back. -/
def Warp.namesHeld (w : Warp) (regs : List Nat) : Bool := regs.any w.holds

/-- Restores the named octets from the checkpoint at v(top − 8n) upward (R204, R244). -/
def Thread.restoreOctets (t : Thread) (top : Nat) (spm : BitVec 15) : Thread :=
  let os := octets spm
  let base := top - 8 * os.length
  (List.range (8 * os.length)).foldl
    (fun t i => t.setV (8 * os.getD (i / 8) 0 + i % 8) (t.getV (base + i))) t

/-- The abort code (R203). -/
def abcWord (code xcode : Nat) (ser : Bool) : Word :=
  BitVec.ofNat 32 (code + (if ser then 128 else 0) + 256 * (xcode % 256))

/-- A thread after an abort (R244, R250): ABC is written, the call stack cut back, the latches invalidated, the logs and
the buffer discarded, and the thread is at its target; a TRY lane's named octets are restored. A transaction's abort counts
towards serial mode (R207). -/
def Thread.abort (t : Thread) (code xcode : Nat) : Thread :=
  match t.sp.region with
  | .none => t
  | .tryR target slot depth spm top =>
    let t := t.restoreOctets top spm
    { t.dropLatches with
      abc := abcWord code xcode false, pc := target, slot, stale := false, stack := t.stack.drop (t.stack.length - depth), wait := .none,
      sp := { t.sp with region := .none, buf := [] } }
  | .tx target slot depth off serial =>
    let n := if serial then 4 else if t.sp.abOff = off then Nat.min 4 (t.sp.abCount + 1) else 1
    { t.dropLatches with
      abc := abcWord code xcode (decide (4 ≤ n)), pc := target, slot, stale := false,
      stack := t.stack.drop (t.stack.length - depth), wait := .none,
      sp := { t.sp with region := .none, rlog := [], wlog := [], wvas := [], uncs := [], abOff := off, abCount := n } }

/-- Whether a thread's next transaction at an offset is due for serial mode (R207). -/
def Thread.serialDue (t : Thread) (off : Word) : Bool := t.sp.abOff == off && decide (4 ≤ t.sp.abCount)

/-- Whether a lane can hold the serial token (R248): it runs in serial mode, or stands at the TXOPEN for which it takes it. -/
def State.tokenFit (s : State) (x : Nat × Nat) : Bool :=
  let t := (s.unit x.1).lane x.2
  t.serial || (t.status == .live && !t.inRegion && t.serialDue t.pc)

/-- The lane that holds a partition's serial token; one that a trap has taken from its TXOPEN holds nothing (R248). -/
def State.tokenOf (s : State) (pn : Nat) : Option (Nat × Nat) := (s.part pn).token.filter s.tokenFit

/-- Whether a lane of a unit holds the serial token (R248). -/
def State.holdsToken (s : State) (u : Nat) : Bool := (s.tokenOf (s.unit u).part).any fun x => x.1 == u

/-- Passes the serial token on if this lane holds it, to the first waiter that still stands at its TXOPEN, and takes the lane off the
waiters (R248). -/
def State.dropToken (s : State) (pn u l : Nat) : State :=
  s.modPart pn fun p =>
    let q := p.tokenQ.filter fun x => !(x == (u, l))
    if p.token = some (u, l) then { p with token := (q.filter s.tokenFit).head?, tokenQ := (q.filter s.tokenFit).tail }
    else { p with tokenQ := q }

/-- The abort of the lanes of a mask that are in a region, the serial token apart (R250). -/
def State.abortBare (s : State) (u : Nat) (m : Word) (code : Nat) (xcode : Nat → Nat) : State :=
  let w := s.unit u
  let hit := w.lanesWhere m Thread.inRegion
  if hit = 0#32 then s
  else s.setUnit u { w.mapLanes hit (fun l t => t.abort code (xcode l)) with u := { w.u with ablanes := hit } }

/-- Releases the serial token for the lanes of a mask. A user interrupt that waited for the token then ends the regions of
the warp (R248). -/
def State.releaseToken (s : State) (u : Nat) (ser : Word) : State :=
  if ser = 0#32 then s
  else
    let w := s.unit u
    let s := (lanesOf ser).foldl (fun s l => s.dropToken w.part u l) s
    match w.u.uint with
    | some i =>
      if i.due && !(s.holdsToken u) then
        (s.modUni u fun x => { x with uint := some { i with due := false } }).abortBare u allLanes Config.abPreempted fun _ => 0
      else s
    | none => s

/-- Aborts the lanes of a mask that are in a region, as one abort event (R250), each with its own XCODE. -/
def State.abortLanesBy (s : State) (u : Nat) (m : Word) (code : Nat) (xcode : Nat → Nat) : State :=
  (s.abortBare u m code xcode).releaseToken u ((s.unit u).lanesWhere m Thread.serial)

/-- Aborts the lanes of a mask that are in a region, as one abort event with one XCODE (R250). -/
def State.abortLanes (s : State) (u : Nat) (m : Word) (code xcode : Nat) : State := s.abortLanesBy u m code fun _ => xcode

/-! ### How warps and teams end (R165, R133, R292) -/

/-- Whether a live warp has arrived at the barrier: every live thread of it waits there (R275). -/
def Warp.arrived (w : Warp) : Bool :=
  (lanesOf w.liveMask).all fun l => match (w.lane l).wait with
    | .barrier _ => true
    | .none | .counter _ _ _ _ _ | .sleep _ _ | .grow _ _ | .tile _ => false

/-- A thread that a wait releases goes past the word it waited at, which is one word long. -/
def Thread.wake (t : Thread) : Thread := { t with wait := .none, pc := t.pc + 4#32 }

/-- Completes the team's barrier if every live warp has arrived and some thread waits: every blocked thread becomes
runnable, each warp acquires every arrival, and the generation advances (R275). -/
def State.barrierCheck (s : State) (tm : Nat) : State :=
  let t := s.team tm
  let live := t.warps.filter fun u => (s.unit u).live
  if live.isEmpty || !(live.all fun u => (s.unit u).arrived) then s
  else
    let s := live.foldl (fun s u =>
      let s := s.modUnit u fun w => w.mapLanes w.liveMask fun _ x => x.wake
      { s with order := s.order.acquireVC (.unit u) t.barVC }) s
    s.modTeam tm fun t => { t with barGen := t.barGen + 1, barVC := [] }

/-- A tile-table entry of a team. -/
def State.tile (s : State) (tm t : Nat) : TileEnt := Tab.get TileEnt.init (s.team tm).tiles t

/-- The team whose window, tiles and chains a unit's words use (R177): its own, or for a Reckoner the launch's team on core 0
of its cluster. -/
def State.tileTeam (s : State) (w : Warp) : Option Nat :=
  if !w.reck then some w.team
  else (List.find? (fun p => p.2.st == .placed && p.2.grid == w.grid && p.2.slice == w.slice && p.2.core == w.core) s.teams).map
    (·.1)

/-- Changes a tile-table entry; units that wait for the tile look again (R131). -/
def State.modTile (s : State) (tm t : Nat) (f : TileEnt → TileEnt) : State :=
  let s := s.modTeam tm fun x => { x with tiles := Tab.mod TileEnt.init x.tiles t f }
  (Tab.keys s.units).foldl (fun s u =>
    let w := s.unit u
    if s.tileTeam w = some tm ∨ w.reck then
      let m := w.lanesWhere allLanes fun x => x.wait == .tile t
      if m = 0#32 then s else s.modLanes u m fun _ x => { x with wait := .none }
    else s) s

/-- Frees an ended team's window and tile table once its last engine command has ended (R133). A matrix instruction that is still
queued then reads free bytes for its B tile: DESIGN CHOICE, log 120. -/
def State.teamFree (s : State) (tm : Nat) : State :=
  if (s.team tm).st = .ended && !(s.cmds.any fun c => c.team == tm) then
    s.modTeam tm fun t => { t with st := .freed, mem := [], tiles := [] }
  else s

/-- A team ends when its last warp has exited (R165). -/
def State.teamCheck (s : State) (tm : Nat) : State :=
  let t := s.team tm
  if t.st = .placed && t.warps.all fun u => !(s.unit u).live then
    let s := s.modTeam tm fun t => { t with st := .ended, grows := [] }
    let s := s.modGrid t.grid fun g => { g with ended := g.ended + 1 }
    s.teamFree tm
  else s

/-- Delivers an ended unit's held engine faults to the kernel and clears their F bits (R142, R158). -/
def State.deliverHeld (s : State) (u : Nat) : State :=
  let w := s.unit u
  let s := w.held.foldl (fun s h =>
    let s := s.raiseEvent w.part (eventRec 3 h.cls 0 0 (s.grid w.grid).num 0 h.taddr.toNat 0)
    match h.tile with
    | some t => s.modTile h.team t fun e => { e with f := false }
    | none => s) s
  s.modUnit u fun w => { w with held := [] }

/-- Why a unit's open seal context is voided at its end (R190, R191): a SEALU that faulted, whose trap a thread has taken
and not returned from, gives reason 1. -/
def Warp.voidReason (w : Warp) (reason : Nat) : Nat :=
  match w.sealCtx with
  | some c => if c.bad = 0#32 then reason else 1
  | none => reason

/-- A unit whose threads have all exited ends (R165, R38): quota to the pool, pending interrupt discarded, open seal
context to be voided, held engine faults to the kernel. `reason` is the void reason (R190). -/
def State.unitEnd (s : State) (u reason : Nat) : State :=
  let w := s.unit u
  if w.live && (w.liveMask == 0#32) then
    let reason := w.voidReason reason
    let s := s.modUnit u fun w =>
      { w with live := false, gone := reason, u := { w.u with uint := none }, sysc := none, ovw := none, frozen := none,
               sealCtx := w.sealCtx.map fun c => { c with void := some (c.void.getD reason) } }
    let s := s.deliverHeld u
    let s := s.active w.part
    let s := s.modCore w.coreKey fun c =>
      if !w.reck && Tab.find? c.cur (w.k % 4) == some u then
        { c with cur := Tab.del c.cur (w.k % 4), left := Tab.put c.left (w.k % 4) w.cw }
      else c
    if w.reck then s
    else
      let s := s.modTeam w.team fun t =>
        { t with pool := t.pool + w.quota, grows := t.grows.filter fun g => !(g.u == u) }
      (s.barrierCheck w.team).teamCheck w.team
  else s

/-- Every live thread of a unit stops at once; open regions are discarded without effect (R292). -/
def State.stopUnit (s : State) (u reason : Nat) : State :=
  let w := s.unit u
  if w.live then
    let s := (lanesOf w.liveMask).foldl (fun s l => s.dropToken w.part u l) s
    let s := s.modLanes u w.liveMask fun _ t => { t with status := .exited, wait := .none, pend := none, sp := Spec.init }
    s.unitEnd u reason
  else s

/-- A team ends as a team fault (R292, R308): every thread stops, and the kernel receives the event. -/
def State.faultTeam (s : State) (tm reason cause orig frm : Nat) (tpc : Word) (taddr : DWord) : State :=
  let t := s.team tm
  let pn := (s.grid t.grid).part
  if t.st = .placed || t.st = .saved then
    let s := s.modTeam tm fun t => { t with st := .placed }
    let s := t.warps.foldl (fun s u => s.stopUnit u reason) s
    s.raiseEvent pn (eventRec 4 cause orig frm (s.grid t.grid).num t.idx taddr.toNat tpc.toNat)
  else s

/-- The teams of a Reckoner's launch on its cluster (R36), or saved with it (R133). -/
def State.clusterTeams (s : State) (u : Nat) : List Nat :=
  let w := s.unit u
  (Tab.keys s.teams).filter fun tm =>
    let t := s.team tm
    if w.wd = .saved then t.st == .saved && t.group == some u
    else t.st == .placed && t.grid == w.grid && t.slice == w.slice && t.core / 4 == w.core / 4

/-- A fatal trap (R292). A Reckoner's ends its thread and every team of its launch on its cluster. -/
def State.fatal (s : State) (u cause orig : Nat) (tpc : Word) (taddr : DWord) : State :=
  let w := s.unit u
  if w.reck then
    let tms := s.clusterTeams u
    let s := s.stopUnit u 1
    tms.foldl (fun s tm => s.faultTeam tm 1 cause orig 1 tpc taddr) s
  else s.faultTeam w.team 1 cause orig 0 tpc taddr

/-! ### Taking a trap and returning from one (R286 to R292, R168) -/

/-- The words of a queue entry (R290). -/
def entryWords (e : Entry) : List Word :=
  [e.word, e.lit, BitVec.ofNat 32 (2 * (e.latch % 8)), 0#32, e.base.lo, e.base.hi, e.a, e.b,
   e.d.getD 0 0#32, e.d.getD 1 0#32, e.d.getD 2 0#32, e.d.getD 3 0#32, 0#32, 0#32, 0#32, 0#32]

/-- Writes consecutive words of a frame. -/
def putWords (f : Tab Word) (i : Nat) : List Word → Tab Word
  | [] => f
  | w :: r => putWords (Tab.set 0#32 f i w) (i + 1) r

/-- The valid bits of the four latches, as LVALID holds them (R289). -/
def Thread.validBits (t : Thread) : Word :=
  BitVec.ofNat 32 ((if t.l0.isSome then 1 else 0) + (if t.l1.isSome then 2 else 0) + (if t.l2.isSome then 4 else 0) +
    (if t.l3.isSome then 8 else 0))

/-- The trap frame (R289): header, latches with their valid bits, and the queue. `dead` is what an invalid latch leaves in
the frame, which the spec does not say (log 16). -/
def trapFrame (t : Thread) (tpc : Word) (q : List Entry) (r : TrapRec) (dead : Nat → Word) : Tab Word :=
  let f := putWords [] 0
    ([BitVec.ofNat 32 r.cause, r.conf, r.taddr.lo, r.taddr.hi, tpc, BitVec.ofNat 32 t.slot, BitVec.ofNat 32 q.length, 0#32] ++
     ((List.range 4).map fun k => (t.latch k).getD (dead k)) ++ [t.validBits])
  (q.foldl (fun (p : Tab Word × Nat) e => (putWords p.1 p.2 (entryWords e), p.2 + 16)) (f, 16)).1

/-- Trap entry (R286): trap mode, the frame, the mask, invalid latches, and the PC at TVEC in the slot being executed; `tag`
gives the slots' tags, against which the return is checked (R163). -/
def Thread.enterTrap (t : Thread) (tvec tpc : Word) (q : List Entry) (r : TrapRec) (dead : Nat → Word)
    (tag : Nat → Option Nat) : Thread :=
  { t with
    ftag0 := tag 0, ftag1 := tag 1, stale := false, trapMode := true, frame := trapFrame t tpc q r dead, mask := true, l0 := none, l1 := none, l2 := none, l3 := none,
    pc := tvec, flights := [], replay := [], backGroup := t.lastGroup, wait := .none, atEntry := true }

/-- The latch residue of a trap in a lane at this tick. -/
def State.dead (s : State) (l : Nat) (k : Nat) : Word := Config.deadLatch (s.tick * 128 + 4 * l + k)

/-- A live thread takes a trap (R286): fatal where TVEC is 0xFFFFFFFF or the mask is 1 (R292). A trap clears the hold count
of the warp (R27). Entries that TRET has still to re-issue are queued behind `q` (R291). -/
def State.takeTrap (s : State) (u l : Nat) (tpc : Word) (q : List Entry) (r : TrapRec) : State :=
  let w := s.unit u
  let t := w.lane l
  if !(t.status == .live) then s
  else if t.mask then s.fatal u Config.causeDouble r.cause tpc r.taddr
  else if w.u.tvec = 0xFFFFFFFF#32 then s.fatal u r.cause 0 tpc r.taddr
  else
    s.setUnit u { w.mapLanes (laneBit l) (fun _ t => t.enterTrap w.u.tvec tpc (q ++ t.replay) r (s.dead l) fun k => (s.ovl w k).tag) with
                  sched := { w.sched with hold := 0, trapped := true } }

/-- A cause that arises in lanes: a lane in a region aborts with CODE 0x05, all in one event; any other takes the trap
(R249). `q` is the entry being re-issued, if one is (R291). -/
def State.raiseLanes (s : State) (u : Nat) (m tpc : Word) (q : List Entry) (r : Nat → TrapRec) : State :=
  let inR := (s.unit u).lanesWhere m Thread.inRegion
  let s := s.abortLanes u inR Config.abFault 0
  (lanesOf (m &&& ~~~inR)).foldl (fun s l => s.takeTrap u l tpc q (r l)) s

/-- A trap record with TCONF 0. -/
def trapRec (cause : Nat) (taddr : DWord) : TrapRec := { cause, taddr, conf := 0#32 }

/-- A frame field. -/
def Thread.frameWord (t : Thread) (i : Nat) : Word := Tab.get 0#32 t.frame i

/-- The queue entry n of a frame; its SKIP bit apart (R290). -/
def Thread.frameEntry (t : Thread) (n : Nat) : Entry :=
  let g := fun i => t.frameWord (16 + 16 * n + i)
  { word := g 0, lit := g 1, latch := (g 2).toNat / 2 % 8, base := DWord.ofWords (g 4) (g 5), a := g 6, b := g 7,
    d := [g 8, g 9, g 10, g 11] }

/-- The entries TRET re-issues: 0 to COUNT − 1, but for those with SKIP = 1 (R291). -/
def Thread.replayQueue (t : Thread) : List Entry :=
  ((List.range (Nat.min 8 (t.frameWord 6).toNat)).filter fun n => !((t.frameWord (16 + 16 * n + 2)).getLsbD 0)).map
    t.frameEntry

/-- TRET in one thread in trap mode (R168): latches and valid bits restored, mask 0, out of trap mode, at TPC in the slot
the frame records, the queue to be re-issued; its previous issue is its last one before the trap. `oneSlot` is a
Reckoner's single slot (R289). -/
def Thread.tret (t : Thread) (oneSlot : Bool) (tag : Nat → Option Nat) : Thread :=
  let slot := if oneSlot then 0 else (t.frameWord 5).toNat % 2
  let v := t.frameWord 12
  let lt := fun k => if v.getLsbD k then some (t.frameWord (8 + k)) else none
  { t with
    l0 := lt 0, l1 := lt 1, l2 := lt 2, l3 := lt 3, mask := false, trapMode := false, atEntry := false, pc := t.frameWord 4,
    slot, stale := !(tag slot == (if slot = 0 then t.ftag0 else t.ftag1)), replay := t.replayQueue, lastGroup := t.backGroup,
    flights := t.flights.map fun f => { f with latch := 7 } }

/-- TCONF (R236): the agent of the other half of a race; the layout has no value for a slot controller (log 32). -/
def tconf (s : State) (a : Agent) : Word :=
  let f := fun kind sl unit warp cls : Nat => BitVec.ofNat 32 (kind * 2 ^ 29 + sl * 2 ^ 24 + unit * 2 ^ 18 + warp * 2 ^ 12 + cls * 2 ^ 9)
  match a with
  | .unit u =>
    let w := s.unit u
    if w.reck then f 1 w.slice w.core 0 0 else f 0 w.slice w.core w.cw 0
  | .engine u cls _ =>
    let w := s.unit u
    f 2 w.slice w.core (if w.reck then 0 else w.cw) cls
  | .hart sl h => f 3 sl h 0 0
  | .port sl => f 4 sl 0 0 0
  | .slotCtl p => Config.slotConf p

/-- The Memory-Model record of a race (R235). -/
def raceRec (s : State) (a : Agent) (va : DWord) : TrapRec :=
  { cause := Config.causeMemoryModel, taddr := va, conf := tconf s a }

/-- The record of an access that was not performed. -/
def badRec (s : State) (b : Bad) (va : DWord) : TrapRec :=
  match b with
  | .poison => trapRec Config.causeMemoryError va
  | .race a => raceRec s a va

/-! ### The local window (R128, R132) -/

/-- Bytes of a team's window. -/
def Team.bytes (t : Team) (a n : Nat) : List Byte := (List.range n).map fun i => Tab.get 0#8 t.mem (a + i)

/-- Writes bytes of a team's window. -/
def Team.writeBytes (t : Team) (a : Nat) : List Byte → Team
  | [] => t
  | b :: r => ({ t with mem := Tab.set 0#8 t.mem a b } : Team).writeBytes (a + 1) r

/-- The engine agent that holds a command's or a matrix instruction's bytes (R132). -/
def holderAgent (u cls : Nat) : Agent := .engine u cls 0

/-- Whether byte ranges meet. -/
def rangesMeet (a n b k : Nat) : Bool := decide (a < b + k) && decide (b < a + n)

/-- The bytes in the window of a command's record (R141, R185, R186, R188): where it lies and how long it is. -/
def CmdOp.recordLen : CmdOp → Nat
  | .cpyin | .cpyout => 192
  | .cpygg => 384
  | .gather | .scatter | .coll => 64
  | .sealb | .sealu | .sealf | .ckpt => 0

/-- The first issued of some holders, by the number that each was given at issue. -/
def firstIssued : List (Nat × Agent) → Option (Nat × Agent)
  | [] => none
  | x :: r => match firstIssued r with
    | none => some x
    | some y => if x.1 ≤ y.1 then some x else some y

/-- The command or matrix instruction whose tile or record a thread's local access would disturb, the first issued
(R132, R141). -/
def State.tileHolder (s : State) (tm a n : Nat) (write : Bool) : Option Agent :=
  let team := s.team tm
  let tileAt := fun (t : Nat) => Tab.get TileEnt.init team.tiles t
  let cmds := s.cmds.filter fun c =>
    c.team == tm && ((match c.tile with
      | some t =>
        let e := tileAt t
        rangesMeet a n e.base e.extent && (e.st == .filling || (write && e.st == .draining))
      | none => false) ||
      (write && c.op.recordLen != 0 && c.cls != 3 && rangesMeet a n c.sval.toNat c.op.recordLen))
  let ops := if write then (s.cores.flatMap fun p => p.2.mq).filter fun o =>
      o.bTeam == tm && (o.kind == .mma || o.kind == .mmas) &&
      (let e := tileAt o.tile
       let e2 := tileAt (o.tile + 1)
       rangesMeet a n e.base e.extent || (o.kind == .mmas && rangesMeet a n e2.base e2.extent))
    else []
  (firstIssued ((cmds.map fun c => (c.id, holderAgent c.u c.cls)) ++ ops.map fun o => (o.id, holderAgent o.u 3))).map (·.2)

/-- A local access by a thread to a team's window (R128, R132, R234): Misaligned, then Protection, then the tile rules and
the race test. `data` is what a store writes. -/
def State.localAccess (s : State) (u tm : Nat) (la : Word) (size : Nat) (data : Option (List Byte)) :
    State × Except TrapRec (List Byte) :=
  let a := la.toNat
  let va : DWord := la.setWidth 64
  let team := s.team tm
  if a % size ≠ 0 then (s, .error (trapRec Config.causeMisaligned va))
  else if team.win < a + size then (s, .error (trapRec Config.causeProtection va))
  else match s.tileHolder tm a size data.isSome with
    | some h => (s, .error (raceRec s h va))
    | none =>
      let ag := Agent.unit u
      match raceOf s ag (s.order.clock ag) (.loc tm) a size data.isSome none with
      | some o => (s, .error (raceRec s o va))
      | none =>
        let s := noteAccess s ag (.loc tm) a size data.isSome none
        match data with
        | none => (s, .ok (team.bytes a size))
        | some bs => (s.modTeam tm fun t => t.writeBytes a bs, .ok [])

end Sys2Proof.Machine
end

