-- ==== Sys2Proof/Machine/Operands.lean ====
section
/-!
DEFINITION. Operands of L-set words (R44, R82), what a word waits for (R30, R82), and how an issue group issues a word:
`issueL` for the L-set and `issueG` for the G-set carry the guard, the legality order of R60, the latch events of R29 and
R32, the region rules of R144 and R278, and the traps that every word shares.
-/

namespace Sys2Proof.Machine

/-! ### Operands (R44) -/

/-- The v registers a source field names. -/
def srcRegs : Src → List Nat
  | .reg n => [n.val]
  | .latch _ | .zero | .tid | .lit _ | .abc => []

/-- The latches a source field reads. -/
def srcLatches : Src → List Nat
  | .latch k => [k.val]
  | .reg _ | .zero | .tid | .lit _ | .abc => []

/-- The v register a destination names. -/
def destRegs : Dest → List Nat
  | .reg n => [n.val]
  | .discard => []

/-- The v registers a data field names. -/
def dataRegs : Data → List Nat
  | .reg n => [n.val]
  | .latch _ | .zero => []

/-- The latches a data field reads. -/
def dataLatches : Data → List Nat
  | .latch k => [k.val]
  | .reg _ | .zero => []

/-- `n` registers from `d` on. -/
def regSpan (d n : Nat) : List Nat := (List.range n).map (d + ·)

/-- operand(code) (R44, R82): the value of a source in a lane. -/
def operand (t : Thread) (tid : Word) : Src → Word
  | .reg n => t.getV n.val
  | .latch k => (t.latch k.val).getD 0#32
  | .zero => 0#32
  | .tid => tid
  | .lit w => w
  | .abc => t.abc

/-- The value of a data field. -/
def dataOperand (t : Thread) : Data → Word
  | .reg n => t.getV n.val
  | .latch k => (t.latch k.val).getD 0#32
  | .zero => 0#32

/-- TID of a lane: its linear index in the team (R19, R20). -/
def Warp.tid (w : Warp) (l : Nat) : Word := BitVec.ofNat 32 (32 * w.k + l)

/-- What a re-issued entry supplies for an operand: LIT where it is a literal, else what the entry captured (R290, R291). -/
def Entry.operand (e : Entry) (captured : Word) : Src → Word
  | .lit _ => e.lit
  | .reg _ | .latch _ | .zero | .tid | .abc => captured

/-- Operand a of a lane; a re-issued entry supplies it (R291). -/
def opA (c : Cur) (w : Warp) (l : Nat) (a : Src) : Word :=
  match c.replay with
  | some e => e.operand e.a a
  | none => operand (w.lane l) (w.tid l) a

/-- Operand b of a lane; a re-issued entry supplies it (R291). -/
def opB (c : Cur) (w : Warp) (l : Nat) (b : Src) : Word :=
  match c.replay with
  | some e => e.operand e.b b
  | none => operand (w.lane l) (w.tid l) b

/-- v[d + i] as an operand; a re-issued entry supplies it from D0 to D3 (R291). -/
def opD (c : Cur) (w : Warp) (l d i : Nat) : Word :=
  match c.replay with
  | some e => e.d.getD i 0#32
  | none => (w.lane l).getV (d + i)

/-- The data of a store or reduction; a re-issued entry supplies it from D0 (R291). -/
def opData (c : Cur) (w : Warp) (l : Nat) (d : Data) : Word :=
  match c.replay with
  | some e => e.d.getD 0 0#32
  | none => dataOperand (w.lane l) d

/-! ### What a word waits for (R30, R82, R288) -/

/-- The pseudo-register that stands for p7, which global accesses write (R97). -/
def regP7 : Nat := 128

/-- A predicate read that waits for p7. -/
def predRegs (p : Nat) : List Nat := if p = 7 then [regP7] else []

/-- The registers an issued memory word will write: its opcode and its d field tell (R252, R255, R258), but for those given back
since (R34). -/
def Flight.dests (f : Flight) : List Nat :=
  let op := f.word.toNat / 2 ^ 24 % 128
  let d := f.word.toNat / 2 ^ 14 % 128
  let span := fun n => if d < 120 then regSpan d (Nat.min n (f.cap - d)) else []
  if op = 0x55 then regP7 :: span 2
  else if op = 0x56 then regP7 :: span 4
  else if op = 0x63 then regP7 :: span 2
  else if 0x57 ≤ op ∧ op ≤ 0x5B then [regP7]
  else if op = 0x5C then span 1
  else if op = 0x5D then span 2
  else if op = 0x5E then span 4
  else if 0x5F ≤ op ∧ op ≤ 0x61 then []
  else if 0x6A ≤ op ∧ op ≤ 0x6C then [regP7]
  else regP7 :: span 1

/-- The number that stands, among the latches a word reads, for L0 read apart from any operand field (R99, R110). -/
def implicitL0 : Nat := 8

/-- Whether a latch is among those a word reads. -/
def readsLatch (latches : List Nat) (k : Nat) : Bool := latches.contains k || (k == 0 && latches.contains implicitL0)

/-- Whether a thread lacks a register or a latch that an issued word has yet to deliver (R30, R82). -/
def Thread.awaits (t : Thread) (regs latches : List Nat) : Bool :=
  t.flights.any fun f => (f.dests.any fun r => regs.contains r) || readsLatch latches f.latch

/-- Whether a thread keeps a word that it acts on from issuing: it has 8 L-set words issued and not finished (R288), or lacks what
an issued word has yet to deliver. -/
def Thread.stalls (t : Thread) (regs latches : List Nat) : Bool := decide (8 ≤ t.flights.length) || t.awaits regs latches

/-- A latch among those read that is invalid in a thread, the lowest (R31, R287). -/
def Thread.lostLatch (t : Thread) (latches : List Nat) : Option Nat :=
  ((List.range 4).filter fun k => readsLatch latches k && (t.latch k).isNone).head?

/-! ### Issue -/

/-- Event (a) of R29: a thread that issues in a group other than its last loses its latches; the group becomes its last. -/
def Warp.joinGroup (w : Warp) (m : Word) : Warp :=
  w.mapLanes m fun _ t => { (if t.lastGroup = some m then t else t.dropLatches) with lastGroup := some m, atEntry := false }

/-- Whether some thread of a mask has an L-set word issued and not finished (R288). -/
def Warp.busy (w : Warp) (m : Word) : Bool := (lanesOf m).any fun l => !((w.lane l).flights.isEmpty)

/-- The state in which the word being issued has issued; a path on which it does not issue answers the state before. -/
def State.issued (s : State) : State := { s with cur := { s.cur with done := true } }

/-- A cause that the whole group takes before any effect (R33, R59, R60). A trap at issue waits for the older words of the
threads that take it (R288). -/
def raiseGroup (s0 s : State) (u : Nat) (m : Word) (tpc : Word) (r : TrapRec) : Out State :=
  if (s.unit u).busy m then .next s0 else .next (s.raiseLanes u m tpc s.cur.replay.toList fun _ => r)

/-- The registers of a word that lie at or above a bound. -/
def regsAbove (regs : List Nat) (q : Nat) : Bool := regs.any fun r => r != regP7 && decide (q ≤ r)

/-- What a word does in the lanes in which it finds a latch lost, besides ending the regions there (R31, R249): the others of them
trap, and a serial one gives up its token (R248). `w` is the unit at issue. -/
def State.loseLatches (s : State) (u : Nat) (w : Warp) (lost : Word) (pc : Word) (latches : List Nat) : State :=
  ((lanesOf (w.lanesWhere lost fun t => !t.inRegion)).foldl (fun s l =>
    s.takeTrap u l pc [] (trapRec Config.causeLatchLost (BitVec.ofNat 64 (((w.lane l).lostLatch latches).getD 0)))) s).releaseToken u
      (w.lanesWhere lost Thread.serial)

/-- An issue group issues an L-set word, or a thread re-issues one from its queue (R59, R60, R291): the acting lanes, then
Wrong-Set on a Reckoner, legality `wf`, the quota and the held area over the registers `regs` that the word names or
implies, then Latch-Lost lane by lane over the latches it reads, for a re-issued word over an implicit L0 alone; `body` does the rest
for the lanes that act, all members being past the word, with every operand as it stands at issue (R82): what a lost latch does to the
whole warp comes after it (R250). A group that lacks an operand, or in which a thread has 8 words in flight, does not issue: nothing
changes (R23, R288). Of the threads in a TRY region those that act on a register of the held area abort (R204), and the others go on
(log 132). -/
def issueL (g : BitVec 3) (wf : Bool) (regs latches : List Nat) (body : State → Word → Out State) (s : State) : Out State :=
  let c := s.cur
  if !c.active then .fault .noIssueGroup
  else
    let w := s.unit c.u
    match c.replay with
    | some _ =>
      let t := w.lane ((lanesOf c.members).headD 0)
      if !wf then raiseGroup s s.issued c.u c.members c.next (trapRec Config.causeReserved 0#64)
      else if regsAbove regs w.quota || w.namesHeld regs then raiseGroup s s.issued c.u c.members c.next (trapRec Config.causeQuota 0#64)
      else if t.stalls regs (latches.filter fun k => k == implicitL0) then .next s
      else match t.lostLatch (latches.filter fun k => k == implicitL0) with
        | some k => raiseGroup s s.issued c.u c.members c.next (trapRec Config.causeLatchLost (BitVec.ofNat 64 k))
        | none => body s.issued c.members
    | none =>
      let w := w.joinGroup c.members
      let s1 := s.issued.setUnit c.u w
      let act := if w.reck then (if g == 7#3 then c.members else 0#32) else w.lanesWhere c.members fun t => lguard t g
      if act = 0#32 then .next (s1.advance c.u c.members c.next)
      else if w.reck then raiseGroup s s1 c.u c.members c.pc (trapRec Config.causeWrongSet 0#64)
      else if !wf then raiseGroup s s1 c.u c.members c.pc (trapRec Config.causeReserved 0#64)
      else if regsAbove regs w.quota then raiseGroup s s1 c.u c.members c.pc (trapRec Config.causeQuota 0#64)
      else if w.namesHeld regs then
        let tries := w.lanesWhere c.members Thread.inTry
        let rest := c.members &&& ~~~tries
        if w.busy rest then .next s
        else
          let s2 := s1.advance c.u (tries &&& ~~~act) c.next
          let s2 := s2.abortLanes c.u (tries &&& act) Config.abFault 0
          .next (s2.raiseLanes c.u rest c.pc [] fun _ => trapRec Config.causeQuota 0#64)
      else if (lanesOf act).any fun l => (w.lane l).stalls regs latches then .next s
      else
        let lost := w.lanesWhere act fun t => (t.lostLatch latches).isSome
        if w.busy lost then .next s
        else
          let s2 := s1.advance c.u c.members c.next
          if lost = 0#32 then body s2 act
          else
            let s3 := s2.abortBare c.u lost Config.abFault fun _ => 0
            let rest := act &&& ~~~lost
            match (if rest = 0#32 then Host.Outcome.next s3 else body s3 rest) with
            | .fault e => .fault e
            | .refused e => .refused e
            | .next t => .next (if t.cur.done then t.loseLatches c.u w lost c.pc latches else t)

/-- One lane's effect: its new thread and the flags it raises. -/
abbrev LaneFn := Cur → Warp → Nat → Thread → Thread × Word

/-- A word of the arithmetic chapter: every lane computes from the state at issue, and its flags are ORed into FSR (R82).
A re-issued word's result goes to the latch its entry names instead of shifting (R291). -/
def laneBody (f : LaneFn) (s : State) (act : Word) : Out State :=
  let c := s.cur
  let w := s.unit c.u
  let rs := (lanesOf act).map fun l => (l, f c w l (w.lane l))
  let w' := { w with
    th := rs.foldl (fun th p => Tab.put th p.1 p.2.1) w.th
    u := w.u.raise (rs.foldl (fun fl p => fl ||| p.2.2) 0#32) }
  .next (s.setUnit c.u w')

/-- The destination of one 32-bit result: register and latch shift (R28), or the latch of a re-issued entry (R291). -/
def Thread.deliver (t : Thread) (c : Cur) (d : Dest) (x : Word) : Thread :=
  match c.replay with
  | none => t.result d x
  | some e =>
    let t := match d with
      | .reg n => t.setV n.val x
      | .discard => t
    if e.latch < 4 then t.setLatch e.latch (some x) else t

/-! ### G-set issue (R143) -/

/-- What a G-set word's effect comes to: done, a trap that every member takes before any effect, with TPC, or waiting: it
does not issue, and nothing changes but what `queued` does to the state before it. -/
inductive GRes where
  | done (s : State)
  | trap (s : State) (tpc : Word) (r : TrapRec)
  | wait
  | queued (f : State → State)

/-- On which units a G-set word raises Wrong-Set when it acts (R56). -/
inductive Where where
  | both
  | simtOnly
  | reckOnly
deriving DecidableEq, Repr

/-- What a G-set word does inside a region (R144, R177, R242, R246, R278): acts, or ends the region with a code. -/
inductive InReg where
  | acts
  | ends (code : Nat)
deriving DecidableEq, Repr

/-- Whether the word ends a thread's region, and with which code. -/
def regCode (t : Thread) (inTry inTx : InReg) : Option Nat :=
  let f := fun (r : InReg) => match r with
    | .acts => none
    | .ends n => some n
  if t.inTry then f inTry else if t.inTx then f inTx else none

/-- An issue group issues a G-set word (R59, R60, R143): the q-guard, Wrong-Set, legality, the regions it ends, then
`body` with every member past the word. `drain` words issue only when every member's older L-set words have finished
(R288). A re-issued entry that names a G-set word raises Reserved-Instruction (R291). -/
def issueG (q : BitVec 3) (wf : Bool) (on : Where) (inTry inTx : InReg) (drain : Bool) (body : State → GRes) (s : State) :
    Out State :=
  let c := s.cur
  if !c.active then .fault .noIssueGroup
  else
    let w := s.unit c.u
    if c.replay.isSome then raiseGroup s s.issued c.u c.members c.next (trapRec Config.causeReserved 0#64)
    else
      let w := w.joinGroup c.members
      let s1 := s.issued.setUnit c.u w
      if !(qguard w.u q) then .next (s1.advance c.u c.members c.next)
      else if (on == .simtOnly && w.reck) || (on == .reckOnly && !w.reck) then
        raiseGroup s s1 c.u c.members c.pc (trapRec Config.causeWrongSet 0#64)
      else if !wf then raiseGroup s s1 c.u c.members c.pc (trapRec Config.causeReserved 0#64)
      else
        let hit := w.lanesWhere c.members fun t => (regCode t inTry inTx).isSome
        if !(hit == 0#32) then
          let code := ((lanesOf hit).filterMap fun l => regCode (w.lane l) inTry inTx).headD Config.abDisallowed
          .next (s1.abortLanes c.u hit code 0)
        else if drain && w.busy c.members then .next s
        else match body (s1.advance c.u c.members c.next) with
          | .done s' => .next s'
          | .wait => .next s
          | .queued f => .next (f s)
          | .trap s' tpc r => raiseGroup s s' c.u c.members tpc r

/-- A word that reads and writes uniform state alone: both units, any region, never waits. -/
def issueUni (q : BitVec 3) (f : State → Warp → Uni → Uni) (s : State) : Out State :=
  issueG q true .both .acts .acts false
    (fun s => let c := s.cur; let w := s.unit c.u; .done (s.setUnit c.u { w with u := f s w w.u })) s

/-- A trap of the word being issued, with TPC at the word. -/
def trapWord (s : State) (cause : Nat) (taddr : DWord) : GRes := .trap s s.cur.pc (trapRec cause taddr)

/-- A violation freezes the master and writes FWVIOL (R304 to R306): V is set by the first one alone. -/
def State.violate (s : State) (sl kind unit : Nat) (wr : Bool) (pa : Nat) : State :=
  let s := s.modSlice sl fun y =>
    { y with vcnt := Nat.min 65535 (y.vcnt + 1),
             fwviol := if y.fwviol.getLsbD 63 then y.fwviol
               else BitVec.ofNat 64 (2 ^ 63 + kind * 2 ^ 60 + unit * 2 ^ 54 + (if wr then 2 ^ 53 else 0) + pa % 2 ^ 52) }
  s.sliceIrq sl (.firewall sl)

/-- A warp's or Reckoner's violating access freezes it; at RELALL the lanes take Protection with these addresses (R306). -/
def State.freeze (s : State) (u : Nat) (members : Word) (lanes : List (Nat × DWord)) (wr : Bool) (pa : Nat) : State :=
  let w := s.unit u
  let s := s.violate w.slice (if w.reck then 1 else 0) w.core wr pa
  s.modUnit u fun w => { w with frozen := match w.frozen with
    | none => some { lanes, members, pa }
    | some z => some { z with lanes := z.lanes ++ lanes, members := z.members ||| members } }

/-- A uniform access that violates the firewall: the word does not act, and its members wait at it (R304, R306), once their older words
have finished, as for the trap that they are to take there (R288). -/
def frozenAt (s : State) (va : DWord) (wr : Bool) (pa : Nat) : GRes :=
  let c := s.cur
  if (s.unit c.u).busy c.members then .wait
  else .done ((s.advance c.u c.members c.pc).freeze c.u c.members ((lanesOf c.members).map fun l => (l, va)) wr pa)

/-- A G-set word's yield (R24, R29 (c), R27, R321): the members' latches go, the hold count clears, and effective priority
returns to the base. -/
def State.yieldBy (s : State) (u : Nat) (m : Word) : State :=
  (s.modLanes u m fun _ t => t.dropLatches).modUnit u fun w =>
    { w with sched := { w.sched with yielded := true, eff := w.sched.base, hold := 0 } }

end Sys2Proof.Machine
end

