-- ==== Sys2Proof/Machine/UniMem.lean ====
section
/-!
DEFINITION. Uniform memory, residency, allocation, counters, waits, the barrier and the fences (R226, R238, R264 to R276):
G-set 0x30 to 0x43.
-/

namespace Sys2Proof.Machine

/-! ### Uniform accesses (R264 to R266) -/

/-- Where a uniform access stands before it is performed. -/
inductive UAcc where
  | stop (r : GRes)
  | go (s : State) (a : Acc1) (x : Xlat)

/-- The request that the uniform word being issued makes of a bank: it completes when a later word waits for one of the s registers
that it writes (R335, R340). -/
def State.uniReq (s : State) (regs : List Nat) : Req := { since := s.tick, asks := some (s.cur.u, regs), joined := false }

/-- The s registers of a pair. -/
def pairRegs (n : Nat) : List Nat := [2 * n, 2 * n + 1]

/-- The checks of a uniform access (R264): those of R217, but P = 0 raises Translation. It waits for the older words of the
warp, for its home (R307), and a write for a page that is being copied (R219). `regs` are the s registers that it writes. -/
def State.uniReach (s : State) (va : DWord) (size : Nat) (write : Bool) (regs : List Nat) : UAcc :=
  let c := s.cur
  let w := s.unit c.u
  if w.busy allLanes then .stop .wait
  else match s.permit w.part (s.asid w) w.slice va size write with
    | (s, .trap cause) => .stop (trapWord s cause va)
    | (s, .nonres) => .stop (trapWord s Config.causeTranslation va)
    | (_, .wait) => .stop .wait
    | (s, .ok x) =>
      match (s.part w.part).locate x.pa with
      | none => .stop (frozenAt s va (x.wr write) x.pa)
      | some l =>
        if !(s.lineReady l.key (x.pol == 2)) || (write && x.sn) then .stop .wait
        else .go s (x.acc (.unit c.u) (s.order.clock (.unit c.u)) w.part l size (s.uniReq regs)) x

/-- The address of SLD to SST64 (R264). -/
def uniAddr (u : Uni) (bp : Fin 8) (b : Option (Fin 64)) : DWord :=
  u.getPair bp.val + (match b with
    | some r => (u.getS r.val).setWidth 64
    | none => 0#64)

/-- A uniform load into some s registers: `f` takes its bytes (R265). -/
def uniLoad (q : BitVec 3) (bp : Fin 8) (b : Option (Fin 64)) (size : Nat) (acq : Bool) (regs : List Nat)
    (f : Uni → List Byte → Uni) : State → Out State :=
  issueG q true .both .acts (.ends Config.abDisallowed) false fun s =>
    let u := s.cur.u
    let va := uniAddr (s.unit u).u bp b
    match s.uniReach va size false regs with
    | .stop r => r
    | .go s a _ =>
      match s.perfLoad a (if acq then some 2#2 else none) with
      | (s, .ok bs) => .done (s.modUni u fun x => f x bs)
      | (s, .error e) => .trap s s.cur.pc (badRec s e va)

/-- A uniform store of some bytes (R265). -/
def uniStore (q : BitVec 3) (bp : Fin 8) (b : Option (Fin 64)) (rel : Bool) (bytes : Uni → List Byte) :
    State → Out State :=
  issueG q true .both (.ends Config.abDisallowed) (.ends Config.abDisallowed) false fun s =>
    let u := (s.unit s.cur.u).u
    let va := uniAddr u bp b
    let bs := bytes u
    match s.uniReach va bs.length true [] with
    | .stop r => r
    | .go s a x =>
      match s.perfStore a bs (if rel then some 2#2 else none) with
      | (s, .ok _) => .done (s.setDirty (s.unit s.cur.u).slice x)
      | (s, .error e) => .trap s s.cur.pc (badRec s e va)

/-- A uniform atomic on a word (R266): s[sd] := old. -/
def uniAtomic (q : BitVec 3) (d : Fin 64) (scope : BitVec 2) (bp : Fin 8) (order : BitVec 2) (op : AtomOp)
    (args : Uni → Word × Word) : State → Out State :=
  issueG q true .both (.ends Config.abDisallowed) (.ends Config.abDisallowed) false fun s =>
    let u := (s.unit s.cur.u).u
    let va := u.getPair bp.val
    match s.uniReach va 4 true [d.val] with
    | .stop r => r
    | .go s a x =>
      match s.perfAtomic a op ((args u).1.setWidth 64) (args u).2 scope order with
      | (s, .ok old) => .done ((s.setDirty (s.unit s.cur.u).slice x).modUni s.cur.u fun x => x.setS d.val old.lo)
      | (s, .error e) => .trap s s.cur.pc (badRec s e va)

/-- SLD (R265); the scope field is ignored. -/
def execSld (q : BitVec 3) (d : Fin 64) (_scope : BitVec 2) (bp : Fin 8) (b : Option (Fin 64)) (ord : Bool) (s : State) :
    Out State := uniLoad q bp b 4 ord [d.val] (fun u bs => u.setS d.val (leWord bs)) s

/-- SLD64 (R265). -/
def execSld64 (q : BitVec 3) (d : Fin 32) (_scope : BitVec 2) (bp : Fin 8) (b : Option (Fin 64)) (ord : Bool) (s : State) :
    Out State := uniLoad q bp b 8 ord (pairRegs d.val) (fun u bs => u.setPair d.val (BitVec.ofNat 64 (leNat bs))) s

/-- SST (R265). -/
def execSst (q : BitVec 3) (d : Fin 64) (_scope : BitVec 2) (bp : Fin 8) (b : Option (Fin 64)) (ord : Bool) (s : State) :
    Out State := uniStore q bp b ord (fun u => leBytes 4 (u.getS d.val).toNat) s

/-- SST64 (R265). -/
def execSst64 (q : BitVec 3) (d : Fin 32) (_scope : BitVec 2) (bp : Fin 8) (b : Option (Fin 64)) (ord : Bool) (s : State) :
    Out State := uniStore q bp b ord (fun u => leBytes 8 (u.getPair d.val).toNat) s

/-- SAADD (R266). -/
def execSaadd (q : BitVec 3) (d : Fin 64) (scope : BitVec 2) (bp : Fin 8) (b : Fin 64) (order : BitVec 2) (s : State) :
    Out State := uniAtomic q d scope bp order .add (fun u => (u.getS b.val, 0#32)) s

/-- SACAS (R266): writes s[sb] where the word equals s[sd]. -/
def execSacas (q : BitVec 3) (d : Fin 64) (scope : BitVec 2) (bp : Fin 8) (b : Fin 64) (order : BitVec 2) (s : State) :
    Out State := uniAtomic q d scope bp order .cas (fun u => (u.getS d.val, u.getS b.val)) s

/-! ### Counters (R158, R270 to R274) -/

/-- A counter word's checks done: what stops it, or the counter. -/
inductive CAcc where
  | stop (r : GRes)
  | go (s : State) (c : CtrRef)

/-- The checks of a counter word (R270); it waits for the older words of the warp and for the counter unit (R307). -/
def State.ctrReach (s : State) (va : DWord) (wr : Bool) : CAcc :=
  let c := s.cur
  let w := s.unit c.u
  if w.busy allLanes || (va.toNat % 8 == 0 && s.walkWaits w.part (s.asid w) w.slice va) then .stop .wait
  else match s.counterAt w.part (s.asid w) w.slice va with
    | (s, .error cause) => .stop (trapWord s cause va)
    | (s, .ok (.error pa)) => .stop (frozenAt s va wr pa)
    | (s, .ok (.ok r)) => if r.ready then .go s r else .stop .wait

/-- The checks of a word that reads a counter into some s registers: it consumes the poison of the counter's line (R282, R283). -/
def State.ctrRead (s : State) (va : DWord) (regs : List Nat) : CAcc :=
  match s.ctrReach va false with
  | .stop r => .stop r
  | .go s c => match s.reachCtr c (s.uniReq regs) with
    | (s, true) => .stop (trapWord s Config.causeMemoryError va)
    | (s, false) => .go s c

/-- An engine fault that this unit must report (R142): on a counter it waits for, or a failed completion add whatever the
counter. -/
def Warp.pendingFault (w : Warp) (hit : Held → Bool) : Option Held := w.held.find? hit

/-- Threads take the trap of a faulted SEALU, whose context is void unless they return (R191). -/
def Warp.sealTrap (w : Warp) (h : Held) (m : Word) : Warp :=
  if h.sealu then { w with sealCtx := w.sealCtx.map fun k => { k with bad := k.bad ||| m } } else w

/-- Takes an Engine trap for a held fault (R142): F is cleared and the fault is no longer held when a member takes it; a
group wholly in regions aborts instead (R249) and takes nothing. -/
def engineTrap (s : State) (h : Held) : GRes :=
  let c := s.cur
  let w := s.unit c.u
  let r := trapRec Config.causeEngine h.taddr
  let took := w.lanesWhere c.members (fun t => !t.inRegion)
  if took = 0#32 then .trap s c.pc r
  else
    let s := s.modUnit c.u fun w => ({ w with held := w.held.erase h } : Warp).sealTrap h took
    let s := match h.tile with
      | some t => s.modTile h.team t fun e => { e with f := false }
      | none => s
    .trap s c.pc r

/-- A word that waits on or reads a counter reports a pending Engine fault first (R142, R273, R274). -/
def reporting (s : State) (va : DWord) (k : GRes) : GRes :=
  match (s.unit s.cur.u).pendingFault fun h => h.failedAdd || h.ctr == va with
  | some h => engineTrap s h
  | none => k

/-- The value of a counter word's s operand: one register, or a pair where W = 1 (R272). -/
def Uni.csrc (u : Uni) : CSrc → DWord
  | .one r => (u.getS r.val).setWidth 64
  | .pair n => u.getPair n.val

/-- CADD and CADDR (R272). -/
def addCounter (q : BitVec 3) (bp : Fin 8) (b : CSrc) (order : State → Agent → Nat → State) : State → Out State :=
  issueG q true .both (.ends Config.abDisallowed) (.ends Config.abDisallowed) false fun s =>
    let u := s.cur.u
    let w := s.unit u
    match s.ctrReach (w.u.getPair bp.val) true with
    | .stop r => r
    | .go s c => .done (order (s.counterAdd w.part w.slice c (w.u.csrc b) (s.uniReq [])) (.unit u) c.loc)

/-- CADD (R272): relaxed. -/
def execCadd (q : BitVec 3) (_scope : BitVec 2) (bp : Fin 8) (b : CSrc) (s : State) : Out State :=
  addCounter q bp b (fun s ag loc => relaxedAt s ag loc) s

/-- CADDR (R272): a release at its scope field. -/
def execCaddr (q : BitVec 3) (scope : BitVec 2) (bp : Fin 8) (b : CSrc) (s : State) : Out State :=
  addCounter q bp b (fun s ag loc => releaseAt s ag scope loc) s

/-- CREAD (R273). -/
def execCread (q : BitVec 3) (d : Fin 32) (_scope : BitVec 2) (bp : Fin 8) (s : State) : Out State :=
  issueG q true .both .acts .acts false
    (fun s =>
      let u := s.cur.u
      let va := (s.unit u).u.getPair bp.val
      reporting s va
        (match s.ctrRead va (pairRegs d.val) with
         | .stop r => r
         | .go s c => .done ((seeCtr s (.unit u) c.loc).modUni u fun x => x.setPair d.val (s.counterVal c.key)))) s

/-! ### User interrupts (R170) -/

/-- Whether a unit's pending interrupt can be taken: no handler runs, and no thread is in trap mode (R170, R298); one that is to end the
regions of the warp once its lane gives back the serial token is taken after that (R248). -/
def Warp.uintReady (w : Warp) : Bool :=
  (w.u.uint.any fun i => !i.due) && w.u.uframe.isNone && !((lanesOf w.liveMask).any fun l => (w.lane l).trapMode)

/-- Takes a pending interrupt in the threads of a mask (R170): the frame saves the offset, the slot and s62 and s63, and the
threads continue at UIVEC. The handler's entry acquires what the UINT released (R169). -/
def State.deliverUint (s : State) (u : Nat) (m off : Word) (slot : Nat) : State :=
  let w := s.unit u
  match w.u.uint with
  | none => s
  | some i =>
    let x := { w.u with uframe := some { off, slot, s62 := w.u.getS 62, s63 := w.u.getS 63 }, uint := none }
    let s := s.setUnit u { w with u := (x.setS 62 i.payload).setS 63 i.sender }
    let s := s.modLanes u m fun _ t => { t.dropLatches with wait := .none, pc := w.u.uivec }
    { s with order := ((s.order.acquireVC (.unit u) i.vc).endRegion (.unit u)).1 }

/-- The yields and waits at which a warp takes a pending interrupt (R170): the instruction does not act. A Reckoner takes
its own at an instruction boundary. -/
def atYield (s : State) (k : GRes) : GRes :=
  let c := s.cur
  let w := s.unit c.u
  if !w.reck && w.uintReady then .done ((s.deliverUint c.u c.members c.pc c.slot).yieldBy c.u c.members) else k

/-- Blocks the members at the word, which yields (R24, R274, R275). -/
def State.blockAt (s : State) (w : Wait) : State :=
  let c := s.cur
  (s.modLanes c.u c.members fun _ t => { t with wait := w, pc := c.pc }).yieldBy c.u c.members

/-! ### Waits (R274) -/

/-- WAITGE and WAITTO (R274): `dl` is the deadline, if there is one, and `fin` sets q0. -/
def waitCounter (q : BitVec 3) (scope : BitVec 2) (bp : Fin 8) (b : CSrc) (dl : State → Warp → Option DWord)
    (fin : Bool → Uni → Uni) : State → Out State :=
  issueG q true .both (.ends Config.abDisallowed) (.ends Config.abDisallowed) true fun s =>
    let c := s.cur
    let w := s.unit c.u
    let va := w.u.getPair bp.val
    let th := w.u.csrc b
    reporting s va (atYield s
      (match s.ctrRead va [] with
       | .stop r => r
       | .go s r =>
         if th.toNat ≤ (s.counterVal r.key).toNat then
           .done (((acquireCtr s (.unit c.u) scope r.loc).modUni c.u (fin true)).yieldBy c.u c.members)
         else match dl s w with
           | some t =>
             if t.toNat ≤ (s.clk w).toNat then .done ((s.modUni c.u (fin false)).yieldBy c.u c.members)
             else .done (s.blockAt (.counter va th scope (some t) c.members))
           | none => .done (s.blockAt (.counter va th scope none c.members))))

/-- WAITGE (R274). -/
def execWaitge (q : BitVec 3) (scope : BitVec 2) (bp : Fin 8) (b : CSrc) (s : State) : Out State :=
  waitCounter q scope bp b (fun _ _ => none) (fun _ u => u) s

/-- WAITTO (R274): q0 says whether the wait was satisfied. -/
def execWaitto (q : BitVec 3) (t : Fin 64) (scope : BitVec 2) (bp : Fin 8) (b : CSrc) (s : State) : Out State :=
  waitCounter q scope bp b (fun s w => some (s.clk w + (w.u.getS t.val).setWidth 64)) (fun ok u => u.setQ 0 ok) s

/-! ### Residency (R267, R268) -/

/-- The 64 KiB pages of a byte range, as addresses. -/
def pagesOf (va n : Nat) : List Nat :=
  if n = 0 then []
  else (List.range ((va + n - 1) / 65536 - va / 65536 + 1)).map fun i => (va / 65536 + i) * 65536

/-- What a walk finds for a page outside the heap window, where a table in no range of the partition makes it invalid; none in the heap
(R210, log 17). -/
def State.pageAt (s : State) (p : Part) (c : Ctx) (page : Nat) : Option (Option Xlat) :=
  if 2 ^ 55 ≤ page then some none
  else if (c.heap page).isSome then none else some ((s.walk p c page).filter fun x => !x.out)

/-- The first page of a range that is not valid (R267). -/
def State.firstInvalid (s : State) (p : Part) (c : Ctx) (va n : Nat) : Option Nat :=
  (pagesOf va n).find? fun g => s.pageAt p c g == some none

/-- Why the walk of a range of pages stops: a page is not valid, a table lies at an address in no range of the partition (R344), a table's
line is poisoned, or its home is not ready (R283, R307, R339). -/
inductive PageStop where
  | invalid
  | outside (pa : Nat)
  | poison
  | wait
deriving DecidableEq, Repr

/-- The pages of a range are walked in order (R267), up to the first at which the walk stops. -/
def State.walkPages (s : State) (p : Part) (c : Ctx) : List Nat → State × Option (Nat × PageStop)
  | [] => (s, none)
  | g :: r =>
    if 2 ^ 55 ≤ g then (s, some (g, .invalid))
    else if (c.heap g).isSome then s.walkPages p c r
    else if (s.walkLocs p c g).any fun l => !(s.lineReady l.key false) then (s, some (g, .wait))
    else match s.readWalk (s.walkLocs p c g) with
      | (s, true) => (s, some (g, .poison))
      | (s, false) => match s.walk p c g with
        | none => (s, some (g, .invalid))
        | some x => if x.out then (s, some (g, .outside x.pa)) else s.walkPages p c r

/-- Whether every page of a range is resident. -/
def State.rangeResident (s : State) (p : Part) (c : Ctx) (va n : Nat) : Bool :=
  (pagesOf va n).all fun g => match s.pageAt p c g with
    | none => true
    | some none => false
    | some (some x) => x.p

/-- The slot controller's add of 1 to a counter, a release at the counter's scope (R267). -/
def State.slotCtlAdd (s : State) (pn : Nat) (r : CtrRef) : State :=
  releaseAt (s.counterAdd pn (s.part pn).corner r 1#64) (.slotCtl pn) r.scope r.loc

/-- PGREQ (R267): the range's pages are walked, the counter is checked, and the request is made; a resident range gives its
add at once. A walk that finds poison gives Memory-Error (log 116). -/
def execPgreq (q : BitVec 3) (c r : Fin 8) (b : Fin 64) (s : State) : Out State :=
  issueG q true .both (.ends Config.abDisallowed) (.ends Config.abDisallowed) false
    (fun s =>
      let w := s.unit s.cur.u
      let p := s.part w.part
      let cx := p.ctx (s.asid w)
      let va := (w.u.getPair r.val).toNat
      let n := (w.u.getS b.val).toNat
      let ctr := w.u.getPair c.val
      match s.walkPages p cx (pagesOf va n) with
      | (s, some (g, .invalid)) => trapWord s Config.causeTranslation (BitVec.ofNat 64 g)
      | (s, some (g, .outside pa)) => frozenAt s (BitVec.ofNat 64 g) false pa
      | (s, some (g, .poison)) => trapWord s Config.causeMemoryError (BitVec.ofNat 64 g)
      | (_, some (_, .wait)) => .wait
      | (s, none) =>
        match s.ctrReach ctr true with
        | .stop g => g
        | .go s k =>
          if s.rangeResident p cx va n then .done (s.slotCtlAdd w.part k)
          else
            let req : PgReq := { id := s.nextId, asid := s.asid w, va, len := n, ctr := some ctr.toNat, grid := w.grid }
            .done (({ s with nextId := s.nextId + 1 } : State).modPart w.part fun p => { p with pgreqs := p.pgreqs ++ [req] })) s

/-- PGADV (R268): advice for the kernel; never traps, never waits. `.will` asks for the range as a PGREQ without a counter does. -/
def execPgadv (q : BitVec 3) (k : Fin 4) (bp : Fin 8) (b : Fin 64) (s : State) : Out State :=
  issueG q true .both .acts .acts false
    (fun s =>
      let w := s.unit s.cur.u
      let va := (w.u.getPair bp.val).toNat
      let len := (w.u.getS b.val).toNat
      let s := s.modPart w.part fun p => { p with advice := p.advice ++ [{ asid := s.asid w, va, len, kind := k.val }] }
      if k = 0 then
        let req : PgReq := { id := s.nextId, asid := s.asid w, va, len, ctr := none, grid := w.grid }
        .done (({ s with nextId := s.nextId + 1 } : State).modPart w.part fun p => { p with pgreqs := p.pgreqs ++ [req] })
      else .done s) s

/-! ### Allocation (R226, R269, R271) -/

/-- Inserts a block in order of address. -/
def insertBlock (b : Nat × Nat) : List (Nat × Nat) → List (Nat × Nat)
  | [] => [b]
  | c :: r => if b.1 ≤ c.1 then b :: c :: r else c :: insertBlock b r

/-- The gaps between blocks that are in order of address, from `lo` to `hi`. -/
def gapsOf (lo hi : Nat) : List (Nat × Nat) → List (Nat × Nat)
  | [] => if lo < hi then [(lo, hi - lo)] else []
  | b :: r => if lo < b.1 then (lo, b.1 - lo) :: gapsOf (b.1 + b.2) hi r else gapsOf (Nat.max lo (b.1 + b.2)) hi r

/-- A place for `n` bytes, aligned to `al`, in a pool whose taken blocks are in order of address; which of the places that
would do is open (log 19). -/
def choosePlace (tick base size al n : Nat) (taken : List (Nat × Nat)) : Option Nat :=
  let fits := (gapsOf base (base + size) taken).filter fun g => decide (n ≤ g.2)
  match fits with
  | [] => none
  | g0 :: _ =>
    let g := fits.getD (Config.allocPick (2 * tick) % fits.length) g0
    some (g.1 + al * (Config.allocPick (2 * tick + 1) % ((g.2 - n) / al + 1)))

/-- PALLOC (R226, R269): the size rounded up to 128 bytes; 0 and q0 := 0 where the pool cannot supply it, or for size 0. -/
def execPalloc (q : BitVec 3) (d : Fin 8) (b : Fin 64) (s : State) : Out State :=
  issueG q true .both (.ends Config.abDisallowed) (.ends Config.abDisallowed) false
    (fun s =>
      let u := s.cur.u
      let w := s.unit u
      let cx := (s.part w.part).ctx (s.asid w)
      let n := ((w.u.getS b.val).toNat + 127) / 128 * 128
      let place := if n = 0 then none else choosePlace s.tick cx.dpbase cx.dpsize 128 n cx.blocks
      match place with
      | none => .done (s.modUni u fun x => (x.setPair d.val 0#64).setQ 0 false)
      | some va =>
        let s := s.modCtx w.part (s.asid w) fun k => { k with blocks := insertBlock (va, n) k.blocks }
        .done (s.modUni u fun x => (x.setPair d.val (BitVec.ofNat 64 va)).setQ 0 true)) s

/-- PFREE (R269): 0 does nothing; an address that starts no live block does nothing but tell Dolrix. -/
def execPfree (q : BitVec 3) (bp : Fin 8) (s : State) : Out State :=
  issueG q true .both (.ends Config.abDisallowed) (.ends Config.abDisallowed) false
    (fun s =>
      let w := s.unit s.cur.u
      let va := (w.u.getPair bp.val).toNat
      if va = 0 then .done s
      else if ((s.part w.part).ctx (s.asid w)).blocks.any fun b => b.1 == va then
        .done (s.modCtx w.part (s.asid w) fun k => { k with blocks := k.blocks.filter fun b => !(b.1 == va) })
      else .done (s.raiseEvent w.part (eventRec 5 0 0 0 (s.grid w.grid).num 0 va 0))) s

/-- The counters of a context's pool as taken blocks. -/
def Ctx.taken (c : Ctx) : List (Nat × Nat) := c.ctrs.foldl (fun acc k => insertBlock (k.va, 8) acc) []

/-- CNEW (R271): a counter of the pool, its value 0 and its scope the scope field; 0 and q0 := 0 where the pool is empty. It waits for
the home of the counter's line (R307). -/
def execCnew (q : BitVec 3) (d : Fin 8) (scope : BitVec 2) (s : State) : Out State :=
  issueG q true .both (.ends Config.abDisallowed) (.ends Config.abDisallowed) false
    (fun s =>
      let u := s.cur.u
      let w := s.unit u
      let cx := (s.part w.part).ctx (s.asid w)
      match choosePlace s.tick cx.cpbase cx.cpsize 8 8 cx.taken with
      | none => .done (s.modUni u fun x => (x.setPair d.val 0#64).setQ 0 false)
      | some va =>
        let s := s.modCtx w.part (s.asid w) fun k => { k with ctrs := { va, scope } :: k.ctrs }
        let gives := fun (s : State) => GRes.done (s.modUni u fun x => (x.setPair d.val (BitVec.ofNat 64 va)).setQ 0 true)
        match s.counterAt w.part (s.asid w) w.slice (BitVec.ofNat 64 va) with
        | (s, .ok (.ok r)) => if r.ready then gives (overwriteAt (s.counterPut w.part w.slice r 0) r.loc 8) else .wait
        | (s, .ok (.error _)) => gives s
        | (s, .error _) => gives s) s

/-- Whether a unit of a context is blocked in a wait on a counter. -/
def State.waitedOn (s : State) (pn asid : Nat) (va : DWord) : Bool :=
  s.units.any fun p =>
    let w := p.2
    w.live && w.part == pn && s.asid w == asid && (lanesOf w.liveMask).any fun l => match (w.lane l).wait with
      | .counter v _ _ _ _ => v == va
      | .none | .barrier _ | .sleep _ _ | .grow _ _ | .tile _ => false

/-- CFREE (R271): Counter where the address is no live counter or a unit waits on it. -/
def execCfree (q : BitVec 3) (bp : Fin 8) (s : State) : Out State :=
  issueG q true .both (.ends Config.abDisallowed) (.ends Config.abDisallowed) false
    (fun s =>
      let w := s.unit s.cur.u
      let va := w.u.getPair bp.val
      if va = 0#64 then .done s
      else match s.ctrReach va true with
        | .stop r => r
        | .go s _ =>
          if s.waitedOn w.part (s.asid w) va then trapWord s Config.causeCounter va
          else .done (s.modCtx w.part (s.asid w) fun k => { k with ctrs := k.ctrs.filter fun x => !(x.va == va.toNat) })) s

/-! ### The barrier and the fences -/

/-- A unit's arrival at its team's barrier is a release at team scope (R275). -/
def State.arrive (s : State) (u : Nat) : State :=
  let (o, v) := s.order.endRegion (.unit u)
  ({ s with order := o } : State).modTeam (s.unit u).team fun t => { t with barVC := VC.join t.barVC v }

/-- TBAR (R275): the arrival is a release at team scope; the last one completes the barrier. -/
def execTbar (q : BitVec 3) (s : State) : Out State :=
  issueG q true .simtOnly (.ends Config.abDisallowed) (.ends Config.abDisallowed) true
    (fun s =>
      let c := s.cur
      let w := s.unit c.u
      atYield s
        (.done (((s.arrive c.u).blockAt (.barrier c.members)).barrierCheck w.team))) s

/-- FENCE (R231, R276): waits until the warp's earlier accesses have been performed. -/
def execFence (q : BitVec 3) (scope : BitVec 2) (s : State) : Out State :=
  issueG q true .both (.ends Config.abDisallowed) (.ends Config.abDisallowed) false
    (fun s =>
      let u := s.cur.u
      if (s.unit u).busy allLanes then .wait else .done (fenceOrder s (.unit u) scope)) s

/-- The clock that covers the accesses a class has made for a unit: each command's agent, and what its accesses follow. -/
def State.classClock (s : State) (u cls : Nat) : VC :=
  s.order.accs.foldl (fun v x => match x.agent with
    | .engine u' c _ => if u' = u ∧ c = cls then VC.raise (VC.join v x.vc) x.agent x.epoch else v
    | .unit _ | .hart _ _ | .port _ | .slotCtl _ => v) []

/-- FENCEX (R238): waits until the issuer's earlier accesses of class c1 have been performed, its commands of that class
having completed or faulted; then orders them before its later ones of c2. -/
def execFencex (q : BitVec 3) (_scope : BitVec 2) (c1 c2 : Fin 7) (s : State) : Out State :=
  issueG q true .both (.ends Config.abDisallowed) (.ends Config.abDisallowed) false
    (fun s =>
      let u := s.cur.u
      let open1 := if c1.val = 0 then (s.unit u).busy allLanes
        else if c1.val = 3 && (s.cores.any fun p => p.2.mq.any fun o => o.u == u) then true
        else s.cmds.any fun k => k.u == u && k.cls == c1.val
      if open1 then .wait
      else .done (fencexOrder s u c1.val c2.val (s.classClock u c1.val))) s

end Sys2Proof.Machine
end

