-- ==== Sys2Proof/Machine/EngineWords.lean ====
section
/-!
DEFINITION. Tile words and engine words at issue (R129 to R132, R140, R142, R176 to R182): G-set 0x49 to 0x56.
-/

namespace Sys2Proof.Machine

/-! ### What every word shares (R177, R178) -/

/-- A Tile-State trap with its reason code (R178). -/
def tileState (s : State) (reason : Nat) : GRes := trapWord s Config.causeTileState (BitVec.ofNat 64 reason)

/-- A Tile-Bounds trap (R287): TADDR is the tile number. -/
def tileBounds (s : State) (t : Nat) : GRes := trapWord s Config.causeTileBounds (BitVec.ofNat 64 t)

/-- A tile wait (R131): the members do not issue and are not runnable until the tile changes; their latches stay. -/
def tileWait (t : Nat) : GRes := .queued fun s => s.modLanes s.cur.u s.cur.members fun _ x => { x with wait := .tile t }

/-- A word of this chapter that both kinds of unit issue: it acts for the unit's tile team (R177), and ends an open region
with CODE 0x06. -/
def tileWord (q : BitVec 3) (inReg : InReg) (f : State → Nat → GRes) : State → Out State :=
  issueG q true .both inReg inReg false fun s =>
    match s.tileTeam (s.unit s.cur.u) with
    | none => tileState s 1
    | some tm => f s tm

/-- The Engine trap of a word that names a tile of a faulted command of the same issuer (R142, R178), before any other
check. -/
def naming (s : State) (tm t : Nat) (k : GRes) : GRes :=
  match (s.unit s.cur.u).pendingFault fun h => h.team == tm && h.tile == some t with
  | some h => engineTrap s h
  | none => k

/-! ### Tile definitions (R179 to R181) -/

/-- TILEDEF and METADEF (R130, R179). -/
def defTile (q : BitVec 3) (kind : Bool) (t a b : Fin 64) : State → Out State :=
  tileWord q (.ends Config.abDisallowed) fun s tm =>
    let u := (s.unit s.cur.u).u
    let e := s.tile tm t.val
    let base := (u.getS a.val).toNat
    let ext := (u.getS b.val).toNat
    naming s tm t.val
      (if e.f then tileWait t.val
       else if e.st ≠ .empty then tileState s 7
       else if base % 256 ≠ 0 ∨ ext = 0 ∨ (s.team tm).win < base + ext then tileBounds s t.val
       else .done (s.modTile tm t.val fun e => { e with base, extent := ext, kind, f := false }))

/-- TILEDEF (R179). -/
def execTiledef (q : BitVec 3) (t a b : Fin 64) (s : State) : Out State := defTile q false t a b s

/-- METADEF (R179). -/
def execMetadef (q : BitVec 3) (t a b : Fin 64) (s : State) : Out State := defTile q true t a b s

/-- TILEREL (R180): a READY tile without readers becomes EMPTY; otherwise the word waits. -/
def execTilerel (q : BitVec 3) (t : Fin 64) (s : State) : Out State :=
  tileWord q (.ends Config.abDisallowed)
    (fun s tm =>
      let e := s.tile tm t.val
      naming s tm t.val
        (if e.st = .ready ∧ e.readers = 0 then .done (s.modTile tm t.val fun e => { e with st := .empty })
         else tileWait t.val)) s

/-- The number of a tile state (R129). -/
def TileSt.num : TileSt → Nat
  | .empty => 0
  | .filling => 1
  | .ready => 2
  | .draining => 3

/-- TSTATE's word (R181). -/
def tstateWord (e : TileEnt) : Word :=
  BitVec.ofNat 32 (e.base / 256 * 2 ^ 11 + e.readers % 256 * 8 + (if e.kind then 4 else 0) + e.st.num)

/-- TSTATE (R181): never waits; READY is an acquire at team scope of the completion that made the tile READY (R132). -/
def execTstate (q : BitVec 3) (d t : Fin 64) (s : State) : Out State :=
  tileWord q .acts
    (fun s tm =>
      let u := s.cur.u
      let e := s.tile tm t.val
      naming s tm t.val
        (let s := match e.st, e.done with
           | .ready, some (a, v) =>
             if scopesMeet s 0#2 a 0#2 (.unit u) then { s with order := ((s.order.acquirePath (.unit u) v).endRegion (.unit u)).1 }
             else s
           | .ready, none | .empty, _ | .filling, _ | .draining, _ => s
         .done (s.modUni u fun x => x.setS d.val (tstateWord e)))) s

/-! ### Engine commands at issue (R140, R182) -/

/-- The engine class of a command (R53, R182). -/
def CmdOp.cls : CmdOp → Nat
  | .cpyin | .cpyout | .cpygg => 1
  | .gather | .scatter => 2
  | .coll => 4
  | .sealb | .sealu | .sealf => 5
  | .ckpt => 6

/-- Check 2 of R182: the tile-state rule of R131. -/
def tileRule (s : State) (tm : Nat) (op : CmdOp) (t : Nat) (k : GRes) : GRes :=
  let e := s.tile tm t
  match op with
  | .cpyin | .gather =>
    if e.st ≠ .empty then tileState s 7 else if e.extent = 0 then tileBounds s t else k
  | .cpyout | .scatter => if e.st = .ready then k else tileWait t
  | .cpygg | .coll | .sealb | .sealu | .sealf | .ckpt => k

/-- The tile's state once a command is accepted (R131). -/
def CmdOp.accept (op : CmdOp) (e : TileEnt) : TileEnt :=
  match op with
  | .cpyin | .gather => { e with st := .filling }
  | .cpyout | .scatter => { e with st := .draining }
  | .cpygg | .coll | .sealb | .sealu | .sealf | .ckpt => e

/-- Check 3 of R182: a local record must be 64-byte aligned and wholly inside the window. -/
def recordRule (s : State) (tm : Nat) (op : CmdOp) (a : Word) (k : GRes) : GRes :=
  if op.recordLen = 0 then k
  else if a.toNat % 64 ≠ 0 then trapWord s Config.causeMisaligned (a.setWidth 64)
  else if (s.team tm).win < a.toNat + op.recordLen then trapWord s Config.causeProtection (a.setWidth 64)
  else k

/-- Check 4 of R182: the team's chain of the class holds at most 16 commands (R140). -/
def State.chainFull (s : State) (tm cls : Nat) : Bool :=
  decide (16 ≤ (s.cmds.filter fun c => c.team == tm && c.cls == cls).length)

/-- Appends a command, which captures its operands, CCNT, the clock its release covers and the clock it starts from. -/
def State.addCmd (s : State) (tm : Nat) (op : CmdOp) (tile : Option Nat) (bp bp2 : DWord) (sval : Word) : State :=
  let u := s.cur.u
  let w := s.unit u
  let (o, v) := s.order.endRegion (.unit u)
  let s : State := { s with order := o }
  let c : Cmd := { id := s.nextId, u, team := tm, cls := op.cls, op, tile, bp, bp2, sval, ccnt := w.u.ccnt, rel := v,
                   start := (match tile with
                     | some t => VC.join (engineStart s u op.cls) (s.tile tm t).vc
                     | none => engineStart s u op.cls), recb := [], st := .queued, grid := w.grid, marked := [],
                   copies := [], msgs := [], done := [] }
  let s : State := { s with cmds := s.cmds ++ [c], nextId := s.nextId + 1 }
  match tile with
  | some t => s.modTile tm t op.accept
  | none => s

/-- An engine word: its checks in the order of R182, then its command, whose release comes after the unit's older accesses (R140,
R230). -/
def engineWord (q : BitVec 3) (op : CmdOp) (t : Option (Fin 64)) (bp bp2 : Option (Fin 8)) (b : Option (Fin 64)) :
    State → Out State :=
  tileWord q (.ends Config.abDisallowed) fun s tm =>
    let u := (s.unit s.cur.u).u
    let pair := fun (x : Option (Fin 8)) => match x with
      | some n => u.getPair n.val
      | none => 0#64
    let sval := match b with
      | some r => u.getS r.val
      | none => 0#32
    let tail := recordRule s tm op sval
      (if s.chainFull tm op.cls || (s.unit s.cur.u).busy allLanes then .wait
       else .done (s.addCmd tm op (t.map (·.val)) (pair bp) (pair bp2) sval))
    match t with
    | some t => naming s tm t.val (tileRule s tm op t.val tail)
    | none => tail

/-- CPYIN (R182, R184). -/
def execCpyin (q : BitVec 3) (t : Fin 64) (bp : Fin 8) (b : Fin 64) (s : State) : Out State :=
  engineWord q .cpyin (some t) (some bp) none (some b) s

/-- CPYOUT (R182, R184). -/
def execCpyout (q : BitVec 3) (t : Fin 64) (bp : Fin 8) (b : Fin 64) (s : State) : Out State :=
  engineWord q .cpyout (some t) (some bp) none (some b) s

/-- CPYGG (R182, R185): from the second pair to the first. -/
def execCpygg (q : BitVec 3) (d bp : Fin 8) (b : Fin 64) (s : State) : Out State :=
  engineWord q .cpygg none (some bp) (some d) (some b) s

/-- GATHER (R182, R186). -/
def execGather (q : BitVec 3) (t : Fin 64) (bp : Fin 8) (b : Fin 64) (s : State) : Out State :=
  engineWord q .gather (some t) (some bp) none (some b) s

/-- SCATTER (R182, R186). -/
def execScatter (q : BitVec 3) (t : Fin 64) (bp : Fin 8) (b : Fin 64) (s : State) : Out State :=
  engineWord q .scatter (some t) (some bp) none (some b) s

/-- COLL (R182, R188). -/
def execColl (q : BitVec 3) (bp : Fin 8) (b : Fin 64) (s : State) : Out State :=
  engineWord q .coll none (some bp) none (some b) s

/-- SEALB (R182, R191). -/
def execSealb (q : BitVec 3) (bp : Fin 8) (b : Fin 64) (s : State) : Out State :=
  engineWord q .sealb none (some bp) none (some b) s

/-- SEALU (R182, R191). -/
def execSealu (q : BitVec 3) (bp : Fin 8) (b : Fin 64) (s : State) : Out State :=
  engineWord q .sealu none (some bp) none (some b) s

/-- SEALF (R182, R191). -/
def execSealf (q : BitVec 3) (bp : Fin 8) (s : State) : Out State := engineWord q .sealf none (some bp) none none s

/-- CKPT (R182, R193). -/
def execCkpt (q : BitVec 3) (bp : Fin 8) (s : State) : Out State := engineWord q .ckpt none (some bp) none none s

end Sys2Proof.Machine
end

