-- ==== Sys2Proof/Machine/Completion.lean ====
section
/-!
DEFINITION. What engine commands and matrix instructions share when they run (R122, R140, R142, R158, R183, R235): their
agents, the completion add with its release, and a fault held for the issuer.
-/

namespace Sys2Proof.Machine

/-- Gives a command's agent the clock it starts from (R228, R238). -/
def State.bearAgent (s : State) (a : Agent) (start : VC) : State :=
  { s with order := s.order.setAgent a { AgentOrd.init with vc := start } }

/-- Forgets the ordering state of a command's agent once it has ended; its accesses stay recorded. -/
def State.dropAgent (s : State) (a : Agent) : State :=
  { s with order := { s.order with agents := s.order.agents.filter fun p => !(p.1 == a) } }

/-- The clock that covers a command's own accesses and those before its start. -/
def ownClock (a : Agent) (start : VC) : VC := VC.raise start a 1

/-- What stops an engine access: a fault at this address (R142), a violation of the firewall (R304), or a wait (R219, R307). -/
inductive EngStop where
  | bad (va : DWord)
  | fire (va : DWord) (wr : Bool) (pa : Nat)
  | wait
deriving DecidableEq, Repr

/-- A fault held for its issuer (R142); if the issuer has ended, the kernel receives it at once as an engine event. -/
def State.holdFault (s : State) (u grid : Nat) (h : Held) : State :=
  let w := s.unit u
  if w.live then s.modUnit u fun w => { w with held := w.held ++ [h] }
  else
    let s := s.raiseEvent w.part (eventRec 3 h.cls 0 0 (s.grid grid).num 0 h.taddr.toNat 0)
    match h.tile with
    | some t => s.modTile h.team t fun e => { e with f := false }
    | none => s

/-- A failed completion add, held for the issuer (R142, R158). -/
def State.failAdd (s : State) (u grid team cls : Nat) (ctr : DWord) : State :=
  s.holdFault u grid { team, tile := none, ctr, failedAdd := true, sealu := false, cls, taddr := ctr }

/-- The completion add of 1 to a captured counter, with release at the counter's scope (R122, R140, R158); it waits while the
counter's home is not ready (R307), and may violate the firewall (R304). A failed add is held for the issuer. -/
def State.completionAdd (s : State) (u grid team cls : Nat) (a : Agent) (ctr : DWord) (v : VC) : State × Option EngStop :=
  let w := s.unit u
  if ctr = 0#64 then (s, none)
  else match s.counterAt w.part (s.grid grid).asid w.slice ctr with
    | (s, .error _) => (s.failAdd u grid team cls ctr, none)
    | (s, .ok (.error pa)) => (s, some (.fire ctr true pa))
    | (s, .ok (.ok r)) =>
      if !r.ready then (s, some .wait)
      else (publish (s.counterAdd w.part w.slice r 1#64) a r.scope r.loc 8 v, none)

/-- The slice whose state names whether an issuer's engines may start (R299): its partition is not stalled. -/
def State.mayStart (s : State) (u : Nat) : Bool := !((s.part (s.unit u).part).stalled)

end Sys2Proof.Machine
end

