-- ==== Sys2Proof/Machine/Overlay.lean ====
section
/-!
DEFINITION. Overlay images (R161 to R163): where an image's bytes lie, the checks that every load makes, and the load itself.
-/

namespace Sys2Proof.Machine

/-- The pieces of a byte range that lie in one 128-byte line each: address and length. -/
def lineChunks (va n : Nat) : List (Nat × Nat) :=
  (List.range ((va % 128 + n + 127) / 128)).map fun i =>
    let lo := if i = 0 then va else (va / 128 + i) * 128
    (lo, Nat.min (va + n) ((va / 128 + i + 1) * 128) - lo)

/-- Why an image cannot be loaded: a trap cause, a firewall violation at a physical address, or a line that is not ready (R283,
R307, R339). -/
inductive ImgErr where
  | trap (cause : Nat)
  | fire (pa : Nat)
  | wait
deriving DecidableEq, Repr

/-- Reads part of an image: every page must translate, be resident and have X = 1 (R162); poison is consumed as a load
consumes it (R282). -/
def State.imageBytes (s : State) (pn asid sl va n : Nat) : State × Except ImgErr (List Byte) :=
  (lineChunks va n).foldl (fun (r : State × Except ImgErr (List Byte)) c =>
    match r with
    | (s, .error e) => (s, .error e)
    | (s, .ok bs) =>
      if s.walkWaits pn asid sl (BitVec.ofNat 64 c.1) then (s, .error .wait)
      else match s.translate pn asid sl (BitVec.ofNat 64 c.1) with
      | (s, .error cause) => (s, .error (.trap cause))
      | (s, .ok x) =>
        if !x.p then (s, .error (.trap Config.causeTranslation))
        else if !x.x then (s, .error (.trap Config.causeProtection))
        else match (s.part pn).locate x.pa with
          | none => (s, .error (.fire x.pa))
          | some l =>
            if !(s.lineReady l.key (x.pol == 2)) then (s, .error .wait)
            else
              let (s, bad) := s.reachLine l.key [0, 1] (x.pol == 2) l.cls
              if bad then (s, .error (.trap Config.causeMemoryError))
              else (s, .ok (bs ++ s.bytes l.key c.2))) (s, .ok [])

/-- A header that R161 allows: LEN a multiple of 4 from 4 to 65536, and the rest zero. Answers LEN. -/
def headerLen (h : List Byte) : Option Nat :=
  let n := fieldAt h 0 4
  if n % 4 = 0 ∧ 4 ≤ n ∧ n ≤ 65536 ∧ zeroAt h 4 12 then some n else none

/-- Code bytes as words. -/
def codeWords (bs : List Byte) : List Word := (List.range (bs.length / 4)).map fun i => leWord ((bs.drop (4 * i)).take 4)

/-- Loads an image: alignment, the header's page, the header, then every page of the code (R161, R162). -/
def State.loadImage (s : State) (pn asid sl va : Nat) : State × Except ImgErr (List Word) :=
  if va % 128 ≠ 0 then (s, .error (.trap Config.causeMisaligned))
  else match s.imageBytes pn asid sl va 16 with
    | (s, .error e) => (s, .error e)
    | (s, .ok h) =>
      match headerLen h with
      | none => (s, .error (.trap Config.causeOverlayTag))
      | some n =>
        match s.imageBytes pn asid sl (va + 16) n with
        | (s, .error e) => (s, .error e)
        | (s, .ok bs) => (s, .ok (codeWords bs))

/-- Sets an overlay slot of a core. -/
def State.setOvl (s : State) (core slot : Nat) (o : Ovl) : State :=
  s.modCore core fun c => if slot = 0 then { c with ov0 := o } else { c with ov1 := o }

/-- Sets the slot of a Reckoner. -/
def State.setRovl (s : State) (key : Nat) (o : Ovl) : State := { s with rovl := Tab.put s.rovl key o }

/-- Whether a live warp of a core executes from a slot (R161): some thread of it is in that slot. -/
def State.slotBusy (s : State) (core slot : Nat) : Bool :=
  s.units.any fun p =>
    let w := p.2
    w.live && !w.reck && w.coreKey == core && !(w.wd == .saved) && (lanesOf w.liveMask).any fun l => (w.lane l).slot == slot

/-- Whether the copy of an OVLOAD into a slot of a core is under way (R162). -/
def State.loadPending (s : State) (core slot : Nat) : Bool :=
  s.units.any fun p => p.2.live && p.2.coreKey == core && match p.2.ovw with
    | some o => o.copying && o.slot == slot
    | none => false

end Sys2Proof.Machine
end

