-- ==== Sys2Proof/Machine/EngineAccess.lean ====
section
/-!
DEFINITION. How an engine command moves bytes (R128, R142, R183, R184, R187): its accesses to global memory and to the local
window, the operations a command is made of, and what a command that faults has already written.
-/

namespace Sys2Proof.Machine

/-- The agent of a command (R228). -/
def Cmd.agent (c : Cmd) : Agent := .engine c.u c.cls c.id

/-! ### Accesses -/

/-- Where an engine access of `n` bytes goes, with the checks of R217; an engine never uses residency (R184), and a write to a
page that is being copied waits (R219). `al` is the alignment the access needs. -/
def State.engReach (s : State) (c : Cmd) (va : DWord) (al n : Nat) (wr : Bool) : State × Except EngStop (Acc1 × Xlat) :=
  let w := s.unit c.u
  match s.permit w.part (s.grid c.grid).asid w.slice va al wr with
  | (s, .trap _) => (s, .error (.bad va))
  | (s, .nonres) => (s, .error (.bad va))
  | (s, .wait) => (s, .error .wait)
  | (s, .ok x) =>
    match (s.part w.part).locate x.pa with
    | none => (s, .error (.fire va (x.wr wr) x.pa))
    | some l =>
      if !(s.lineReady l.key (x.pol == 2)) || (wr && x.sn) then (s, .error .wait)
      else (s, .ok (x.acc c.agent (s.order.clock c.agent) w.part l n, x))

/-- An engine's read of bytes that lie in one line. -/
def State.engRead (s : State) (c : Cmd) (va : DWord) (al n : Nat) : State × Except EngStop (List Byte) :=
  match s.engReach c va al n false with
  | (s, .error e) => (s, .error e)
  | (s, .ok (a, _)) => match s.perfLoad a none with
    | (s, .ok bs) => (s, .ok bs)
    | (s, .error _) => (s, .error (.bad va))

/-- Where the 16 lines of a 2 KiB block lie, for packets to the stack controller, which reach it whatever is cached (R348). -/
def State.blockReach (s : State) (c : Cmd) (va : Nat) : State × Except EngStop (List (Nat × Acc1)) :=
  (List.range 16).foldl (fun (r : State × Except EngStop (List (Nat × Acc1))) i =>
    let v := va + 128 * i
    match r with
    | (s, .error e) => (s, .error e)
    | (s, .ok ls) => match s.engReach c (BitVec.ofNat 64 v) 1 128 false with
      | (s, .error e) => (s, .error e)
      | (s, .ok (a, _)) =>
        if s.lineReady a.key true then (s, .ok (ls ++ [(v, { a with unc := true })])) else (s, .error .wait)) (s, .ok [])

/-- Whether the lines of a block lie one after another on a stack, where one packet reads them (R348). -/
def onePacket (ls : List (Nat × Acc1)) : Bool :=
  (ls.zip (ls.drop 1)).all fun p => p.1.2.key + 128 == p.2.2.key && p.1.2.key / 2 ^ 36 == p.2.2.key / 2 ^ 36

/-- An engine's read of a block (R348): every line of it is read, whatever another shows, by one packet that makes one request of its
bank, or by the lines one by one where the block spans stacks. -/
def State.engBlock (s : State) (c : Cmd) (va : Nat) : State × Except EngStop (List Byte) :=
  match s.blockReach c va with
  | (s, .error e) => (s, .error e)
  | (s, .ok ls) =>
    let one := onePacket ls
    let r := ls.foldl (fun (r : State × Option Nat × List Byte) l =>
      match r.1.perfLoad { l.2 with req := { l.2.req with joined := one && !(l.1 == va) } } none with
      | (s, .ok bs) => (s, r.2.1, r.2.2 ++ bs)
      | (s, .error _) => (s, some (r.2.1.getD l.1), r.2.2)) (s, none, [])
    (r.1, match r.2.1 with
      | some v => .error (.bad (BitVec.ofNat 64 v))
      | none => .ok r.2.2)

/-- An engine's write of bytes that lie in one line. -/
def State.engWrite (s : State) (c : Cmd) (va : DWord) (al : Nat) (bs : List Byte) : State × Option EngStop :=
  match s.engReach c va al bs.length true with
  | (s, .error e) => (s, some e)
  | (s, .ok (a, x)) => match s.perfStore a bs none with
    | (s, .ok _) => (s.setDirty (s.unit c.u).slice x, none)
    | (s, .error _) => (s, some (.bad va))

/-- An engine's read of a byte range, line by line. -/
def State.engReadSpan (s : State) (c : Cmd) (va n : Nat) : State × Except EngStop (List Byte) :=
  (lineChunks va n).foldl (fun (r : State × Except EngStop (List Byte)) p =>
    match r with
    | (s, .error e) => (s, .error e)
    | (s, .ok bs) => match s.engRead c (BitVec.ofNat 64 p.1) 1 p.2 with
      | (s, .ok b) => (s, .ok (bs ++ b))
      | (s, .error e) => (s, .error e)) (s, .ok [])

/-- An engine's write of a byte range, line by line. -/
def State.engWriteSpan (s : State) (c : Cmd) (va : Nat) (bs : List Byte) : State × Option EngStop :=
  (lineChunks va bs.length).foldl (fun (r : State × Option EngStop) p =>
    match r with
    | (s, some e) => (s, some e)
    | (s, none) => s.engWrite c (BitVec.ofNat 64 p.1) 1 ((bs.drop (p.1 - va)).take p.2)) (s, none)

/-- An engine's atomic add on a word, at slice scope (R187). -/
def State.engAtomic (s : State) (c : Cmd) (va : DWord) (op : AtomOp) (x : Word) : State × Option EngStop :=
  match s.engReach c va 4 4 true with
  | (s, .error e) => (s, some e)
  | (s, .ok (a, t)) => match s.perfAtomic a op (x.setWidth 64) 0#32 1#2 0#2 with
    | (s, .ok _) => (s.setDirty (s.unit c.u).slice t, none)
    | (s, .error _) => (s, some (.bad va))

/-- An engine's access to a range of its team's window, judged for races (R183, R234); TADDR is its local address. -/
def State.engLocal (s : State) (c : Cmd) (lo n : Nat) (wr : Bool) : State × Option EngStop :=
  match raceOf s c.agent (s.order.clock c.agent) (.loc c.team) lo n wr none with
  | some _ => (s, some (.bad (BitVec.ofNat 64 lo)))
  | none => (noteAccess s c.agent (.loc c.team) lo n wr none, none)

/-! ### Operations -/

/-- One thing a command does. Tile addresses are local byte addresses; the operations of R184, R185, R187 and R348 are all
made of these. -/
inductive EOp where
  /-- A fault at this address. -/
  | refuse (va : DWord)
  /-- Zero bytes of a tile. -/
  | fill (ta n : Nat)
  /-- An element from memory to a tile. -/
  | load (va : DWord) (n ta : Nat)
  /-- An element from a tile to memory. -/
  | store (ta n : Nat) (va : DWord)
  /-- A packed FP6 element from memory, `sh` bits into the byte at `va`, of the row that starts at `row` (R141). -/
  | loadBits (row va : DWord) (sh ta : Nat)
  /-- A packed FP6 element to memory. -/
  | storeBits (ta : Nat) (row va : DWord) (sh : Nat)
  /-- A permuted 2 KiB block (R348), of whose delivered bytes the first `valid` are kept and the rest zero. -/
  | block (va : DWord) (code valid ta : Nat)
  /-- An element from memory, or a zero, to memory (R185). -/
  | move (src : Option DWord) (dst : DWord) (n : Nat)
  /-- An atomic add of a tile word to memory (R187). -/
  | rmw (ta : Nat) (va : DWord) (op : AtomOp)
  /-- Bytes to memory. -/
  | put (va : Nat) (bs : List Byte)
deriving DecidableEq, Repr

/-- Writes bytes of the window of the command's team. -/
def State.tileWrite (s : State) (c : Cmd) (ta : Nat) (bs : List Byte) : State := s.modTeam c.team fun t => t.writeBytes ta bs

/-- The stored byte that a layout code delivers at byte y of a 2 KiB block (R348). -/
def layoutByte (code y : Nat) : Nat :=
  if code = 1 then
    let e := y / 2
    2 * (32 * (e % 32) + e / 32) + y % 2
  else if code = 2 then 64 * (y % 32) + y / 32
  else if code = 3 then
    let t := y / 128
    let u := y % 128 / 2
    2 * (32 * (8 * (t / 4) + u / 8) + (8 * (t % 4) + u % 8)) + y % 2
  else y

/-- Puts six bits of a byte sequence, `sh` bits from its start (R141). -/
def putBits (old : List Byte) (sh v : Nat) : List Byte :=
  let n := leNat old
  leBytes old.length (n - n / 2 ^ sh % 64 * 2 ^ sh + v % 64 * 2 ^ sh)

/-- The bytes a packed element touches. -/
def bitsSpan (sh : Nat) : Nat := (sh + 13) / 8

/-- Writes a packed element: byte by byte, the bits of its neighbours unchanged. -/
def State.engStoreBits (s : State) (c : Cmd) (va : DWord) (sh v : Nat) : State × Option EngStop :=
  (List.range (bitsSpan sh)).foldl (fun (r : State × Option EngStop) i =>
    match r with
    | (s, some e) => (s, some e)
    | (s, none) =>
      let a := va + BitVec.ofNat 64 i
      match s.engReach c a 1 1 true with
      | (s, .error e) => (s, some e)
      | (s, .ok (x, t)) =>
        let old := (List.range (bitsSpan sh)).map fun j => if j = i then s.byte x.key else 0#8
        match s.perfStore x [(putBits old sh v).getD i 0#8] none with
        | (s, .ok _) => (s.setDirty (s.unit c.u).slice t, none)
        | (s, .error _) => (s, some (.bad a))) (s, none)

/-- A result that came with bytes for a tile. -/
def State.intoTile (c : Cmd) (ta : Nat) (f : List Byte → List Byte) : State × Except EngStop (List Byte) → State × Option EngStop
  | (s, .ok bs) => (s.tileWrite c ta (f bs), none)
  | (s, .error e) => (s, some e)

/-- Performs one operation. -/
def State.runOp (s : State) (c : Cmd) : EOp → State × Option EngStop
  | .refuse va => (s, some (.bad va))
  | .fill ta n => (s.tileWrite c ta (List.replicate n 0#8), none)
  | .load va n ta => State.intoTile c ta id (s.engRead c va n n)
  | .store ta n va => s.engWrite c va n ((s.team c.team).bytes ta n)
  | .loadBits row va sh ta =>
    if row.toNat % 4 ≠ 0 then (s, some (.bad row))
    else State.intoTile c ta (fun bs => [BitVec.ofNat 8 (leNat bs / 2 ^ sh % 64)]) (s.engReadSpan c va.toNat (bitsSpan sh))
  | .storeBits ta row va sh =>
    if row.toNat % 4 ≠ 0 then (s, some (.bad row))
    else s.engStoreBits c va sh (leNat ((s.team c.team).bytes ta 1))
  | .block va code valid ta =>
    State.intoTile c ta (fun bs => (List.range 2048).map fun i =>
      if i < valid then bs.getD (layoutByte code i) 0#8 else 0#8) (s.engBlock c va.toNat)
  | .move src dst n =>
    match src with
    | none => s.engWrite c dst n (List.replicate n 0#8)
    | some va => match s.engRead c va n n with
      | (s, .ok bs) => s.engWrite c dst n bs
      | (s, .error e) => (s, some e)
  | .rmw ta va op => s.engAtomic c va op (leWord ((s.team c.team).bytes ta 4))
  | .put va bs => s.engWriteSpan c va bs

/-- The bytes of memory that an operation writes in the order of the command: those of a copy from memory to memory go in any
order (R185). -/
def EOp.dst : EOp → List (Nat × Nat)
  | .store _ n va => [(va.toNat, n)]
  | .storeBits _ _ va sh => [(va.toNat, bitsSpan sh)]
  | .rmw _ va _ => [(va.toNat, 4)]
  | .put va bs => [(va, bs.length)]
  | .refuse _ | .fill _ _ | .load _ _ _ | .loadBits _ _ _ _ | .block _ _ _ _ | .move _ _ _ => []

/-- What a command does: the ranges of the window it touches, and its operations in order. -/
structure Plan where
  locals : List (Nat × Nat × Bool)
  ops : List EOp
deriving DecidableEq, Repr

/-- Performs operations in order; answers how many were done and what stopped the next. -/
def State.runOps (s : State) (c : Cmd) : List EOp → Nat → State × Nat × Option EngStop
  | [], n => (s, n, none)
  | o :: r, n => match s.runOp c o with
    | (s, none) => s.runOps c r (n + 1)
    | (s, some e) => (s, n, some e)

/-- Touches the ranges of the window. -/
def State.runLocals (s : State) (c : Cmd) (ls : List (Nat × Nat × Bool)) : State × Option EngStop :=
  ls.foldl (fun (r : State × Option EngStop) l => match r with
    | (s, some e) => (s, some e)
    | (s, none) => s.engLocal c l.1 l.2.1 l.2.2) (s, none)

/-- Performs a whole plan. -/
def State.runPlan (s : State) (c : Cmd) (p : Plan) : State × Nat × Option EngStop :=
  match s.runLocals c p.locals with
  | (s, some e) => (s, 0, some e)
  | (s, none) => s.runOps c p.ops 0

/-! ### A command under way (R183) -/

/-- The operations of a command that it has not performed yet. -/
def Cmd.left (c : Cmd) (p : Plan) : Plan :=
  if c.done.isEmpty then p
  else { p with ops := ((p.ops.zip (List.range p.ops.length)).filter fun o => !(c.done.contains o.2)).map (·.1) }

/-- The sector of the tile that an operation writes, the first where it writes several. -/
def EOp.sector : EOp → Option Nat
  | .fill ta _ | .load _ _ ta | .loadBits _ _ _ ta | .block _ _ _ ta => some (ta / 32)
  | .refuse _ | .store _ _ _ | .storeBits _ _ _ _ | .move _ _ _ | .rmw _ _ _ | .put _ _ => none

/-- Whether two operations write one sector of the tile, which takes the bytes of a command all at once or not at all (R130, R142). -/
def EOp.withIt (a b : EOp) : Bool := a.sector.isSome && a.sector == b.sector

/-- Operations in their groups: the successive ones of one sector of the tile, or each by itself. -/
def opGroups (ops : List (EOp × Nat)) : List (List (EOp × Nat)) :=
  ops.foldr (fun o gs => match gs with
    | (p :: g) :: r => if o.1.withIt p.1 then (o :: p :: g) :: r else [o] :: gs
    | [] :: _ | [] => [o] :: gs) []

/-- The number of an operation's group, as a free value that decides of it sees it. -/
def EOp.group (i : Nat) (o : EOp) : Nat := match o.sector with
  | some q => 2 * q
  | none => 2 * i + 1

/-- Performs some of the operations that remain, those that the free value says, in no fixed order but for writes of the same bytes
(R183, R187), a sector of the tile whole (R130); `skip` are the bytes of the writes that were passed over. Answers which operations are
done. -/
def State.runAhead (s : State) (c : Cmd) : List (List (EOp × Nat)) → List (Nat × Nat) → List Nat → State × List Nat
  | [], _, dn => (s, dn)
  | g :: r, skip, dn =>
    let dst := g.flatMap fun o => o.1.dst
    if g.all fun o => dn.contains o.2 then s.runAhead c r skip dn
    else if (g.any fun o => Config.partialWrites s.tick (EOp.group o.2 o.1)) &&
        !(dst.any fun d => skip.any fun k => rangesMeet d.1 d.2 k.1 k.2) then
      match s.runOps c (g.map (·.1)) 0 with
      | (s, _, none) => s.runAhead c r skip (g.map (·.2) ++ dn)
      | (_, _, some _) => s.runAhead c r (dst ++ skip) dn
    else s.runAhead c r (dst ++ skip) dn

/-! ### A command that faults (R142) -/

/-- Whether an operation fills more than one sector of the tile. -/
def EOp.isBlock : EOp → Bool
  | .block _ _ _ _ => true
  | .fill _ _ | .load _ _ _ | .loadBits _ _ _ _ | .refuse _ | .store _ _ _ | .storeBits _ _ _ _ | .move _ _ _ | .rmw _ _ _
  | .put _ _ => false

/-- Performs one operation of a command that faults; of a permuted block, each sector of the tile is written or not as the free value
says. -/
def State.runSome (s : State) (c : Cmd) (o : EOp) : State :=
  let t := (s.runOp c o).1
  match o with
  | .block _ _ _ ta => (List.range 64).foldl (fun t q =>
      if Config.partialWrites s.tick (2 * (ta / 32 + q)) then t
      else t.tileWrite c (ta + 32 * q) ((s.team c.team).bytes (ta + 32 * q) 32)) t
  | .fill _ _ | .load _ _ _ | .loadBits _ _ _ _ | .refuse _ | .store _ _ _ | .storeBits _ _ _ _ | .move _ _ _ | .rmw _ _ _
  | .put _ _ => t

/-- The bytes a command that stops at operation `n` has already written (R142): of the groups before the stop, those that the
free value says. -/
def State.runPart (s : State) (c : Cmd) (p : Plan) (n : Nat) : State :=
  let ops := p.ops.zip (List.range p.ops.length)
  let done := (ops.take n).filter fun o =>
    !(p.ops[n]?.any fun x => o.1.withIt x) && (o.1.isBlock || Config.partialWrites s.tick (EOp.group o.2 o.1))
  done.foldl (fun s o => s.runSome c o.1) s

/-! ### How commands end (R131, R140, R142) -/

/-- Changes a command. -/
def State.modCmd (s : State) (id : Nat) (f : Cmd → Cmd) : State :=
  { s with cmds := s.cmds.map fun c => if c.id = id then f c else c }

/-- A command. -/
def State.cmd (s : State) (id : Nat) : Option Cmd := s.cmds.find? fun c => c.id == id

/-- A command leaves its chain; an ended team's window goes with its last one (R133, R140). -/
def State.leaveChain (s : State) (c : Cmd) : State :=
  (({ s with cmds := s.cmds.filter fun k => !(k.id == c.id) } : State).dropAgent c.agent).teamFree c.team

/-- A tile after its fill or drain has completed: READY, with what the completion orders (R131, R132). -/
def Cmd.tileDone (c : Cmd) (e : TileEnt) : TileEnt :=
  { e with st := .ready, vc := VC.join e.vc (ownClock c.agent c.start),
           done := some (c.agent, VC.join c.rel (ownClock c.agent c.start)) }

/-- A tile after its fill or drain has faulted (R131). -/
def Cmd.tileFault (c : Cmd) (e : TileEnt) : TileEnt :=
  { e with st := if c.op = .cpyin ∨ c.op = .gather then .empty else .ready, f := true, fUnit := c.u,
           vc := VC.join e.vc (ownClock c.agent c.start) }

/-- A command completes: its tile, its release add, and its place in the chain (R140); none while the counter's home is not
ready. A violation by the add freezes the engine, and the command is held (R304, R306). -/
def State.finishCmd (s : State) (c : Cmd) : Option State :=
  let s := match c.tile with
    | some t => s.modTile c.team t c.tileDone
    | none => s
  match s.completionAdd c.u c.grid c.team c.cls c.agent c.ccnt (VC.join c.rel (ownClock c.agent c.start)) with
  | (s, none) => some (s.leaveChain c)
  | (s, some (.fire _ wr pa)) =>
    let w := s.unit c.u
    some ((s.violate w.slice 2 w.core wr pa).modCmd c.id fun k => { k with st := .addHeld pa })
  | (_, some (.bad _)) | (_, some .wait) => none

/-- A command faults (R142): its tile changes, it makes no add, and the fault is held for its issuer. -/
def State.faultCmd (s : State) (c : Cmd) (taddr : DWord) : State :=
  let s := match c.tile with
    | some t => s.modTile c.team t c.tileFault
    | none => s
  (s.holdFault c.u c.grid
    { team := c.team, tile := c.tile, ctr := c.ccnt, failedAdd := false, sealu := c.op == .sealu, cls := c.cls, taddr }).leaveChain c

/-- At RELALL a command whose completion add violated the firewall ends with that add failed (R158, R306). -/
def State.failCmdAdd (s : State) (c : Cmd) : State := (s.failAdd c.u c.grid c.team c.cls c.ccnt).leaveChain c

/-- A running command that has met a stop: it will fault, or its violation freezes its engine (R304, R306); none where it only
waits. -/
def State.stopCmd (s : State) (c : Cmd) : EngStop → Option State
  | .wait => none
  | .bad va => some (s.modCmd c.id fun k => { k with st := .failing va })
  | .fire va wr pa =>
    let w := s.unit c.u
    some ((s.violate w.slice 2 w.core wr pa).modCmd c.id fun k => { k with st := .held va pa })

end Sys2Proof.Machine
end

