-- ==== Sys2Proof/Machine/SealRun.lean ====
section
/-!
DEFINITION. The seal engine (R190 to R192, R331) and the check of key handles (R325).
-/

namespace Sys2Proof.Machine

/-! ### Handles (R325) -/

/-- The key that a handle names. -/
def State.keyOf (s : State) (h : Word) : Option Key := s.rot.keys.find? fun k => k.handle == h

/-- Whether a partition may use a handle in a class (R325): one issued to it for its world, of the class, whose key lives. -/
def State.handleOk (s : State) (pn cls : Nat) (h : Word) : Bool :=
  h.getLsbD 31 == (s.part pn).world && h.toNat / 2 ^ 24 % 4 == cls && (s.keyOf h).any fun k => k.part == pn && !k.dead

/-- Takes the next sequence number of a key (R192, R331). -/
def State.nextSeq (s : State) (h : Word) : State × DWord :=
  match s.keyOf h with
  | none => (s, 0#64)
  | some k =>
    let n := k.seq + 1#64
    ({ s with rot := { s.rot with keys := s.rot.keys.map fun x => if x.handle = h then { x with seq := n } else x } }, n)

/-! ### Seal records (R192) -/

/-- The 48 bytes of a digest. -/
def digestBytes (bs : List Byte) : List Byte := leBytes 48 (Config.sha384 bs).toNat

/-- The signature's length by algorithm. -/
def sigLen (alg : Nat) : Nat := if alg = 2 then 3309 else 96

/-- A seal record: 256 bytes and its signature. -/
def sealRecord (kind reason : Nat) (c : Seal) (meta64 : List Byte) (part grid : Nat) (sq : DWord) (alg : Nat) : List Byte :=
  let signed := leBytes 4 kind ++ leBytes 4 reason ++ leBytes 8 c.bytes.length ++ digestBytes c.bytes ++ meta64 ++
    leBytes 4 part ++ leBytes 4 grid ++ leBytes 8 sq.toNat ++ leBytes 2 alg ++ leBytes 2 (sigLen alg) ++ List.replicate 108 0#8
  let sig := Config.sealSig c.key alg signed
  signed ++ (List.range (sigLen alg)).map fun i => sig.getD i 0#8

/-- Makes the record of a context: takes the sequence number and signs. -/
def State.signSeal (s : State) (u : Nat) (kind reason : Nat) (c : Seal) (meta64 : List Byte) : State × List Byte :=
  let w := s.unit u
  let (s, n) := s.nextSeq c.key
  let alg := match s.keyOf c.key with
    | some k => k.alg
    | none => 1
  (s, sealRecord kind reason c meta64 (s.part w.part).corner w.grid n alg)

/-- Writes a void record as far as its area can be written; one that violates the firewall is sent no further (R190, R304). -/
def State.writeVoid (s : State) (c : Cmd) (va : Nat) (bs : List Byte) : State × Option EngStop :=
  (lineChunks va bs.length).foldl (fun (r : State × Option EngStop) p =>
    match r with
    | (s, some e) => (s, some e)
    | (s, none) => match s.engWrite c (BitVec.ofNat 64 p.1) 1 ((bs.drop (p.1 - va)).take p.2) with
      | (s, none) => (s, none)
      | (s, some (.bad _)) => (s, none)
      | (s, some (.fire va wr pa)) => (s, some (.fire va wr pa))
      | (s, some .wait) => (s, some .wait)) (s, none)

/-- Voids the open context of a unit (R190), if it has one: a void record in its area, and the context closes. A violation of the
firewall by the record closes it too. -/
def State.voidSeal (s : State) (c : Cmd) (reason : Nat) : State × Option EngStop :=
  match (s.unit c.u).sealCtx with
  | none => (s, none)
  | some k =>
    let (s, r) := s.signSeal c.u 2 reason k (List.replicate 64 0#8)
    let (s, e) := s.writeVoid c k.area.toNat r
    (s.modUnit c.u fun w => { w with sealCtx := none }, e)

/-- A stop of a running command, as a step. -/
def stopStep (s : State) (c : Cmd) (e : EngStop) : Out State :=
  match s.stopCmd c e with
  | some s => .next s
  | none => .fault .notPossible

/-- A command's completion, as a step. -/
def finishStep (s : State) (c : Cmd) : Out State :=
  match s.finishCmd c with
  | some s => .next s
  | none => .fault .notPossible

/-! ### The commands (R191) -/

/-- SEALB: voids an open context with reason 4, then checks the handle and the area, and opens one; where they fail it faults and
opens nothing. A SEALU that faulted before was of another context. An issuer that has ended already leaves the new context to be voided
for the reason of its end. -/
def State.runSealb (s : State) (c : Cmd) : State × Option EngStop :=
  let w := s.unit c.u
  match s.voidSeal c 4 with
  | (s, some e) => (s, some e)
  | (s, none) =>
    if !(s.handleOk w.part 2 c.sval) || c.bp.toNat % 128 ≠ 0 then (s, some (.bad c.bp))
    else
      let k : Seal := { key := c.sval, area := c.bp, bytes := [], void := if w.live then none else some w.gone, bad := 0#32 }
      (s.modUnit c.u fun w => { w with sealCtx := some k, held := w.held.map fun h => { h with sealu := false } }, none)

/-- SEALU: absorbs bytes. -/
def State.runSealu (s : State) (c : Cmd) : State × Option EngStop :=
  match (s.unit c.u).sealCtx with
  | none => (s, some (.bad c.bp))
  | some k => match s.engReadSpan c c.bp.toNat c.sval.toNat with
    | (s, .error e) => (s, some e)
    | (s, .ok bs) => (s.modUnit c.u fun w => { w with sealCtx := some { k with bytes := k.bytes ++ bs } }, none)

/-- SEALF reads the metadata and signs, once: the record is kept with the command until it is written (R191). -/
def State.signFrame (s : State) (c : Cmd) : State × Except EngStop (Seal × List Byte) :=
  match (s.unit c.u).sealCtx with
  | none => (s, .error (.bad c.bp))
  | some k =>
    if !(c.recb.isEmpty) then (s, .ok (k, c.recb))
    else if !(s.handleOk (s.unit c.u).part 2 k.key) then (s, .error (.bad c.bp))
    else match s.engReadSpan c c.bp.toNat 64 with
      | (s, .error e) => (s, .error e)
      | (s, .ok m) =>
        let (s, r) := s.signSeal c.u 1 0 k m
        (s.modCmd c.id fun x => { x with recb := r }, .ok (k, r))

/-- The writes of a signed record. -/
def recordOps (area : DWord) (r : List Byte) : List EOp :=
  (lineChunks area.toNat r.length).map fun p => .put p.1 ((r.drop (p.1 - area.toNat)).take p.2)

/-- The command as which a unit's context is voided outside any command. -/
def State.voidCmd (s : State) (u : Nat) : Cmd :=
  let w := s.unit u
  { id := s.nextId, u, team := w.team, cls := 5, op := .sealf, tile := none, bp := 0#64, bp2 := 0#64, sval := 0#32, ccnt := 0#64,
    rel := [], start := engineStart s u 5, recb := [], st := .running, grid := w.grid, marked := [], copies := [], msgs := [], done := [] }

/-- SEAL_CONTEXT_VOID (R190): a context that is to be voided, once every seal command of its unit has ended. The void record
makes no counter add. -/
def execSealContextVoid (u reason : Nat) (s : State) : Out State :=
  match (s.unit u).sealCtx with
  | none => .fault .notPossible
  | some k =>
    if !(k.void == some reason) || (s.cmds.any fun c => c.u == u && c.cls == 5) || !(s.mayStart u) ||
        !((s.slice (s.unit u).slice).srdy.getLsbD 10) then .fault .notPossible
    else
      let c := s.voidCmd u
      match (({ s with nextId := s.nextId + 1, cmds := s.cmds ++ [c] } : State).bearAgent c.agent c.start).voidSeal c reason with
      | (s, none) => .next (s.leaveChain c)
      | (s, some e) => stopStep s c e

end Sys2Proof.Machine
end

