-- ==== Sys2Proof/Machine/CollRun.lean ====
section
/-!
DEFINITION. The collective engine (R188, R189) and remote accesses at a slice's port (R189, R227 to R229). What other members
send comes with a step, in order of arrival.
-/

namespace Sys2Proof.Machine

/-! ### Records (R188) -/

/-- A COLL command's fields, with those of its communicator. -/
structure CollRec where
  opc : Nat
  dt : Nat
  red : Nat
  peer : Nat
  count : Nat
  send : Nat
  recv : Nat
  rcnt : Nat
  nrank : Nat
  rank : Nat
  chan : Word
  peers : Nat
  wsize : Nat
deriving DecidableEq, Repr

/-- The fields of a command record followed by a communicator record; a started command's peer table comes after them. -/
def collAt (r : List Byte) : CollRec :=
  { opc := fieldAt r 0 1, dt := fieldAt r 1 1, red := fieldAt r 2 1, peer := fieldAt r 4 4, count := fieldAt r 8 8,
    send := fieldAt r 16 8, recv := fieldAt r 24 8, rcnt := fieldAt r 32 8, nrank := fieldAt r 64 4, rank := fieldAt r 68 4,
    chan := BitVec.ofNat 32 (fieldAt r 72 4), peers := fieldAt r 80 8, wsize := fieldAt r 88 8 }

/-- A member's entry in the peer table: its endpoint, and the base of its window. -/
def peerAt (r : List Byte) (i : Nat) : Nat × Nat := (fieldAt r (128 + 16 * i) 8, fieldAt r (136 + 16 * i) 8)

/-- The fields in which the members of one operation have to agree (R189). -/
def CollRec.head (c : CollRec) : CollHead := { opc := c.opc, dt := c.dt, red := c.red, count := c.count, peer := c.peer }

/-- Whether an operation is matched over the members (R189). -/
def CollRec.matched (c : CollRec) : Bool := c.opc != 4 && c.opc != 5

/-- Whether a command's traffic goes over its association: a transfer, or a collective of several members (R189, R326). -/
def CollRec.linked (c : CollRec) : Bool := !c.matched || decide (1 < c.nrank)

/-- The bytes of one element. -/
def CollRec.esz (c : CollRec) : Nat := if c.dt ≤ 1 then 4 else if c.dt ≤ 3 then 2 else 1

/-- The bytes of one block. -/
def CollRec.block (c : CollRec) : Nat := c.count * c.esz

/-- Whether the fields keep their limits (R188, R189). -/
def collOk (r : List Byte) : Bool :=
  let c := collAt r
  decide (c.opc ≤ 6) && decide (c.dt ≤ (if c.opc < 2 then 3 else 4)) && decide (c.red ≤ (if c.opc < 2 then 2 else 0)) &&
  zeroAt r 3 1 && zeroAt r 40 24 && decide (1 ≤ c.count) && decide (c.count ≤ 2 ^ 40) &&
  decide (1 ≤ c.nrank) && decide (c.nrank ≤ 4096) && decide (c.rank < c.nrank) && zeroAt r 76 4 && zeroAt r 96 32 &&
  (if 3 ≤ c.opc ∧ c.opc ≤ 5 then decide (c.peer < c.nrank) else c.peer == 0) &&
  (if c.opc = 4 then decide (c.recv + c.block ≤ c.wsize)
   else if c.opc = 5 then decide (c.send + c.block ≤ c.wsize) else true)

/-- The bytes a member reads from its SEND (R189): a block, a block for each member, or none. -/
def CollRec.sendLen (c : CollRec) : Nat :=
  match c.opc with
  | 0 | 2 | 4 => c.block
  | 1 | 6 => c.nrank * c.block
  | 3 => if c.rank = c.peer then c.block else 0
  | _ => 0

/-! ### Reductions (R189) -/

/-- The type of a reduction, which is one of the first four. -/
def collFmt (dt : Nat) : Fmt := if dt = 2 then bf16 else if dt = 3 then f16 else f32

/-- One element of max or min (R100). -/
def collPick (dt red x y : Nat) : Nat :=
  if dt = 0 then
    let a : Word := BitVec.ofNat 32 x
    let b : Word := BitVec.ofNat 32 y
    (if red = 1 then (if a.toInt ≤ b.toInt then b else a) else (if a.toInt ≤ b.toInt then a else b)).toNat
  else ((collFmt dt).fminmax (red == 1) false x y).code

/-- The widening of a BF16 or F16 element to F32. -/
def collWiden (dt x : Nat) : Nat := (f32.round 0#2 false false ((collFmt dt).decode x)).code

/-- The reduction of an element over the members, in order of arrival (R4, R189). -/
def collReduce (dt red : Nat) : List Nat → Nat
  | [] => 0
  | x :: r =>
    if red ≠ 0 then r.foldl (collPick dt red) x
    else if dt = 0 then r.foldl (fun a y => (a + y) % 2 ^ 32) x
    else if dt = 1 then r.foldl (fun a y => (f32.fadd 0#2 false a y).code) x
    else
      let sum := (r.map (collWiden dt)).foldl (fun a y => (f32.fadd 0#2 false a y).code) (collWiden dt x)
      ((collFmt dt).narrow 0#2 false (BitVec.ofNat 32 sum)).code

/-- The reduction of whole blocks. -/
def collReduceBlocks (c : CollRec) (bs : List (List Byte)) : List Byte :=
  (List.range c.count).flatMap fun i => leBytes c.esz (collReduce c.dt c.red (bs.map fun b => fieldAt b (c.esz * i) c.esz))

/-! ### Messages -/

/-- The members whose block an operation takes, its own included (R189). -/
def CollRec.senders (c : CollRec) : List Nat :=
  match c.opc with
  | 0 | 1 | 2 | 6 => List.range c.nrank
  | 3 => if c.rank = c.peer then [] else [c.peer]
  | 5 => [c.peer]
  | _ => []

/-- Whether a step's message only places the member's own block among the arrivals: nothing comes over the network for it. -/
def CollRec.places (c : CollRec) (m : Msg) : Bool := c.opc != 5 && m.rank == c.rank

/-- Whether messages are what an operation still takes: one of each member, of a block. -/
def CollRec.takes (c : CollRec) : List Msg → List Msg → Bool
  | _, [] => true
  | old, m :: r => c.senders.contains m.rank && !(old.any fun x => x.rank == m.rank) && (c.places m || m.bytes.length == c.block) &&
      c.takes (old ++ [m]) r

/-- The blocks at hand in order of arrival, with this member's own in its place, or first where no step has placed it. -/
def CollRec.arrived (c : CollRec) (own : List Byte) (msgs : List Msg) : List (Nat × List Byte) :=
  let all := if msgs.any fun m => m.rank == c.rank then msgs else { rank := c.rank, n := 0, head := c.head, bytes := own } :: msgs
  all.map fun m => (m.rank, if m.rank = c.rank then own else m.bytes)

/-- What a member receives (R189), by OPC, from its own SEND and the messages that have come: its blocks in order, each once it is
known. -/
def CollRec.parts (c : CollRec) (send : List Byte) (msgs : List Msg) : List (Option (List Byte)) :=
  let own := if c.opc = 1 ∨ c.opc = 6 then (send.drop (c.rank * c.block)).take c.block else send
  let all := c.arrived own msgs
  let blocks := (List.range c.nrank).map fun r => (all.find? fun p => p.1 == r).map (·.2)
  match c.opc with
  | 0 | 1 => [if blocks.all (·.isSome) then some (collReduceBlocks c (all.map (·.2))) else none]
  | 2 | 6 => blocks
  | 3 => [if c.rank = c.peer then some send else msgs.head?.map (·.bytes)]
  | 5 => [msgs.head?.map (·.bytes)]
  | _ => []

/-- The writes of a collective or a get to its RECV, as far as they are known; the others cannot be performed yet. -/
def collOps (c : Cmd) : List EOp :=
  let k := collAt c.recb
  match c.copies with
  | [] => []
  | (_, send) :: _ =>
    let parts := k.parts send c.msgs
    (parts.zip (List.range parts.length)).flatMap fun p =>
      let lo := k.recv + p.2 * k.block
      (lineChunks lo k.block).map fun q => match p.1 with
        | some bs => .put q.1 ((bs.drop (q.1 - lo)).take q.2)
        | none => .refuse (BitVec.ofNat 64 q.1)

/-- Whether a command has sent its SEND and has every block that it is to receive. -/
def collDone (c : Cmd) : Bool :=
  match c.copies with
  | [] => false
  | (_, send) :: _ => ((collAt c.recb).parts send c.msgs).all (·.isSome)

/-! ### The steps (R189) -/

/-- Where an association is listed: by slice, and by the INDEX of the transport handle that selects it (R325, R326). -/
def assocKey (sl a : Nat) : Nat := 2 ^ 24 * sl + a

/-- The association that a CHAN handle selects (R325, R326): the handle's INDEX. -/
def chanKey (h : Word) : Nat := h.toNat % 2 ^ 24

/-- Whether a transport handle of the slice's partition selects an association (R325, R326). -/
def State.chanHandle (s : State) (sl a : Nat) : Bool :=
  match (s.slice sl).part with
  | none => false
  | some pn => s.rot.keys.any fun k => chanKey k.handle == a && s.handleOk pn 0 k.handle

/-- Whether a slice's port can carry an association's traffic (R307, R326, R327): PORT and CIPH, a key in the slot, and no rekey. -/
def State.portOpen (s : State) (sl a : Nat) : Bool :=
  (s.slice sl).srdy.getLsbD 8 && (s.slice sl).srdy.getLsbD 9 &&
  (Tab.find? s.rot.assocs (assocKey sl a)).any fun x => !x.barred && !x.needRekey

/-- Replaces an association. -/
def State.setAssoc (s : State) (sl a : Nat) (x : Assoc) : State :=
  { s with rot := { s.rot with assocs := Tab.put s.rot.assocs (assocKey sl a) x } }

/-- The packet counter that forces a rekey before the next packet (R326). -/
def lastCounter : Nat := 2 ^ 64 - 2 ^ 32

/-- A new packet on an association (R326): it takes the counter, and its ciphertext is stored. -/
def Assoc.send (x : Assoc) (payload : List Byte) : Assoc :=
  { x with tx := x.tx + 1#64, sent := x.sent ++ [(x.tx, Config.gcmSeal x.key x.salt x.tx payload)],
           needRekey := decide (lastCounter ≤ (x.tx + 1#64).toNat) }

/-- The messages that a member sends (R189): the receiver's rank and the bytes. -/
def CollRec.messages (c : CollRec) (send : List Byte) : List (Nat × List Byte) :=
  let others := (List.range c.nrank).filter fun i => i != c.rank
  let block := fun (i : Nat) => (send.drop (i * c.block)).take c.block
  match c.opc with
  | 0 | 2 => others.map fun i => (i, send)
  | 1 | 6 => others.map fun i => (i, block i)
  | 3 => if c.rank = c.peer then others.map fun i => (i, send) else []
  | 4 | 5 => [(c.peer, send)]
  | _ => []

/-- A command's messages leave its slice's port, each in a packet of the association (R326, log 118); none where one would have to wait
for a rekey. -/
def State.sendMessages (s : State) (c : Cmd) (send : List Byte) : Option State :=
  let k := collAt c.recb
  let sl := (s.unit c.u).slice
  (k.messages send).foldl (fun (r : Option State) m => r.bind fun s =>
    let (endpoint, win) := peerAt c.recb m.1
    let x : Sent := { endpoint, addr := if k.opc = 4 then win + k.recv else if k.opc = 5 then win + k.send else 0,
                      ctr := if k.opc = 4 then k.rcnt else 0, asks := if k.opc = 5 then k.block else 0, bytes := m.2 }
    let s := s.modSlice sl fun y => { y with portSent := y.portSent ++ [x] }
    match Tab.find? s.rot.assocs (assocKey sl (chanKey k.chan)) with
    | none => some s
    | some a =>
      if a.needRekey then none
      else some (s.setAssoc sl (chanKey k.chan) (a.send (Config.wire x.endpoint x.addr x.ctr x.bytes)))) (some s)

/-- Which collective of its communicator a command is, counted from 0 in order of issue (R189). -/
def State.collNo (s : State) (c : Cmd) : Nat :=
  ((s.part (s.unit c.u).part).colls.filter fun x => x.1 == (s.grid c.grid).asid && x.2.1 == c.bp.toNat && decide (x.2.2 < c.id)).length

/-- A running COLL command of an OPC. -/
def State.collReady (s : State) (id opc : Nat) : Option Cmd :=
  match s.cmd id with
  | none => none
  | some c => if c.op = .coll ∧ c.st = .running ∧ (collAt c.recb).opc = opc then some c else none

/-- What a member sends is port flits that carry a write, but for a get (R299). -/
def State.collFlit (s : State) (c : Cmd) : State :=
  if (collAt c.recb).nrank = 1 ∨ (collAt c.recb).opc = 5 then s else s.active (s.unit c.u).part

/-- Takes a payload that an accepted packet of an association has brought (R326); none where there is none. -/
def State.takePacket (s : State) (sl a : Nat) (payload : List Byte) : Option State :=
  (Tab.find? s.rot.assocs (assocKey sl a)).bind fun x =>
    if x.delivered.contains payload then some (s.setAssoc sl a { x with delivered := x.delivered.erase payload }) else none

/-- Takes the packets that bring messages for a command (R189, R326). -/
def State.takeMsgs (s : State) (c : Cmd) : List Msg → Option State
  | [] => some s
  | m :: r =>
    let k := collAt c.recb
    if k.places m then s.takeMsgs c r
    else (s.takePacket (s.unit c.u).slice (chanKey k.chan) (Config.wireMsg (s.grid c.grid).asid c.bp.toNat m)).bind fun s => s.takeMsgs c r

/-- A running command reads its SEND and its messages leave, once, at the first of its steps that the traffic can go (R189, R307, R327).
Answers the command as it then is. When that is R189 does not say. DESIGN CHOICE, log 118. -/
def State.collSend (s : State) (c : Cmd) : State × Except EngStop Cmd :=
  let k := collAt c.recb
  if !(c.copies.isEmpty) then (s, .ok c)
  else if k.linked && !(s.portOpen (s.unit c.u).slice (chanKey k.chan)) then (s, .error .wait)
  else match s.engReadSpan c k.send k.sendLen with
    | (s, .error e) => (s, .error e)
    | (s, .ok send) => match (s.collFlit c).sendMessages c send with
      | none => (s, .error .wait)
      | some s => (s, .ok { c with copies := [(k.rank, send)] })

/-- The RECV takes its final content and the command completes (R189). -/
def State.collEnd (s : State) (c : Cmd) : Out State :=
  let p := c.left { locals := [], ops := collOps c }
  match s.runPlan c p with
  | (_, n, some e) => stopStep (s.runPart c p n) c e
  | (s, _, none) => finishStep s c

/-- A step of a collective or a get (R189). The first reads the SEND and sends; any may bring messages of the others, in order of
arrival; one that finds all that the command receives ends it. A message of the same operation whose fields differ faults the command,
with TADDR the record's local address. -/
def collStep (id opc : Nat) (inputs : List Msg) (s : State) : Out State :=
  match s.collReady id opc with
  | none => .fault .notPossible
  | some c =>
    let k := collAt c.recb
    if c.copies.isEmpty || !(inputs.isEmpty) then
      if k.matched && inputs.any fun m => m.n != s.collNo c then .fault .notPossible
      else match s.takeMsgs c inputs with
        | none => .fault .notPossible
        | some s =>
          if k.matched && inputs.any fun m => m.head != k.head then stopStep s c (.bad (c.sval.setWidth 64))
          else if !(k.takes c.msgs inputs) then .fault .notPossible
          else match s.collSend c with
            | (s, .error e) => stopStep s c e
            | (s, .ok c) => .next (s.modCmd id fun _ => { c with msgs := c.msgs ++ inputs })
    else if collDone c then s.collEnd c
    else .fault .notPossible

/-- COLL_ALL_REDUCE (R189). -/
def execCollAllReduce (cmd : Nat) (inputs : List Msg) (s : State) : Out State := collStep cmd 0 inputs s
/-- COLL_REDUCE_SCATTER (R189). -/
def execCollReduceScatter (cmd : Nat) (inputs : List Msg) (s : State) : Out State := collStep cmd 1 inputs s
/-- COLL_ALL_GATHER (R189). -/
def execCollAllGather (cmd : Nat) (inputs : List Msg) (s : State) : Out State := collStep cmd 2 inputs s
/-- COLL_BROADCAST (R189). -/
def execCollBroadcast (cmd : Nat) (inputs : List Msg) (s : State) : Out State := collStep cmd 3 inputs s
/-- COLL_GET (R189): nothing is read here but the peer's bytes arrive. -/
def execCollGet (cmd : Nat) (inputs : List Msg) (s : State) : Out State := collStep cmd 5 inputs s
/-- COLL_ALL_TO_ALL (R189). -/
def execCollAllToAll (cmd : Nat) (inputs : List Msg) (s : State) : Out State := collStep cmd 6 inputs s

/-- The peer's acknowledgement of a put, as a packet brings it (R189). -/
def ackMsg (k : CollRec) : Msg := { rank := k.peer, n := 0, head := k.head, bytes := [] }

/-- COLL_PUT (R189): the local SEND is read and sent, once; with the packet of the peer's acknowledgement the command completes. -/
def execCollPut (cmd : Nat) (acked : Bool) (s : State) : Out State :=
  match s.collReady cmd 4 with
  | none => .fault .notPossible
  | some c =>
    if c.copies.isEmpty && acked then .fault .notPossible
    else if acked then match s.takeMsgs c [ackMsg (collAt c.recb)] with
      | none => .fault .notPossible
      | some s => finishStep s c
    else match s.collSend c with
      | (s, .error e) => stopStep s c e
      | (s, .ok c) => .next (s.modCmd cmd fun _ => c)

/-! ### Remote accesses (R189, R304, R306, R307) -/

/-- The address of a context that a remote access reaches. -/
inductive Far where
  | no
  | fire (wr : Bool) (pa : Nat)
  | wait
  | at (a : Acc1) (x : Xlat)
deriving DecidableEq, Repr

/-- Where bytes in one line go for a port's access. -/
def State.farReach (s : State) (sl pn asid va n : Nat) (wr : Bool) : State × Far :=
  match s.permit pn asid sl (BitVec.ofNat 64 va) 1 wr with
  | (s, .trap _) => (s, .no)
  | (s, .nonres) => (s, .no)
  | (s, .wait) => (s, .wait)
  | (s, .ok x) =>
    if !(Config.portGrants pn x.pa) then (s, .fire (x.wr wr) x.pa)
    else match (s.part pn).locate x.pa with
      | none => (s, .fire (x.wr wr) x.pa)
      | some l =>
        if !(s.lineReady l.key (x.pol == 2)) || (wr && x.sn) then (s, .wait)
        else (s, .at (x.acc (.port sl) (s.order.clock (.port sl)) pn l n) x)

/-- A violation by what comes in from the port: the port is frozen for the partition (R304, R306). -/
def State.portFire (s : State) (sl : Nat) (wr : Bool) (pa : Nat) : State :=
  (s.violate sl 4 0 wr pa).modSlice sl fun y => { y with portFrozen := true, portPa := pa }

/-- How a remote access ends: done, to be waited for, or dropped. -/
inductive FarEnd where
  | done
  | wait
  | drop
deriving DecidableEq, Repr

/-- A remote access over its lines, each by `f`. A piece that does not translate or that races is dropped with all after it;
one that violates the firewall freezes the port. -/
def State.farSpan (s : State) (sl pn asid va n : Nat) (wr : Bool) (f : State → Acc1 → Xlat → Nat → State × Bool) :
    State × FarEnd :=
  (lineChunks va n).foldl (fun (r : State × FarEnd) p => match r with
    | (s, .done) => match s.farReach sl pn asid p.1 p.2 wr with
      | (s, .no) => (s, .drop)
      | (s, .fire wr pa) => (s.portFire sl wr pa, .drop)
      | (s, .wait) => (s, .wait)
      | (s, .at a x) => match f s a x (p.1 - va) with
        | (s, true) => (s, .done)
        | (s, false) => (s, .drop)
    | (s, .wait) => (s, .wait)
    | (s, .drop) => (s, .drop)) (s, .done)

/-- The add to the counter RCNT at the peer, a release at partition scope (R189). -/
def State.farCount (s : State) (sl pn asid ctr : Nat) : Option State :=
  if ctr = 0 then some s
  else match s.counterAt pn asid sl (BitVec.ofNat 64 ctr) with
    | (s, .error _) => some s
    | (s, .ok (.error pa)) => some (s.portFire sl true pa)
    | (s, .ok (.ok r)) =>
      if !r.ready then none
      else some (releaseAt (s.counterAdd pn sl r 1#64) (.port sl) 2#2 r.loc)

/-- Takes a payload that a packet of any association of a slice's port has brought: the association, and the state without it (R326). -/
def State.takeAccess (s : State) (sl : Nat) (payload : List Byte) : Option (Nat × State) :=
  (List.find? (fun p => p.1 / 2 ^ 24 == sl && p.2.delivered.contains payload) s.rot.assocs).map fun p =>
    (p.1 % 2 ^ 24, s.setAssoc sl (p.1 % 2 ^ 24) { p.2 with delivered := p.2.delivered.erase payload })

/-- The bytes of a remote read leave in a packet of the association on which it came (R326); none while that sends nothing (R327). -/
def State.farAnswer (s : State) (sl a : Nat) (acc : RemoteAccess) : Option State :=
  (Tab.find? s.rot.assocs (assocKey sl a)).bind fun x =>
    if x.barred || x.needRekey then none else some (s.setAssoc sl a (x.send (Config.wireReply acc (s.slice sl).portOut)))

/-- FABRIC_REMOTE_ACCESS (R189): the slice's port agent performs an access that an accepted packet has brought (R326): it writes what
a put brings and then adds to its counter, or reads for a get and answers. A port frozen by the firewall drops and counts the packet
(R306); traffic waits for PORT and CIPH. A put is a port flit that carries a write (R299). -/
def execFabricRemoteAccess (sl : Nat) (acc : RemoteAccess) (s : State) : Out State :=
  let x := s.slice sl
  match x.part with
  | none => .fault .notPossible
  | some pn =>
    if !(x.srdy.getLsbD 8 && x.srdy.getLsbD 9) then .fault .notPossible
    else match s.takeAccess sl (Config.wireAccess acc) with
      | none => .fault .notPossible
      | some (a, s) =>
        if x.portFrozen then .next (s.modSlice sl fun y => { y with portDrops := y.portDrops + 1 })
        else
          match acc with
          | .put ctx va bytes rcnt =>
            let s := s.active pn
            match s.farSpan sl pn ctx va bytes.length true (fun s a t o =>
                match s.perfStore a ((bytes.drop o).take a.len) none with
                | (s, .ok _) => (s.setDirty sl t, true)
                | (s, .error _) => (s, false)) with
            | (s, .done) => match s.farCount sl pn ctx rcnt with
              | some s => .next s
              | none => .fault .notPossible
            | (_, .wait) => .fault .notPossible
            | (s, .drop) => .next s
          | .get ctx va len =>
            let s := s.modSlice sl fun y => { y with portOut := [] }
            match (s.farSpan sl pn ctx va len false fun s a _ _ => match s.perfLoad a none with
                | (s, .ok bs) => (s.modSlice sl fun y => { y with portOut := y.portOut ++ bs }, true)
                | (s, .error _) => (s, false)) with
            | (s, .done) => match s.farAnswer sl a acc with
              | some s => .next s
              | none => .fault .notPossible
            | (_, .wait) => .fault .notPossible
            | (s, .drop) => .next s

end Sys2Proof.Machine
end

