-- ==== Sys2Proof/Machine/CkptRun.lean ====
section
/-!
DEFINITION. The checkpoint engine (R193, R194, R219, R332, R333): records, copy-before-write, saves and restores.
-/

namespace Sys2Proof.Machine

/-! ### Records (R193) -/

/-- A shard entry. -/
structure ShardRec where
  tensor : DWord
  va : Nat
  bytes : Nat
  ndim : Nat
  esz : Nat
  ranges : List (Nat × Nat)
deriving DecidableEq, Repr

/-- A shard entry's fields. -/
def shardAt (r : List Byte) : ShardRec :=
  { tensor := BitVec.ofNat 64 (fieldAt r 0 8), va := fieldAt r 8 8, bytes := fieldAt r 16 8, ndim := fieldAt r 24 1,
    esz := fieldAt r 25 1,
    ranges := (List.range (fieldAt r 24 1)).map fun i => (fieldAt r (32 + 16 * i) 8, fieldAt r (40 + 16 * i) 8) }

/-- The elements a list of ranges holds. -/
def rangesCount (rs : List (Nat × Nat)) : Nat := rs.foldl (fun n p => n * p.2) 1

/-- Whether a shard entry keeps its limits; BYTES is what its ranges hold. -/
def shardOk (r : List Byte) : Bool :=
  let d := shardAt r
  decide (1 ≤ d.ndim) && decide (d.ndim ≤ 6) && (d.esz == 1 || d.esz == 2 || d.esz == 4) && zeroAt r 26 6 &&
  d.bytes == d.esz * rangesCount d.ranges

/-- Whether the command record keeps its limits (R193). -/
def ckptOk (r : List Byte) : Bool :=
  decide (fieldAt r 0 1 ≤ 1) && decide (fieldAt r 1 1 ≤ 1) && zeroAt r 2 2 && decide (1 ≤ fieldAt r 4 4) &&
  decide (fieldAt r 4 4 ≤ 65535) && zeroAt r 40 88

/-- The shard entries behind a command record. -/
def Cmd.shards (c : Cmd) : List ShardRec :=
  (List.range (fieldAt c.recb 4 4)).map fun i => shardAt ((c.recb.drop (128 + 128 * i)).take 128)

/-- The store's handle, step and replica of a command. -/
def Cmd.store (c : Cmd) : Word := BitVec.ofNat 32 (fieldAt c.recb 24 4)
/-- The training step. -/
def Cmd.step (c : Cmd) : DWord := BitVec.ofNat 64 (fieldAt c.recb 8 8)
/-- The replica number. -/
def Cmd.replica (c : Cmd) : Word := BitVec.ofNat 32 (fieldAt c.recb 28 4)

/-! ### Copy-before-write (R194, R219) -/

/-- The key of the entry that maps a page of the command's context, outside the heap. -/
def State.pageEnt (s : State) (c : Cmd) (va : Nat) : Option Nat :=
  let p := s.part (s.unit c.u).part
  match s.pageAt p (p.ctx (s.grid c.grid).asid) va with
  | some (some x) => x.ent
  | some none | none => none

/-- S of an entry, set or cleared. -/
def snapBit (e : DWord) (on : Bool) : DWord := if on then e ||| 0x20#64 else e &&& ~~~0x20#64

/-- Sets or clears S in an entry, and in what the slices hold of it: one event for every access (R219). -/
def State.setSnap (s : State) (k : Nat) (on : Bool) : State :=
  let s := s.putEntry k (snapBit (BitVec.ofNat 64 (leNat (s.bytes k 8))) on).toNat
  { s with slices := s.slices.map fun p =>
      (p.1, { p.2 with tlb := p.2.tlb.map fun t => if t.ent = k then { t with leaf := snapBit t.leaf on } else t }) }

/-- Sets S on pages, each as one event. -/
def State.markPages (s : State) (c : Cmd) (pages : List Nat) : State :=
  pages.foldl (fun s va => match s.pageEnt c va with
    | some k => s.setSnap k true
    | none => s) s

/-- Takes a page off a command's list; S is cleared once no save has a page of that entry left to copy. -/
def State.unmarkPage (s : State) (c : Cmd) (va : Nat) : State :=
  let s := s.modCmd c.id fun k => { k with marked := k.marked.filter fun v => !(v == va) }
  match s.pageEnt c va with
  | none => s
  | some k => if s.cmds.any fun d => d.marked.any fun v => s.pageEnt d v == some k then s else s.setSnap k false

/-- Takes every page off a command's list. -/
def State.unmarkAll (s : State) (c : Cmd) : State := c.marked.foldl (fun s va => s.unmarkPage c va) s

/-- An engine's read of part of a page for its copy. A store that waits for the copy never races with it, so on a page that S
holds the read leaves nothing to race with (R219). -/
def State.engCopy (s : State) (c : Cmd) (va n : Nat) : State × Except EngStop (List Byte) :=
  (lineChunks va n).foldl (fun (r : State × Except EngStop (List Byte)) p => match r with
    | (s, .error e) => (s, .error e)
    | (s, .ok bs) => match s.engReach c (BitVec.ofNat 64 p.1) 1 p.2 false with
      | (s, .error e) => (s, .error e)
      | (s, .ok (a, x)) =>
        let (s, bad) := s.reach a [0, 1]
        if bad || (s.raceTest a false none).isSome then (s, .error (.bad (BitVec.ofNat 64 p.1)))
        else (if x.ent.isSome then s else s.note a false none, .ok (bs ++ s.bytes a.key a.len))) (s, .ok [])

/-- The parts of the shards that lie in a page. -/
def Cmd.pageParts (c : Cmd) (page : Nat) : List (Nat × Nat) :=
  c.shards.filterMap fun d =>
    let lo := Nat.max d.va page
    let hi := Nat.min (d.va + d.bytes) (page + 65536)
    if lo < hi then some (lo, hi - lo) else none

/-- CKPT_PAGE_COPY (R219): a marked page is copied, and S is cleared. -/
def execCkptPageCopy (cmd va : Nat) (s : State) : Out State :=
  match s.cmd cmd with
  | none => .fault .notPossible
  | some c =>
    if !(c.op == .ckpt) || !(c.st == .running) || !(c.marked.contains va) then .fault .notPossible
    else
      let r := (c.pageParts va).foldl (fun (r : State × Except EngStop (List (Nat × List Byte))) p => match r with
        | (s, .error e) => (s, .error e)
        | (s, .ok acc) => match s.engCopy c p.1 p.2 with
          | (s, .ok bs) => (s, .ok (acc ++ [(p.1, bs)]))
          | (s, .error e) => (s, .error e)) (s, .ok [])
      match r with
      | (s, .error e) => stopStep s c e
      | (s, .ok acc) => .next ((s.modCmd cmd fun k => { k with copies := k.copies ++ acc }).unmarkPage c va)

/-! ### Saves (R194, R332) -/

/-- A byte as the command copied it. -/
def Cmd.copied (c : Cmd) (va : Nat) : Byte :=
  match c.copies.find? fun p => decide (p.1 ≤ va) && decide (va < p.1 + p.2.length) with
  | some p => p.2.getD (va - p.1) 0#8
  | none => 0#8

/-- What a save stores for a shard. -/
def Cmd.shardOf (c : Cmd) (d : ShardRec) : Shard :=
  let bytes := (List.range d.bytes).map fun i => c.copied (d.va + i)
  { store := c.store, tensor := d.tensor, step := c.step, replica := c.replica, ndim := d.ndim, esz := d.esz,
    ranges := d.ranges, sha := Config.sha384 bytes, twin := none, bytes }

/-- Whether two shards have one key, so that the later replaces the earlier. -/
def Shard.sameKey (a b : Shard) : Bool :=
  a.store == b.store && a.tensor == b.tensor && a.step == b.step && a.replica == b.replica && a.ranges == b.ranges

/-- Whether two shards are of one tensor, ranges and step in a store, by whatever replica. -/
def Shard.sameRanges (a b : Shard) : Bool := a.store == b.store && a.tensor == b.tensor && a.ranges == b.ranges && a.step == b.step

/-- Whether a verified shard of another replica already holds a shard's content (R332). -/
def Shard.isTwin (a b : Shard) : Bool := a.sameRanges b && !(a.replica == b.replica) && a.sha == b.sha

/-- The bytes of a stored shard: those of the shard that a reference stands for (R332). -/
def Shard.content (ss : List Shard) (x : Shard) : List Byte :=
  match x.twin with
  | none => x.bytes
  | some r => ((ss.find? fun y => y.sameRanges x && y.replica == r).map (·.bytes)).getD []

/-- Makes a verified shard visible in place of an older one of its key, whose bytes stay with the references to it. -/
def keepShard (ss : List Shard) (x : Shard) : List Shard :=
  let own := fun (y : Shard) =>
    if y.sameRanges x && y.twin == some x.replica then { y with twin := none, bytes := y.content ss } else y
  (ss.filter fun y => !(y.sameKey x)).map own ++ [x]

/-- Stores shards in order (R332): with deduplication a twin is recorded as a reference, which counts as verified; any other is
written and read back, and the next base 4 digit of `misses` says how many read-backs disagree with its hash before one agrees: after
the third it is given up. A twin that stood for the very key that is saved keeps its bytes, and becomes the shard referred to. Answers whether every one was verified. -/
def saveShards (dedup : Bool) : List Shard → Nat → List Shard → List Shard × Bool
  | ss, _, [] => (ss, true)
  | ss, misses, x :: r =>
    match if dedup then ss.find? fun y => y.isTwin x else none with
    | some y =>
      let own := if y.twin = some x.replica then y.replica else y.twin.getD y.replica
      saveShards dedup (keepShard ss { x with twin := some own, bytes := [] }) misses r
    | none => if misses % 4 = 3 then (ss, false) else saveShards dedup (keepShard ss x) (misses / 4) r

/-- Writes the status word and completes (R194). -/
def ckptEnd (s : State) (c : Cmd) (status : Nat) : Out State :=
  match s.engWriteSpan c (fieldAt c.recb 32 8) (leBytes 8 status) with
  | (s, some e) => stopStep s c e
  | (s, none) => finishStep s c

/-- CKPT_SAVE (R194, R332): every page has been copied; the shards are written and read back, at most three times each; `readback`
says how many of the read-backs of each disagree. -/
def execCkptSave (cmd : Nat) (reach : Bool) (readback : Nat) (s : State) : Out State :=
  match s.cmd cmd with
  | none => .fault .notPossible
  | some c =>
    if !(c.op == .ckpt) || !(c.st == .running) || !(fieldAt c.recb 0 1 == 0) || !(c.marked.isEmpty) then .fault .notPossible
    else if !reach then ckptEnd s c 4
    else
      let (ss, ok) := saveShards (fieldAt c.recb 1 1 == 1) s.rot.shards readback (c.shards.map c.shardOf)
      ckptEnd { s with rot := { s.rot with shards := ss } } c (if ok then 0 else 2)

/-! ### Restores (R333) -/

/-- The global index of element n of some ranges, dimension 0 fastest. -/
def globalIx : List (Nat × Nat) → Nat → List Nat
  | [], _ => []
  | (a, n) :: r, i => (a + i % n) :: globalIx r (i / n)

/-- Where a global index lies among the elements of some ranges. -/
def placeIn : List (Nat × Nat) → List Nat → Option Nat
  | [], [] => some 0
  | (a, n) :: r, g :: gs => if a ≤ g ∧ g < a + n then (placeIn r gs).map fun k => k * n + (g - a) else none
  | [], _ :: _ => none
  | _ :: _, [] => none

/-- The bytes that a stored shard holds for an element of a target. -/
def Shard.elem (ss : List Shard) (x : Shard) (d : ShardRec) (g : List Nat) : Option (List Byte) :=
  if x.tensor = d.tensor ∧ x.esz = d.esz ∧ x.ndim = d.ndim then
    (placeIn x.ranges g).map fun k => ((x.content ss).drop (k * x.esz)).take x.esz
  else none

/-- The element as the stored shards of one step give it: the lowest replica's. -/
def elemAt (ss : List Shard) (d : ShardRec) (g : List Nat) : Option (List Byte) :=
  (ss.foldl (fun (best : Option (Nat × List Byte)) x => match x.elem ss d g with
    | none => best
    | some bs => match best with
      | some b => if x.replica.toNat < b.1 then some (x.replica.toNat, bs) else some b
      | none => some (x.replica.toNat, bs)) none).map (·.2)

/-- Whether shards cover every element of every target. -/
def coverAll (ss : List Shard) (ts : List ShardRec) : Bool :=
  ts.all fun d => (List.range (rangesCount d.ranges)).all fun n => (elemAt ss d (globalIx d.ranges n)).isSome

/-- The step that a restore uses, or its status (R333). -/
def chooseStep (ss : List Shard) (ts : List ShardRec) (step : DWord) : Except Nat DWord :=
  let at' := fun (k : DWord) => ss.filter fun x => x.step == k
  if step = BitVec.allOnes 64 then
    let whole := (ss.map (·.step)).eraseDups.filter fun k => coverAll (at' k) ts
    match whole with
    | k :: r => .ok (r.foldl (fun m x => if m.toNat < x.toNat then x else m) k)
    | [] => .error (if coverAll ss ts then 1 else 3)
  else if coverAll (at' step) ts then .ok step else .error 3

/-- What a restore writes, line by line. -/
def restoreLines (ss : List Shard) (ts : List ShardRec) : List (Nat × List Byte) :=
  ts.flatMap fun d =>
    let bs := (List.range (rangesCount d.ranges)).flatMap fun n => (elemAt ss d (globalIx d.ranges n)).getD []
    (lineChunks d.va bs.length).map fun p => (p.1, (bs.drop (p.1 - d.va)).take p.2)

/-- The writes of a restore as operations. -/
def restoreOps (ws : List (Nat × List Byte)) : List EOp := ws.map fun w => .put w.1 w.2

/-- What a restore writes (R333): as it has chosen before, or by the step that it chooses now and keeps to; or its status. -/
def State.restoreWrites (s : State) (c : Cmd) : State × Except Nat (List (Nat × List Byte)) :=
  if !(c.copies.isEmpty) then (s, .ok c.copies)
  else
    let ss := s.rot.shards.filter fun x => x.store == c.store
    match chooseStep ss c.shards c.step with
    | .error k => (s, .error k)
    | .ok k =>
      let ws := restoreLines (ss.filter fun x => x.step == k) c.shards
      (s.modCmd c.id fun x => { x with copies := ws }, .ok ws)

/-- CKPT_RESTORE (R333): the step is chosen, the targets loaded, and the status written. A restore that has chosen its step has reached
the store. -/
def execCkptRestore (cmd : Nat) (reach : Bool) (s : State) : Out State :=
  match s.cmd cmd with
  | none => .fault .notPossible
  | some c =>
    if !(c.op == .ckpt) || !(c.st == .running) || !(fieldAt c.recb 0 1 == 1) then .fault .notPossible
    else if !reach && c.copies.isEmpty then ckptEnd s c 4
    else
      match s.restoreWrites c with
      | (s, .error k) => ckptEnd s c k
      | (s, .ok ws) =>
        let plan := c.left { locals := [], ops := restoreOps ws }
        match s.runPlan c plan with
        | (_, n, some e) => stopStep (s.runPart c plan n) c e
        | (s, _, none) => ckptEnd s c 0

/-! ### The start of a CKPT (R193, R194) -/

/-- The pages of a command's shards. -/
def Cmd.shardPages (c : Cmd) : List Nat := (c.shards.flatMap fun d => pagesOf d.va d.bytes).eraseDups

/-- Whether every page of the shards translates and is resident; the first that does not stops the command. -/
def State.pagesReach (s : State) (c : Cmd) (wr : Bool) : State × Option EngStop :=
  (c.shards.flatMap fun d => (pagesOf d.va d.bytes).map fun g => Nat.max g d.va).foldl
    (fun (r : State × Option EngStop) va => match r with
      | (s, some e) => (s, some e)
      | (s, none) => match s.engReach c (BitVec.ofNat 64 va) 1 1 wr with
        | (s, .error e) => (s, some e)
        | (s, .ok _) => (s, none)) (s, none)

/-- A CKPT starts: its record and shard entries are read and checked, and a save sets S on every page of every shard. Answers
the command as it then is. -/
def State.startCkpt (s : State) (c : Cmd) : State × Except EngStop Cmd :=
  if c.bp.toNat % 128 ≠ 0 then (s, .error (.bad c.bp))
  else match s.engReadSpan c c.bp.toNat 128 with
    | (s, .error e) => (s, .error e)
    | (s, .ok r) =>
      if !(ckptOk r) || !(s.handleOk (s.unit c.u).part 3 (BitVec.ofNat 32 (fieldAt r 24 4))) then (s, .error (.bad c.bp))
      else
        let tab := fieldAt r 16 8
        match s.engReadSpan c tab (128 * fieldAt r 4 4) with
        | (s, .error e) => (s, .error e)
        | (s, .ok t) =>
          let k := { c with recb := r ++ t }
          match (List.range (fieldAt r 4 4)).find? fun i => !(shardOk ((t.drop (128 * i)).take 128)) with
          | some i => (s, .error (.bad (BitVec.ofNat 64 (tab + 128 * i))))
          | none =>
            if fieldAt r 0 1 = 1 then (s, .ok k)
            else match s.pagesReach k false with
              | (s, some e) => (s, .error e)
              | (s, none) => (s.markPages k k.shardPages, .ok { k with marked := k.shardPages })

end Sys2Proof.Machine
end

