-- ==== Sys2Proof/Machine/EngineCopy.lean ====
section
/-!
DEFINITION. The copy and gather engines (R68, R125, R141, R184 to R187, R348): shape and gather records, and the operations
they stand for.
-/

namespace Sys2Proof.Machine

/-! ### Shape records (R125, R141) -/

/-- A shape record. -/
structure Shape where
  dims : Nat
  esz : Nat
  pack : Nat
  layout : Nat
  ext : List Nat
  val : List Nat
  str : List Int
deriving DecidableEq, Repr

/-- A signed 8-byte field. -/
def signedAt (bs : List Byte) (o : Nat) : Int := (BitVec.ofNat 64 (fieldAt bs o 8)).toInt

/-- A shape record's fields. -/
def shapeAt (r : List Byte) : Shape :=
  let d := List.range (fieldAt r 0 1)
  { dims := fieldAt r 0 1, esz := fieldAt r 1 1, pack := fieldAt r 2 1, layout := fieldAt r 3 1,
    ext := d.map fun i => fieldAt r (16 + 16 * i) 4, val := d.map fun i => fieldAt r (20 + 16 * i) 4,
    str := d.map fun i => signedAt r (24 + 16 * i) }

/-- Whether a record keeps R125 and the first three limits of R141. -/
def shapeOk (r : List Byte) : Bool :=
  let s := shapeAt r
  decide (1 ≤ s.dims) && decide (s.dims ≤ 9) && (s.esz == 1 || s.esz == 2 || s.esz == 4) && decide (s.pack ≤ 1) &&
  zeroAt r 4 12 && zeroAt r (16 + 16 * s.dims) (176 - 16 * s.dims) &&
  (s.ext.zip s.val).all (fun p => decide (1 ≤ p.1) && decide (p.2 ≤ p.1)) &&
  (s.pack == 0 || (s.esz == 1 && s.str.headD 0 == 1 && s.ext.headD 0 % 4 == 0))

/-- The number of elements. -/
def Shape.count (s : Shape) : Nat := s.ext.foldl (· * ·) 1

/-- The bytes the tile holds of it. -/
def Shape.size (s : Shape) : Nat := s.count * s.esz

/-- Whether a nonzero layout code meets R141, for a base address. -/
def Shape.layoutOk (s : Shape) (op : CmdOp) (base : DWord) : Bool :=
  s.layout == 0 ||
  (op == .cpyin && decide (s.layout ≤ 3) && s.dims == 1 && s.str.headD 0 == (s.esz : Int) && base.toNat % 2048 == 0 &&
   s.size % 2048 == 0)

/-- The index vector of element n, dimension 0 fastest. -/
def digits : List Nat → Nat → List Nat
  | [], _ => []
  | e :: r, n => n % e :: digits r (n / e)

/-- Whether an element lies within VAL in every dimension. -/
def Shape.valid (s : Shape) (ix : List Nat) : Bool := (ix.zip s.val).all fun p => decide (p.1 < p.2)

/-- The address of an element: the base plus the sum of i_d × STR[d], modulo 2^64 (R125, R208). -/
def Shape.addr (s : Shape) (base : DWord) (ix : List Nat) : DWord :=
  base + BitVec.ofInt 64 ((ix.zip s.str).foldl (fun acc p => acc + (p.1 : Int) * p.2) 0)

/-- The start of a packed element's row: its address without dimension 0 (R141). -/
def Shape.rowStart (s : Shape) (base : DWord) (ix : List Nat) : DWord := s.addr base (0 :: ix.drop 1)

/-! ### CPYIN, CPYOUT and CPYGG (R184, R185) -/

/-- What a CPYIN does with element n. -/
def Shape.inOp (s : Shape) (base : DWord) (tb n : Nat) : EOp :=
  let ix := digits s.ext n
  let ta := tb + n * s.esz
  if !(s.valid ix) then .fill ta s.esz
  else if s.pack = 1 then
    let bit := 6 * ix.headD 0
    .loadBits (s.rowStart base ix) (s.rowStart base ix + BitVec.ofNat 64 (bit / 8)) (bit % 8) ta
  else .load (s.addr base ix) s.esz ta

/-- What a CPYOUT does with element n. -/
def Shape.outOp (s : Shape) (base : DWord) (tb n : Nat) : List EOp :=
  let ix := digits s.ext n
  let ta := tb + n * s.esz
  if !(s.valid ix) then []
  else if s.pack = 1 then
    let bit := 6 * ix.headD 0
    [.storeBits ta (s.rowStart base ix) (s.rowStart base ix + BitVec.ofNat 64 (bit / 8)) (bit % 8)]
  else [.store ta s.esz (s.addr base ix)]

/-- The blocks of a CPYIN with a layout code (R348): each 2 KiB block of the tile receives the permuted block. PACK plays no part, and
where VAL is below EXT the tile's bytes from VAL × ESZ on are zero and a block without a byte below it is not read. DESIGN CHOICE,
log 68. -/
def Shape.blockOps (s : Shape) (base : DWord) (tb : Nat) : List EOp :=
  let valid := s.val.headD 0 * s.esz
  (List.range (s.size / 2048)).flatMap fun k =>
    if valid ≤ 2048 * k then (List.range 64).map fun q => .fill (tb + 2048 * k + 32 * q) 32
    else [.block (base + BitVec.ofNat 64 (2048 * k)) s.layout (valid - 2048 * k) (tb + 2048 * k)]

/-- What a CPYGG does with element n (R185). -/
def moveOp (src dst : Shape) (sb db : DWord) (n : Nat) : List EOp :=
  let ix := digits dst.ext n
  if !(dst.valid ix) then []
  else [.move (if src.valid ix then some (src.addr sb ix) else none) (dst.addr db ix) dst.esz]

/-! ### GATHER and SCATTER (R186, R187) -/

/-- A gather record. -/
structure GRec where
  count : Nat
  rowb : Nat
  stride : Int
  idx : Nat
  op : Nat
deriving DecidableEq, Repr

/-- A gather record's fields. -/
def grecAt (r : List Byte) : GRec :=
  { count := fieldAt r 0 4, rowb := fieldAt r 4 4, stride := signedAt r 8, idx := fieldAt r 16 4, op := fieldAt r 20 1 }

/-- Whether a gather record keeps its limits (R186). -/
def grecOk (r : List Byte) (op : CmdOp) (extent win : Nat) : Bool :=
  let g := grecAt r
  decide (1 ≤ g.count) && decide (g.count ≤ 65536) && g.rowb % 4 == 0 && decide (4 ≤ g.rowb) && decide (g.rowb ≤ 65536) &&
  g.idx % 4 == 0 && zeroAt r 21 43 && decide (g.op ≤ (if op = .scatter then 2 else 0)) &&
  decide (g.count * g.rowb ≤ extent) && decide (g.idx + 4 * g.count ≤ win)

/-- The operations on row r with index x (R187). An address outside 64 bits fails to translate, as one not a multiple of 4
faults (R186, R208). -/
def GRec.rowOps (g : GRec) (op : CmdOp) (base : DWord) (tb r : Nat) (x : Word) : List EOp :=
  let ta := tb + r * g.rowb
  let words := List.range (g.rowb / 4)
  if x = 0xFFFFFFFF#32 then (if op = .gather then words.map fun i => .fill (ta + 4 * i) 4 else [])
  else
    let a := (base.toNat : Int) + (x.toNat : Int) * g.stride
    let va := BitVec.ofInt 64 a
    if a < 0 ∨ 2 ^ 64 ≤ a ∨ va.toNat % 4 ≠ 0 then [.refuse va]
    else words.map fun i =>
      let v := va + BitVec.ofNat 64 (4 * i)
      if op = .gather then .load v 4 (ta + 4 * i)
      else if g.op = 0 then .store (ta + 4 * i) 4 v
      else .rmw (ta + 4 * i) v (if g.op = 1 then .radd else .raddf)

/-! ### Records and plans -/

/-- Whether the record that a copy or gather command has read lets it go on (R125, R141, R185, R186). -/
def State.copyRecordOk (s : State) (c : Cmd) : Bool :=
  let e := s.tile c.team (c.tile.getD 0)
  match c.op with
  | .cpyin | .cpyout =>
    shapeOk c.recb && decide ((shapeAt c.recb).size ≤ e.extent) && (shapeAt c.recb).layoutOk c.op c.bp
  | .cpygg =>
    let r2 := c.recb.drop 192
    let a := shapeAt c.recb
    let b := shapeAt r2
    shapeOk (c.recb.take 192) && shapeOk r2 && a.dims == b.dims && a.esz == b.esz && a.ext == b.ext && a.pack == 0 &&
      b.pack == 0 && a.layout == 0 && b.layout == 0
  | .gather | .scatter => grecOk c.recb c.op e.extent (s.team c.team).win
  | .coll | .sealb | .sealu | .sealf | .ckpt => true

/-- What a copy or gather command does. A CPYGG copies its elements in order of their linear index, one of the orders that R185
allows. DESIGN CHOICE, log 113. -/
def State.copyPlan (s : State) (c : Cmd) : Plan :=
  let e := s.tile c.team (c.tile.getD 0)
  let sh := shapeAt c.recb
  let g := grecAt c.recb
  let rows := fun (_ : Unit) => (List.range g.count).flatMap fun r =>
    g.rowOps c.op c.bp e.base r (leWord ((s.team c.team).bytes (g.idx + 4 * r) 4))
  match c.op with
  | .cpyin =>
    { locals := [(e.base, sh.size, true)],
      ops := if sh.layout = 0 then (List.range sh.count).map fun n => sh.inOp c.bp e.base n else sh.blockOps c.bp e.base }
  | .cpyout =>
    { locals := [(e.base, sh.size, false)], ops := (List.range sh.count).flatMap fun n => sh.outOp c.bp e.base n }
  | .cpygg =>
    { locals := [], ops := (List.range sh.count).flatMap fun n => moveOp sh (shapeAt (c.recb.drop 192)) c.bp c.bp2 n }
  | .gather => { locals := [(g.idx, 4 * g.count, false), (e.base, g.count * g.rowb, true)], ops := rows () }
  | .scatter => { locals := [(g.idx, 4 * g.count, false), (e.base, g.count * g.rowb, false)], ops := rows () }
  | .coll | .sealb | .sealu | .sealf | .ckpt => { locals := [], ops := [] }

end Sys2Proof.Machine
end

