-- ==== Sys2Proof/Machine/EngineEvents.lean ====
section
/-!
DEFINITION. An engine command's start, completion and fault (R128, R140 to R142, R183, R306, R307).
-/

namespace Sys2Proof.Machine

/-! ### When a command can start (R140, R190, R299, R306, R307) -/

/-- The engine of its slice that serves a command (R140): by class, and by cluster for the copy and gather engines. -/
def State.engineOf (s : State) (c : Cmd) : Nat × Nat × Nat :=
  let w := s.unit c.u
  (w.slice, c.cls, if c.cls = 1 then w.core / 4 else if c.cls = 2 then w.core / 4 % 4 else 0)

/-- Whether the engine's function is ready (R307). -/
def State.engineUp (s : State) (c : Cmd) : Bool :=
  let w := s.unit c.u
  let r := (s.slice w.slice).srdy
  if c.cls = 1 then r.getLsbD (16 + w.core / 4) else if c.cls = 5 then r.getLsbD 10 else r.getLsbD 12

/-- Whether a queued command can start: its turn in its chain, its engine ready and not frozen, its partition not stalled; a
seal command waits for the earlier ones of its context. -/
def State.canStart (s : State) (c : Cmd) : Bool :=
  let before := s.cmds.takeWhile fun k => !(k.id == c.id)
  c.st == .queued && s.mayStart c.u && s.engineUp c &&
  !(before.any fun k => k.team == c.team && k.cls == c.cls && k.st == .queued) &&
  !(c.cls == 5 && before.any fun k => k.u == c.u && k.cls == 5) &&
  !(s.cmds.any fun k => s.engineOf k == s.engineOf c && match k.st with
    | .held _ _ | .addHeld _ => true
    | .queued | .running | .failing _ => false)

/-! ### What each start reads (R141, R188) -/

/-- The record in the window, read as the command starts; a race faults it (R142, R183). -/
def State.readRecord (s : State) (c : Cmd) : State × Except EngStop (List Byte) :=
  if c.op.recordLen = 0 then (s, .ok [])
  else match s.engLocal c c.sval.toNat c.op.recordLen false with
    | (s, some e) => (s, .error e)
    | (s, none) => (s, .ok ((s.team c.team).bytes c.sval.toNat c.op.recordLen))

/-- The communicator that a COLL names, as a read finds it now. -/
def State.peekComm (s : State) (c : Cmd) : Option (List Byte) :=
  match (s.engReadSpan c c.bp.toNat 64).2 with
  | .ok com => some com
  | .error _ => none

/-- Whether an earlier COLL of the same communicator has still to start: operations are matched in order of issue (R189). -/
def State.collBehind (s : State) (c : Cmd) : Bool :=
  s.cmds.any fun k => k.op == .coll && k.st == .queued && decide (k.id < c.id) && k.bp == c.bp &&
    (s.unit k.u).part == (s.unit c.u).part && (s.grid k.grid).asid == (s.grid c.grid).asid

/-- A collective that starts, or that ends before it could, is entered among those of its communicator (R189). -/
def State.enterColl (s : State) (c : Cmd) (r : List Byte) : State :=
  if (collAt r).matched then s.modPart (s.unit c.u).part fun p =>
    { p with colls := p.colls ++ [((s.grid c.grid).asid, c.bp.toNat, c.id)] }
  else s

/-- A COLL starts: its communicator and peer table are read, and everything is checked (R188, R325). While its association is
being rekeyed it waits (R327). -/
def State.startColl (s : State) (c : Cmd) : State × Except EngStop Cmd :=
  let bad : EngStop := .bad (c.sval.setWidth 64)
  let s := s.enterColl c c.recb
  if c.bp.toNat % 64 ≠ 0 then (s, .error (.bad c.bp))
  else match s.engReadSpan c c.bp.toNat 64 with
    | (s, .error e) => (s, .error e)
    | (s, .ok com) =>
      let r := c.recb ++ com
      let k := collAt r
      if !(collOk r) || !(s.handleOk (s.unit c.u).part 0 k.chan) then (s, .error bad)
      else if s.collBehind c || (k.linked &&
          (Tab.find? s.rot.assocs (assocKey (s.unit c.u).slice (chanKey k.chan))).any fun x => x.barred || x.needRekey) then
        (s, .error .wait)
      else match s.engReadSpan c k.peers (16 * k.nrank) with
        | (s, .error e) => (s, .error e)
        | (s, .ok ps) => (s, .ok { c with recb := r ++ ps })

/-- What a start does for each kind of command: the command as it then is, or what stops it. A copy or gather whose accesses
would violate the firewall is found here (R304). -/
def State.startKind (s : State) (c : Cmd) : State × Except EngStop Cmd :=
  match c.op with
  | .coll => s.startColl c
  | .ckpt => s.startCkpt c
  | .sealb | .sealu | .sealf => (s, .ok c)
  | .cpyin | .cpyout | .cpygg | .gather | .scatter =>
    if !(s.copyRecordOk c) then (s, .error (.bad (c.sval.setWidth 64)))
    else match s.runPlan c (s.copyPlan c) with
      | (_, _, some (.fire va wr pa)) => (s, .error (.fire va wr pa))
      | (_, _, some (.bad _)) | (_, _, some .wait) | (_, _, none) => (s, .ok c)

/-- The operations of a command that may go before it completes; a SEALF signs its record first (R191), a restore chooses its step
(R333). -/
def State.planOf (s : State) (c : Cmd) : State × Except EngStop Plan :=
  match c.op with
  | .cpyin | .cpyout | .cpygg | .gather | .scatter => (s, .ok (s.copyPlan c))
  | .sealf => match s.signFrame c with
    | (s, .error e) => (s, .error e)
    | (s, .ok (k, r)) => (s, .ok { locals := [], ops := recordOps k.area r })
  | .coll => (s, .ok { locals := [], ops := collOps c })
  | .ckpt =>
    if !(fieldAt c.recb 0 1 == 1) then (s, .ok { locals := [], ops := [] })
    else match s.restoreWrites c with
      | (s, .error _) => (s, .ok { locals := [], ops := [] })
      | (s, .ok ws) => (s, .ok { locals := [], ops := restoreOps ws })
  | .sealb | .sealu => (s, .ok { locals := [], ops := [] })

/-- A running command performs some of its operations before it completes, which other agents may then see (R183). -/
def State.goOn (s : State) (c : Cmd) : Out State :=
  match s.planOf c with
  | (_, .error _) => .fault .notPossible
  | (s, .ok p) => match s.runLocals c p.locals with
    | (_, some _) => .fault .notPossible
    | (s, none) =>
      let (s, dn) := s.runAhead c (opGroups (p.ops.zip (List.range p.ops.length))) [] c.done
      .next (s.modCmd c.id fun k => { k with done := dn })

/-- ENGINE_COMMAND_START (R141): the engine takes the command from its chain and reads its record. For a command that runs already,
it is the engine going on with it (log 65). -/
def execEngineCommandStart (cmd : Nat) (s : State) : Out State :=
  match s.cmd cmd with
  | none => .fault .notPossible
  | some c =>
    if c.st == .running && s.mayStart c.u && s.engineUp c then s.goOn c
    else if !(s.canStart c) then .fault .notPossible
    else
      let s := (s.bearAgent c.agent c.start).modCmd cmd fun k => { k with st := .running }
      match s.readRecord c with
      | (s, .error e) => stopStep s c e
      | (s, .ok r) =>
        let c := { c with recb := r, st := .running }
        match (s.modCmd cmd fun _ => c).startKind c with
        | (s, .ok k) => .next (s.modCmd cmd fun _ => k)
        | (s, .error e) => stopStep s c e

/-! ### Completion and fault (R140, R142) -/

/-- What a copy, gather or SEALF command still has to do: with its stop, what it has written by then (R142). -/
def State.runRest (s : State) (c : Cmd) : State × Option EngStop :=
  match s.planOf c with
  | (s, .error e) => (s, some e)
  | (s, .ok p) =>
    let p := c.left p
    match s.runPlan c p with
    | (t, _, none) => (t, none)
    | (_, n, some e) => (s.runPart c p n, some e)

/-- What a copy, gather or seal command does when it completes, and what stops it. COLL and CKPT complete in steps of their
own. -/
def State.runCmd (s : State) (c : Cmd) : State × Option EngStop :=
  match c.op with
  | .cpyin | .cpyout | .cpygg | .gather | .scatter => s.runRest c
  | .sealb => s.runSealb c
  | .sealu => s.runSealu c
  | .sealf => match s.runRest c with
    | (s, some e) => (s, some e)
    | (s, none) => (s.modUnit c.u fun w => { w with sealCtx := none }, none)
  | .coll | .ckpt => (s, some .wait)

/-- ENGINE_COMMAND_COMPLETE (R140): a running copy, gather or seal command has its effect and completes. -/
def execEngineCommandComplete (cmd : Nat) (s : State) : Out State :=
  match s.cmd cmd with
  | none => .fault .notPossible
  | some c =>
    if !(c.st == .running) then .fault .notPossible
    else match s.runCmd c with
      | (s, none) => finishStep s c
      | (_, some _) => .fault .notPossible

/-- A command's fault leaves no page marked by it (R219). -/
def State.endFault (s : State) (c : Cmd) (taddr : DWord) : State := (s.unmarkAll c).faultCmd c taddr

/-- ENGINE_COMMAND_FAULT (R142): a command that is to fault does; a running one does where its next access would fault it,
leaving what it has written, and is held where that access violates the firewall (R306). A running COLL faults when the link
reports its peer unreachable or the members disagree, with TADDR the record's local address (R189). -/
def execEngineCommandFault (cmd : Nat) (s : State) : Out State :=
  match s.cmd cmd with
  | none => .fault .notPossible
  | some c =>
    match c.st with
    | .queued => .fault .notPossible
    | .held _ _ | .addHeld _ => .fault .notPossible
    | .failing va => .next (s.endFault c va)
    | .running =>
      if c.op = .coll then .next (s.endFault c (c.sval.setWidth 64))
      else match s.runCmd c with
        | (_, none) => .fault .notPossible
        | (s, some e) => match e with
          | .bad va => .next (s.endFault c va)
          | .fire va wr pa => stopStep s c (.fire va wr pa)
          | .wait => .fault .notPossible

end Sys2Proof.Machine
end

