-- ==== Sys2Proof/Machine/Aes.lean ====
section
/-!
DEFINITION. AES-256-XTS, the cipher of the flash port (R328): the block cipher of FIPS 197 and the XTS mode of NIST SP 800-38E. Both
standards are outside the spec, which names the cipher alone (PRESUMED, log 11).
-/

namespace Sys2Proof.Machine

/-! ### Arithmetic in GF(2^8) -/

/-- Twice an element. -/
def gfDouble (x : Nat) : Nat := if x < 128 then 2 * x else Nat.xor (2 * x) 0x11B

/-- The product of `a` with the low `n` bits of `b`. -/
def gfMulBits : Nat → Nat → Nat → Nat
  | 0, _, _ => 0
  | n + 1, a, b => Nat.xor (if b % 2 = 1 then a else 0) (gfMulBits n (gfDouble a) (b / 2))

/-- The product of two elements. -/
def gfMul (a b : Nat) : Nat := gfMulBits 8 a b

/-- The inverse of an element, its 254th power; 0 for 0. -/
def gfInv (x : Nat) : Nat :=
  ((List.range 7).foldl (fun (p : Nat × Nat) _ => let q := gfMul p.1 p.1; (q, gfMul p.2 q)) (x, 1)).2

/-- A byte rotated left. -/
def rotl8 (x k : Nat) : Nat := x * 2 ^ k % 256 + x / 2 ^ (8 - k)

/-- The S-box. -/
def sbox (x : Nat) : Nat :=
  let b := gfInv x
  [rotl8 b 1, rotl8 b 2, rotl8 b 3, rotl8 b 4, 0x63].foldl Nat.xor b

/-- The inverse S-box. -/
def invSbox (y : Nat) : Nat := gfInv ([rotl8 y 3, rotl8 y 6, 0x05].foldl Nat.xor (rotl8 y 1))

/-! ### The block cipher -/

/-- Bytes added in GF(2^8), position by position. -/
def xorBytes (a b : List Nat) : List Nat := List.zipWith Nat.xor a b

/-- The word of the key schedule that follows `ws`, whose length is at least 8. -/
def nextKeyWord (ws : List (List Nat)) : List Nat :=
  let i := ws.length
  let t := ws.getD (i - 1) []
  let t := if i % 8 = 0 then xorBytes (((t.drop 1) ++ t.take 1).map sbox) [(List.range (i / 8 - 1)).foldl (fun x _ => gfDouble x) 1, 0, 0, 0]
    else if i % 8 = 4 then t.map sbox else t
  xorBytes (ws.getD (i - 8) []) t

/-- The 15 round keys of a 32-byte key. -/
def roundKeys (key : List Nat) : List (List Nat) :=
  let ws := (List.range 52).foldl (fun ws _ => ws ++ [nextKeyWord ws]) ((List.range 8).map fun i => (key.drop (4 * i)).take 4)
  (List.range 15).map fun r => ((ws.drop (4 * r)).take 4).flatten

/-- The rows of a block shifted by their numbers, forwards or back; byte 4c + r is in row r of column c. -/
def shiftRows (back : Bool) (b : List Nat) : List Nat :=
  (List.range 16).map fun i => b.getD ((i + (if back then 12 else 4) * (i % 4)) % 16) 0

/-- Each column of a block multiplied by the circulant matrix whose first row is given. -/
def mixColumns (row : List Nat) (b : List Nat) : List Nat :=
  (List.range 16).map fun i =>
    (List.range 4).foldl (fun x j => Nat.xor x (gfMul (b.getD (i / 4 * 4 + j) 0) (row.getD ((j + 4 - i % 4) % 4) 0))) 0

/-- A block enciphered under round keys. -/
def aesEncrypt (ks : List (List Nat)) (b : List Nat) : List Nat :=
  (List.range 14).foldl (fun b r =>
    let b := shiftRows false (b.map sbox)
    xorBytes (if r < 13 then mixColumns [2, 3, 1, 1] b else b) (ks.getD (r + 1) [])) (xorBytes b (ks.getD 0 []))

/-- A block deciphered under round keys: the steps of `aesEncrypt` undone, the last first. -/
def aesDecrypt (ks : List (List Nat)) (b : List Nat) : List Nat :=
  xorBytes ((List.range 14).foldl (fun b j =>
    let b := xorBytes b (ks.getD (14 - j) [])
    (shiftRows true (if j = 0 then b else mixColumns [14, 11, 13, 9] b)).map invSbox) b) (ks.getD 0 [])

/-! ### XTS -/

/-- A tweak multiplied by α. -/
def nextTweak (t : Nat) : Nat := Nat.xor (2 * t % 2 ^ 128) (if 2 ^ 127 ≤ t then 0x87 else 0)

/-- The bytes of a number, the least significant first. -/
def natBytes (n v : Nat) : List Nat := (leBytes n v).map BitVec.toNat

/-- Blocks of 16 bytes under a key and the tweak of the first. -/
def xtsBlocks (f : List Nat → List Nat) : Nat → Nat → List Nat → List Nat
  | 0, _, _ => []
  | n + 1, t, bs => xorBytes (f (xorBytes (bs.take 16) (natBytes 16 t))) (natBytes 16 t) ++ xtsBlocks f n (nextTweak t) (bs.drop 16)

/-- A data unit of `n` blocks with its number, enciphered or deciphered under the two AES-256 keys, low half first. -/
def xtsUnit (key : BitVec 512) (unit n : Nat) (encipher : Bool) (bs : List Byte) : List Byte :=
  let k1 := roundKeys (natBytes 32 key.toNat)
  let k2 := roundKeys (natBytes 32 (key.toNat / 2 ^ 256))
  let t := leNat ((aesEncrypt k2 (natBytes 16 unit)).map (BitVec.ofNat 8))
  (xtsBlocks (if encipher then aesEncrypt k1 else aesDecrypt k1) n t (bs.map BitVec.toNat)).map (BitVec.ofNat 8)

end Sys2Proof.Machine
end

