-- ==== Sys2Proof/WellFormed.lean ====
section
/-!
DEFINITION. Which instruction words are legal when they act (R59), beyond what the types of the operand fields say: at
most one literal field (R49), the must-be-zero bits of TRY's literal (R49), QOP.not's sb (R55), and which opcodes are reserved (R57, R58). A step of another agent has no word and no such rule.
-/

namespace Sys2Proof

/-- Whether a source field holds LIT (R44). -/
def Src.isLit : Src → Bool
  | .lit _ => true
  | .reg _ | .latch _ | .zero | .tid | .abc => false

/-- No more than one field holds LIT (R49, R59). -/
def oneLit (a b : Src) : Bool := !(a.isLit && b.isLit)

/-- The special registers SWR may name, checked when SWR acts (R59): FCR, FSR, TVEC, TCAUSE, TADDR.LO, TADDR.HI, TPC, UIVEC, CCNT.LO, CCNT.HI (R156). -/
def swrWritable (ix : Fin 40) : Bool :=
  [0x010, 0x011, 0x016, 0x017, 0x018, 0x019, 0x01A, 0x01D, 0x01E, 0x01F].contains ix.val

/-- Bits 30:15 of the TRY literal must be zero; bit 31 is ignored by this check (R49). -/
def tryLitOk (lit : Word) : Bool := lit &&& 0x7FFF8000#32 == 0#32

/-- An opcode of the L-set (R57: 0x74 to 0x7F) or of the G-set (R58: 0x6C to 0x7F) that is reserved. -/
def opReserved (gset : Bool) (op : BitVec 7) : Bool :=
  if gset then decide (0x6C ≤ op.toNat) else decide (0x74 ≤ op.toNat)

/-- The legality of R59 for an instruction whose fields already lie within their types. -/
def Instr.wf : Instr → Bool
  | .iadd _ _ a b => oneLit a b
  | .isub _ _ a b => oneLit a b
  | .imul _ _ a b => oneLit a b
  | .imulh _ _ a b => oneLit a b
  | .imulhu _ _ a b => oneLit a b
  | .imac _ _ a b => oneLit a b
  | .imin _ _ a b => oneLit a b
  | .imax _ _ a b => oneLit a b
  | .umin _ _ a b => oneLit a b
  | .umax _ _ a b => oneLit a b
  | .andOp _ _ a b => oneLit a b
  | .orOp _ _ a b => oneLit a b
  | .xorOp _ _ a b => oneLit a b
  | .andn _ _ a b => oneLit a b
  | .shl _ _ a b => oneLit a b
  | .shr _ _ a b => oneLit a b
  | .sar _ _ a b => oneLit a b
  | .bfe _ _ a b => oneLit a b
  | .bfes _ _ a b => oneLit a b
  | .bfi _ _ a b => oneLit a b
  | .sel _ _ a b => oneLit a b
  | .icmpeq _ _ a b => oneLit a b
  | .icmpne _ _ a b => oneLit a b
  | .icmplt _ _ a b => oneLit a b
  | .icmple _ _ a b => oneLit a b
  | .ucmplt _ _ a b => oneLit a b
  | .ucmple _ _ a b => oneLit a b
  | .fadd _ _ a b => oneLit a b
  | .fsub _ _ a b => oneLit a b
  | .fmul _ _ a b => oneLit a b
  | .fmac _ _ a b => oneLit a b
  | .fmal _ _ a b => oneLit a b
  | .fmin _ _ a b => oneLit a b
  | .fmax _ _ a b => oneLit a b
  | .fscale _ _ a b => oneLit a b
  | .fcmpeq _ _ a b => oneLit a b
  | .fcmplt _ _ a b => oneLit a b
  | .fcmple _ _ a b => oneLit a b
  | .fcmpun _ _ a b => oneLit a b
  | .badd2 _ _ a b => oneLit a b
  | .bmul2 _ _ a b => oneLit a b
  | .bmac2 _ _ a b => oneLit a b
  | .bmax2 _ _ a b => oneLit a b
  | .hadd2 _ _ a b => oneLit a b
  | .hmul2 _ _ a b => oneLit a b
  | .hmac2 _ _ a b => oneLit a b
  | .hmax2 _ _ a b => oneLit a b
  | .pkbf _ _ a b => oneLit a b
  | .pkhf _ _ a b => oneLit a b
  | .cvtsr _ _ a b => oneLit a b
  | .qop _ f _ _ b => !(f == .not) || b == 0
  | .tryOp _ _ lit => tryLitOk lit
  | .reservedOpcodeWord gset op _ _ => opReserved gset op
  | .nop _ | .mov _ _ _ | .vbc _ _ _ | .iabs _ _ _
  | .clz _ _ _ | .popc _ _ _ | .brev _ _ _ | .pand _ _ _ _
  | .por _ _ _ _ | .pxor _ _ _ _ | .pnot _ _ _ | .ptov _ _ _
  | .vtop _ _ _ | .frcp _ _ _ | .frsq _ _ _ | .fsqrt _ _ _
  | .fexp2 _ _ _ | .flog2 _ _ _ | .fsinpi _ _ _ | .fcospi _ _ _
  | .ftanh _ _ _ | .cvtfi _ _ _ | .cvtif _ _ _ | .upklo _ _ _
  | .upkhi _ _ _ | .cvtn _ _ _ _ _ | .cvtw _ _ _ _ _ | .qscale _ _ _ _ _
  | .shfl _ _ _ _ | .lswap _ _ _ _ | .hswap _ _ _ _ | .ballot _ _ _
  | .ldg8 _ _ _ _ _ _ | .ldg16 _ _ _ _ _ _ | .ldg32 _ _ _ _ _ _ | .ldg64 _ _ _ _ _ _
  | .ldg128 _ _ _ _ _ _ | .stg8 _ _ _ _ _ _ | .stg16 _ _ _ _ _ _ | .stg32 _ _ _ _ _ _
  | .stg64 _ _ _ _ _ _ | .stg128 _ _ _ _ _ _ | .ldl32 _ _ _ _ | .ldl64 _ _ _ _
  | .ldl128 _ _ _ _ | .stl32 _ _ _ _ | .stl64 _ _ _ _ | .stl128 _ _ _ _
  | .aadd _ _ _ _ _ _ | .aadd64 _ _ _ _ _ _ | .amin _ _ _ _ _ _ | .amax _ _ _ _ _ _
  | .aand _ _ _ _ _ _ | .aor _ _ _ _ _ _ | .axchg _ _ _ _ _ _ | .acas _ _ _ _ _ _
  | .radd _ _ _ _ _ _ | .raddf _ _ _ _ _ _ | .rmax _ _ _ _ _ _ | .drain _ _ _ _
  | .accw _ _ _ _ | .bra _ _ | .call _ _ | .ret _
  | .trapl _ _ | .rollb _ _ | .snop _ | .smov _ _ _
  | .slit _ _ _ | .sadd _ _ _ _ | .ssub _ _ _ _ | .smul _ _ _ _
  | .smin _ _ _ _ | .smax _ _ _ _ | .sand _ _ _ _ | .sor _ _ _ _
  | .sxor _ _ _ _ | .sshl _ _ _ _ | .sshr _ _ _ _ | .ssar _ _ _ _
  | .saddi _ _ _ _ | .sadd64 _ _ _ _ | .sbfe _ _ _ _ | .sclz _ _ _
  | .spopc _ _ _ | .scmpeq _ _ _ _ | .scmpne _ _ _ _ | .scmplt _ _ _ _
  | .scmple _ _ _ _ | .scmpltu _ _ _ _ | .ssel _ _ _ _ _ | .sfirst _ _
  | .vmask _ _ | .srd _ _ _ | .swr _ _ _ | .jmp _ _
  | .loop _ _ _ | .scall _ _ | .sret _ | .jovl _ _ _
  | .ovload _ _ _ | .yield _ | .exit _ | .trap _ _
  | .tret _ | .tmask _ _ | .uint _ _ _ | .uiret _
  | .sysc _ _ _ _ | .sbrk _ | .launch _ _ | .regq _ _
  | .regpool _ _ | .sld _ _ _ _ _ _ | .sld64 _ _ _ _ _ _ | .sst _ _ _ _ _ _
  | .sst64 _ _ _ _ _ _ | .saadd _ _ _ _ _ _ | .sacas _ _ _ _ _ _ | .pgreq _ _ _ _
  | .pgadv _ _ _ _ | .palloc _ _ _ | .pfree _ _ | .cnew _ _ _
  | .cfree _ _ | .cadd _ _ _ _ | .caddr _ _ _ _ | .cread _ _ _ _
  | .waitge _ _ _ _ | .waitto _ _ _ _ _ | .tbar _ | .fence _ _
  | .fencex _ _ _ _ | .commit _ | .txopen _ _ | .txclose _
  | .txcancel _ _ | .tiledef _ _ _ _ | .tilerel _ _ | .tstate _ _ _
  | .metadef _ _ _ _ | .cpyin _ _ _ _ | .cpyout _ _ _ _ | .cpygg _ _ _ _
  | .gather _ _ _ _ | .scatter _ _ _ _ | .coll _ _ _ | .sealb _ _ _
  | .sealu _ _ _ | .sealf _ _ | .ckpt _ _ | .msel _ _ _
  | .mma _ _ | .mmas _ _ | .mmag _ _ | .mscale _ _ _ _
  | .mzero _ _ _ | .mrel _ _ | .mwait _ _ | .hint _ _ _ _
  | .sfadd _ _ _ _ | .sfmul _ _ _ _ | .sfcmplt _ _ _ _ | .scvtfi _ _ _
  | .scvtif _ _ _ | .sdivu _ _ _ _ | .sremu _ _ _ _ | .qany _ _ _
  | .qall _ _ _ | .pset _ _ _ | .sleep _ _ | .slit64 _ _ _ _
  | .fetchOutsideOverlay | .loadDataReturn _ _ _ | .storePerformed _ _ _ | .trapEntry _ _
  | .waitSatisfied _ _ | .waittoTimeout _ _ | .sleepWake _ _ | .regqGrant _
  | .regqRefuse _ | .matrixExecuteStart _ _ | .matrixComplete _ _ | .engineCommandStart _
  | .engineCommandComplete _ | .engineCommandFault _ | .overlaySlotCopy _ | .overlayCopyDone _
  | .uintDelivery _ | .watchdog _ _ _ | .warpAging _ | .syscReply _ _ _
  | .collAllReduce _ _ | .collReduceScatter _ _ | .collAllGather _ _ | .collBroadcast _ _
  | .collPut _ _ | .collGet _ _ | .collAllToAll _ _ | .fabricRemoteAccess _ _
  | .ckptSave _ _ _ | .ckptRestore _ _ | .ckptPageCopy _ _ | .sealContextVoid _ _
  | .gridRetire _ | .pgreqResidentAdd _ _ | .rangeEvict _ _ _ _ | .recordTake _ _
  | .gridEligible _ | .gridPlace _ | .bindPlace _ _ | .bindWithdraw _ _
  | .bindReturn _ _ | .teamSave _ | .graceWindowEnd _ | .timeSliceExpiry _
  | .eventRecordWrite _ | .scRegisterQueue _ _ | .scRemoveQueue _ _ | .scSetEventRing _ _
  | .tlbinvPage _ _ | .tlbinvContext _ _ | .tlbinvReload _ _ | .tlbinvAll _ _
  | .tlbinvDone _ | .sliceReset _ | .functionReady _ _ | .firewallReleaseAll _
  | .actctlWrite _ _ | .pmctlThaw _ _ | .addressRangeWrite _ _ _ | .registerWrite _ _ _
  | .progressWindowEnd _ | .debugHalt _ | .debugResume _ _ _ | .partitionFuse _ _ _ _ _ _
  | .kernelBoot _ _ _ | .partitionResize _ _ _ | .resizeSliceStep _ | .partitionDissolve _
  | .scrubChunk _ | .powerOn | .powerFail | .getVersion _ _
  | .getCapabilities _ _ | .negotiateAlgorithms _ _ | .getDigests _ _ | .getCertificate _ _
  | .challenge _ _ | .getMeasurements _ _ | .measurementExtend _ _ _ | .rotFailover
  | .packetSend _ _ _ | .packetReceive _ _ _ _ | .packetRetry _ _ _ | .rekey _ _
  | .rekeyReopen _ _ _ _ | .flashAccess _ _ _ _ | .stackRead _ | .stackWrite _
  | .stackAtomic _ | .stackZeroLine _ | .refreshManagement _ _ _ | .bankBlockEnd _ _ _
  | .refreshWindowEnd _ | .patrolRead _ _ | .hostAccess _ _ _ | .childQueueTake _
  | .peerUnreachable _ _ | .keyHandleIssue _ _ _ | .rotReset | .gridEndByKernel _ => true

/-- Whether the constructor is an instruction word; the others are steps of other agents. -/
def Instr.isWord : Instr → Bool
  | .fetchOutsideOverlay | .loadDataReturn _ _ _ | .storePerformed _ _ _ | .trapEntry _ _
  | .waitSatisfied _ _ | .waittoTimeout _ _ | .sleepWake _ _ | .regqGrant _
  | .regqRefuse _ | .matrixExecuteStart _ _ | .matrixComplete _ _ | .engineCommandStart _
  | .engineCommandComplete _ | .engineCommandFault _ | .overlaySlotCopy _ | .overlayCopyDone _
  | .uintDelivery _ | .watchdog _ _ _ | .warpAging _ | .syscReply _ _ _
  | .collAllReduce _ _ | .collReduceScatter _ _ | .collAllGather _ _ | .collBroadcast _ _
  | .collPut _ _ | .collGet _ _ | .collAllToAll _ _ | .fabricRemoteAccess _ _
  | .ckptSave _ _ _ | .ckptRestore _ _ | .ckptPageCopy _ _ | .sealContextVoid _ _
  | .gridRetire _ | .pgreqResidentAdd _ _ | .rangeEvict _ _ _ _ | .recordTake _ _
  | .gridEligible _ | .gridPlace _ | .bindPlace _ _ | .bindWithdraw _ _
  | .bindReturn _ _ | .teamSave _ | .graceWindowEnd _ | .timeSliceExpiry _
  | .eventRecordWrite _ | .scRegisterQueue _ _ | .scRemoveQueue _ _ | .scSetEventRing _ _
  | .tlbinvPage _ _ | .tlbinvContext _ _ | .tlbinvReload _ _ | .tlbinvAll _ _
  | .tlbinvDone _ | .sliceReset _ | .functionReady _ _ | .firewallReleaseAll _
  | .actctlWrite _ _ | .pmctlThaw _ _ | .addressRangeWrite _ _ _ | .registerWrite _ _ _
  | .progressWindowEnd _ | .debugHalt _ | .debugResume _ _ _ | .partitionFuse _ _ _ _ _ _
  | .kernelBoot _ _ _ | .partitionResize _ _ _ | .resizeSliceStep _ | .partitionDissolve _
  | .scrubChunk _ | .powerOn | .powerFail | .getVersion _ _
  | .getCapabilities _ _ | .negotiateAlgorithms _ _ | .getDigests _ _ | .getCertificate _ _
  | .challenge _ _ | .getMeasurements _ _ | .measurementExtend _ _ _ | .rotFailover
  | .packetSend _ _ _ | .packetReceive _ _ _ _ | .packetRetry _ _ _ | .rekey _ _
  | .rekeyReopen _ _ _ _ | .flashAccess _ _ _ _ | .stackRead _ | .stackWrite _
  | .stackAtomic _ | .stackZeroLine _ | .refreshManagement _ _ _ | .bankBlockEnd _ _ _
  | .refreshWindowEnd _ | .patrolRead _ _ | .hostAccess _ _ _ | .childQueueTake _
  | .peerUnreachable _ _ | .keyHandleIssue _ _ _ | .rotReset | .gridEndByKernel _ => false
  | .nop _ | .mov _ _ _ | .vbc _ _ _ | .iadd _ _ _ _ | .isub _ _ _ _
  | .imul _ _ _ _ | .imulh _ _ _ _ | .imulhu _ _ _ _ | .imac _ _ _ _ | .imin _ _ _ _
  | .imax _ _ _ _ | .umin _ _ _ _ | .umax _ _ _ _ | .iabs _ _ _ | .andOp _ _ _ _
  | .orOp _ _ _ _ | .xorOp _ _ _ _ | .andn _ _ _ _ | .shl _ _ _ _ | .shr _ _ _ _
  | .sar _ _ _ _ | .clz _ _ _ | .popc _ _ _ | .brev _ _ _ | .bfe _ _ _ _
  | .bfes _ _ _ _ | .bfi _ _ _ _ | .sel _ _ _ _ | .icmpeq _ _ _ _ | .icmpne _ _ _ _
  | .icmplt _ _ _ _ | .icmple _ _ _ _ | .ucmplt _ _ _ _ | .ucmple _ _ _ _ | .pand _ _ _ _
  | .por _ _ _ _ | .pxor _ _ _ _ | .pnot _ _ _ | .ptov _ _ _ | .vtop _ _ _
  | .fadd _ _ _ _ | .fsub _ _ _ _ | .fmul _ _ _ _ | .fmac _ _ _ _ | .fmal _ _ _ _
  | .fmin _ _ _ _ | .fmax _ _ _ _ | .fscale _ _ _ _ | .fcmpeq _ _ _ _ | .fcmplt _ _ _ _
  | .fcmple _ _ _ _ | .fcmpun _ _ _ _ | .frcp _ _ _ | .frsq _ _ _ | .fsqrt _ _ _
  | .fexp2 _ _ _ | .flog2 _ _ _ | .fsinpi _ _ _ | .fcospi _ _ _ | .ftanh _ _ _
  | .badd2 _ _ _ _ | .bmul2 _ _ _ _ | .bmac2 _ _ _ _ | .bmax2 _ _ _ _ | .hadd2 _ _ _ _
  | .hmul2 _ _ _ _ | .hmac2 _ _ _ _ | .hmax2 _ _ _ _ | .cvtfi _ _ _ | .cvtif _ _ _
  | .pkbf _ _ _ _ | .pkhf _ _ _ _ | .upklo _ _ _ | .upkhi _ _ _ | .cvtn _ _ _ _ _
  | .cvtw _ _ _ _ _ | .qscale _ _ _ _ _ | .cvtsr _ _ _ _ | .shfl _ _ _ _ | .lswap _ _ _ _
  | .hswap _ _ _ _ | .ballot _ _ _ | .ldg8 _ _ _ _ _ _ | .ldg16 _ _ _ _ _ _ | .ldg32 _ _ _ _ _ _
  | .ldg64 _ _ _ _ _ _ | .ldg128 _ _ _ _ _ _ | .stg8 _ _ _ _ _ _ | .stg16 _ _ _ _ _ _ | .stg32 _ _ _ _ _ _
  | .stg64 _ _ _ _ _ _ | .stg128 _ _ _ _ _ _ | .ldl32 _ _ _ _ | .ldl64 _ _ _ _ | .ldl128 _ _ _ _
  | .stl32 _ _ _ _ | .stl64 _ _ _ _ | .stl128 _ _ _ _ | .aadd _ _ _ _ _ _ | .aadd64 _ _ _ _ _ _
  | .amin _ _ _ _ _ _ | .amax _ _ _ _ _ _ | .aand _ _ _ _ _ _ | .aor _ _ _ _ _ _ | .axchg _ _ _ _ _ _
  | .acas _ _ _ _ _ _ | .radd _ _ _ _ _ _ | .raddf _ _ _ _ _ _ | .rmax _ _ _ _ _ _ | .drain _ _ _ _
  | .accw _ _ _ _ | .bra _ _ | .call _ _ | .ret _ | .trapl _ _
  | .rollb _ _ | .snop _ | .smov _ _ _ | .slit _ _ _ | .sadd _ _ _ _
  | .ssub _ _ _ _ | .smul _ _ _ _ | .smin _ _ _ _ | .smax _ _ _ _ | .sand _ _ _ _
  | .sor _ _ _ _ | .sxor _ _ _ _ | .sshl _ _ _ _ | .sshr _ _ _ _ | .ssar _ _ _ _
  | .saddi _ _ _ _ | .sadd64 _ _ _ _ | .sbfe _ _ _ _ | .sclz _ _ _ | .spopc _ _ _
  | .scmpeq _ _ _ _ | .scmpne _ _ _ _ | .scmplt _ _ _ _ | .scmple _ _ _ _ | .scmpltu _ _ _ _
  | .qop _ _ _ _ _ | .ssel _ _ _ _ _ | .sfirst _ _ | .vmask _ _ | .srd _ _ _
  | .swr _ _ _ | .jmp _ _ | .loop _ _ _ | .scall _ _ | .sret _
  | .jovl _ _ _ | .ovload _ _ _ | .yield _ | .exit _ | .trap _ _
  | .tret _ | .tmask _ _ | .uint _ _ _ | .uiret _ | .sysc _ _ _ _
  | .sbrk _ | .launch _ _ | .regq _ _ | .regpool _ _ | .sld _ _ _ _ _ _
  | .sld64 _ _ _ _ _ _ | .sst _ _ _ _ _ _ | .sst64 _ _ _ _ _ _ | .saadd _ _ _ _ _ _ | .sacas _ _ _ _ _ _
  | .pgreq _ _ _ _ | .pgadv _ _ _ _ | .palloc _ _ _ | .pfree _ _ | .cnew _ _ _
  | .cfree _ _ | .cadd _ _ _ _ | .caddr _ _ _ _ | .cread _ _ _ _ | .waitge _ _ _ _
  | .waitto _ _ _ _ _ | .tbar _ | .fence _ _ | .fencex _ _ _ _ | .tryOp _ _ _
  | .commit _ | .txopen _ _ | .txclose _ | .txcancel _ _ | .tiledef _ _ _ _
  | .tilerel _ _ | .tstate _ _ _ | .metadef _ _ _ _ | .cpyin _ _ _ _ | .cpyout _ _ _ _
  | .cpygg _ _ _ _ | .gather _ _ _ _ | .scatter _ _ _ _ | .coll _ _ _ | .sealb _ _ _
  | .sealu _ _ _ | .sealf _ _ | .ckpt _ _ | .msel _ _ _ | .mma _ _
  | .mmas _ _ | .mmag _ _ | .mscale _ _ _ _ | .mzero _ _ _ | .mrel _ _
  | .mwait _ _ | .hint _ _ _ _ | .sfadd _ _ _ _ | .sfmul _ _ _ _ | .sfcmplt _ _ _ _
  | .scvtfi _ _ _ | .scvtif _ _ _ | .sdivu _ _ _ _ | .sremu _ _ _ _ | .qany _ _ _
  | .qall _ _ _ | .pset _ _ _ | .sleep _ _ | .slit64 _ _ _ _ | .reservedOpcodeWord _ _ _ _ => true

end Sys2Proof
end

