-- ==== Sys2Proof/Machine/LaneFloat.lean ====
section
/-!
DEFINITION. Lane floating point (R98 to R104): L-set 0x28 to 0x43.
-/

namespace Sys2Proof.Machine

/-- A float result with the flags it raises. -/
def FRes.word (r : FRes) : Word × Word := (BitVec.ofNat 32 r.code, r.fl)

/-- A float word with one source: `f` is applied to FZ, RM and the operand. -/
def laneF1 (g : BitVec 3) (d : Dest) (a : Src) (f : RM → Bool → Word → Word × Word) : State → Out State :=
  issueL g true (destRegs d ++ srcRegs a) (srcLatches a)
    (laneBody fun c w l t =>
      let r := f (fcrRm w.u.fcr) (fcrFz w.u.fcr) (opA c w l a)
      (t.deliver c d r.1, r.2))

/-- A float word with two sources. -/
def laneF2 (g : BitVec 3) (d : Dest) (a b : Src) (f : RM → Bool → Word → Word → Word × Word) : State → Out State :=
  issueL g (oneLit a b) (destRegs d ++ srcRegs a ++ srcRegs b) (srcLatches a ++ srcLatches b)
    (laneBody fun c w l t =>
      let r := f (fcrRm w.u.fcr) (fcrFz w.u.fcr) (opA c w l a) (opB c w l b)
      (t.deliver c d r.1, r.2))

/-- A float word that reads d as an addend (R82). -/
def laneFAcc (g : BitVec 3) (d : Fin 120) (a b : Src) (f : RM → Bool → Word → Word → Word → Word × Word) :
    State → Out State :=
  issueL g (oneLit a b) ([d.val] ++ srcRegs a ++ srcRegs b) (srcLatches a ++ srcLatches b)
    (laneBody fun c w l t =>
      let r := f (fcrRm w.u.fcr) (fcrFz w.u.fcr) (opA c w l a) (opB c w l b) (opD c w l d.val 0)
      (t.deliver c (.reg d) r.1, r.2))

/-- An FP32 compare (R102): the latches stay. -/
def laneFCmp (g : BitVec 3) (p : Fin 7) (a b : Src) (r : FRel) : State → Out State :=
  issueL g (oneLit a b) (srcRegs a ++ srcRegs b) (srcLatches a ++ srcLatches b)
    (laneBody fun c w l t =>
      let x := f32.fcmp r (fcrFz w.u.fcr) (opA c w l a).toNat (opB c w l b).toNat
      (t.setP p.val x.1, x.2))

/-- FADD (R98). -/
def execFadd (g : BitVec 3) (d : Dest) (a b : Src) (s : State) : Out State :=
  laneF2 g d a b (fun rm fz x y => (f32.fadd rm fz x.toNat y.toNat).word) s

/-- FSUB (R98). -/
def execFsub (g : BitVec 3) (d : Dest) (a b : Src) (s : State) : Out State :=
  laneF2 g d a b (fun rm fz x y => (f32.fsub rm fz x.toNat y.toNat).word) s

/-- FMUL (R98). -/
def execFmul (g : BitVec 3) (d : Dest) (a b : Src) (s : State) : Out State :=
  laneF2 g d a b (fun rm fz x y => (f32.fmul rm fz x.toNat y.toNat).word) s

/-- FMAC (R99): x × y + v[d], one rounding. -/
def execFmac (g : BitVec 3) (d : Fin 120) (a b : Src) (s : State) : Out State :=
  laneFAcc g d a b (fun rm fz x y z => (f32.ffma rm fz x.toNat y.toNat z.toNat).word) s

/-- FMAL (R99): x × y + L0, one rounding; L0 is read in addition to a and b. -/
def execFmal (g : BitVec 3) (d : Dest) (a b : Src) (s : State) : Out State :=
  issueL g (oneLit a b) (destRegs d ++ srcRegs a ++ srcRegs b) ([implicitL0] ++ srcLatches a ++ srcLatches b)
    (laneBody fun c w l t =>
      let r := f32.ffma (fcrRm w.u.fcr) (fcrFz w.u.fcr) (opA c w l a).toNat (opB c w l b).toNat ((t.l0.getD 0#32).toNat)
      (t.deliver c d r.word.1, r.word.2)) s

/-- FMIN (R100). -/
def execFmin (g : BitVec 3) (d : Dest) (a b : Src) (s : State) : Out State :=
  laneF2 g d a b (fun _ fz x y => (f32.fminmax false fz x.toNat y.toNat).word) s

/-- FMAX (R100). -/
def execFmax (g : BitVec 3) (d : Dest) (a b : Src) (s : State) : Out State :=
  laneF2 g d a b (fun _ fz x y => (f32.fminmax true fz x.toNat y.toNat).word) s

/-- FSCALE (R101): x × 2^n, n the signed value of y. -/
def execFscale (g : BitVec 3) (d : Dest) (a b : Src) (s : State) : Out State :=
  laneF2 g d a b (fun rm fz x y => (f32.fscale rm fz x.toNat y.toInt).word) s

/-- FCMPEQ (R102). -/
def execFcmpeq (g : BitVec 3) (p : Fin 7) (a b : Src) (s : State) : Out State := laneFCmp g p a b .eq s

/-- FCMPLT (R102). -/
def execFcmplt (g : BitVec 3) (p : Fin 7) (a b : Src) (s : State) : Out State := laneFCmp g p a b .lt s

/-- FCMPLE (R102). -/
def execFcmple (g : BitVec 3) (p : Fin 7) (a b : Src) (s : State) : Out State := laneFCmp g p a b .le s

/-- FCMPUN (R102). -/
def execFcmpun (g : BitVec 3) (p : Fin 7) (a b : Src) (s : State) : Out State := laneFCmp g p a b .un s

/-- FRCP (R79, R80, R103). -/
def execFrcp (g : BitVec 3) (d : Dest) (a : Src) (s : State) : Out State := laneF1 g d a (fun _ fz x => (frcp fz x).word) s

/-- FRSQ (R79, R80, R103). -/
def execFrsq (g : BitVec 3) (d : Dest) (a : Src) (s : State) : Out State := laneF1 g d a (fun _ fz x => (frsq fz x).word) s

/-- FSQRT (R79, R80, R103). -/
def execFsqrt (g : BitVec 3) (d : Dest) (a : Src) (s : State) : Out State := laneF1 g d a (fun rm fz x => (fsqrt rm fz x).word) s

/-- FEXP2 (R79, R80, R103). -/
def execFexp2 (g : BitVec 3) (d : Dest) (a : Src) (s : State) : Out State := laneF1 g d a (fun _ fz x => (fexp2 fz x).word) s

/-- FLOG2 (R79, R80, R103). -/
def execFlog2 (g : BitVec 3) (d : Dest) (a : Src) (s : State) : Out State := laneF1 g d a (fun _ fz x => (flog2 fz x).word) s

/-- FSINPI (R79, R80, R103). -/
def execFsinpi (g : BitVec 3) (d : Dest) (a : Src) (s : State) : Out State := laneF1 g d a (fun _ fz x => (fsincos false fz x).word) s

/-- FCOSPI (R79, R80, R103). -/
def execFcospi (g : BitVec 3) (d : Dest) (a : Src) (s : State) : Out State := laneF1 g d a (fun _ fz x => (fsincos true fz x).word) s

/-- FTANH (R79, R80, R103). -/
def execFtanh (g : BitVec 3) (d : Dest) (a : Src) (s : State) : Out State := laneF1 g d a (fun _ fz x => (ftanh fz x).word) s

/-- BADD2 (R104). -/
def execBadd2 (g : BitVec 3) (d : Dest) (a b : Src) (s : State) : Out State :=
  laneF2 g d a b (fun rm fz x y => bothHalves (fun p q _ => bf16.fadd rm fz p q) x y 0#32) s

/-- BMUL2 (R104). -/
def execBmul2 (g : BitVec 3) (d : Dest) (a b : Src) (s : State) : Out State :=
  laneF2 g d a b (fun rm fz x y => bothHalves (fun p q _ => bf16.fmul rm fz p q) x y 0#32) s

/-- BMAC2 (R104). -/
def execBmac2 (g : BitVec 3) (d : Fin 120) (a b : Src) (s : State) : Out State :=
  laneFAcc g d a b (fun rm fz x y z => bothHalves (fun p q r => bf16.ffma rm fz p q r) x y z) s

/-- BMAX2 (R104). -/
def execBmax2 (g : BitVec 3) (d : Dest) (a b : Src) (s : State) : Out State :=
  laneF2 g d a b (fun _ fz x y => bothHalves (fun p q _ => bf16.fminmax true fz p q) x y 0#32) s

/-- HADD2 (R104). -/
def execHadd2 (g : BitVec 3) (d : Dest) (a b : Src) (s : State) : Out State :=
  laneF2 g d a b (fun rm fz x y => bothHalves (fun p q _ => f16.fadd rm fz p q) x y 0#32) s

/-- HMUL2 (R104). -/
def execHmul2 (g : BitVec 3) (d : Dest) (a b : Src) (s : State) : Out State :=
  laneF2 g d a b (fun rm fz x y => bothHalves (fun p q _ => f16.fmul rm fz p q) x y 0#32) s

/-- HMAC2 (R104). -/
def execHmac2 (g : BitVec 3) (d : Fin 120) (a b : Src) (s : State) : Out State :=
  laneFAcc g d a b (fun rm fz x y z => bothHalves (fun p q r => f16.ffma rm fz p q r) x y z) s

/-- HMAX2 (R104). -/
def execHmax2 (g : BitVec 3) (d : Dest) (a b : Src) (s : State) : Out State :=
  laneF2 g d a b (fun _ fz x y => bothHalves (fun p q _ => f16.fminmax true fz p q) x y 0#32) s

end Sys2Proof.Machine
end

