-- ==== Sys2Proof/Machine/LaneConv.lean ====
section
/-!
DEFINITION. Lane conversions and lane exchange (R16, R105 to R119): L-set 0x44 to 0x51.
-/

namespace Sys2Proof.Machine

/-- CVTFI (R105). -/
def execCvtfi (g : BitVec 3) (d : Dest) (a : Src) (s : State) : Out State := laneF1 g d a cvtfi s

/-- CVTIF (R106). -/
def execCvtif (g : BitVec 3) (d : Dest) (a : Src) (s : State) : Out State := laneF1 g d a (fun rm _ x => (cvtif rm x).word) s

/-- PKBF (R16). -/
def execPkbf (g : BitVec 3) (d : Dest) (a b : Src) (s : State) : Out State :=
  laneF2 g d a b (packTwo bf16) s

/-- PKHF (R107). -/
def execPkhf (g : BitVec 3) (d : Dest) (a b : Src) (s : State) : Out State :=
  laneF2 g d a b (packTwo f16) s

/-- UPKLO (R108). -/
def execUpklo (g : BitVec 3) (d : Dest) (a : Src) (s : State) : Out State := laneF1 g d a (fun _ fz x => widenBf fz (x.toNat % 65536)) s

/-- UPKHI (R108). -/
def execUpkhi (g : BitVec 3) (d : Dest) (a : Src) (s : State) : Out State := laneF1 g d a (fun _ fz x => widenBf fz (x.toNat / 65536)) s

/-- A format slot of a unit's grid (R71): launch-record offset 0x50 + 4n. -/
def State.fslot (s : State) (w : Warp) (n : Nat) : Word := BitVec.ofNat 32 (fieldAt (s.grid w.grid).recb (0x50 + 4 * n) 4)

/-- The latches an LC conversion reads beyond its operand: L0 where the slot is block-scaled (R110). -/
def lcLatches (slot : Word) : List Nat := if slotScaled slot then [implicitL0] else []

/-- CVTN (R110, R111). -/
def execCvtn (g : BitVec 3) (d : Dest) (a : Src) (n : Fin 8) (mode : BitVec 4) (s : State) : Out State :=
  let slot := s.fslot (s.unit s.cur.u) n.val
  issueL g true (destRegs d ++ srcRegs a) (lcLatches slot ++ srcLatches a)
    (laneBody fun c w l t =>
      let r := cvtn slot ((t.l0.getD 0#32).setWidth 8) mode w.u.fcr (opA c w l a)
      (t.deliver c d r.1, r.2)) s

/-- CVTW (R110, R112); the mode is ignored. -/
def execCvtw (g : BitVec 3) (d : Dest) (a : Src) (n : Fin 8) (_mode : BitVec 4) (s : State) : Out State :=
  let slot := s.fslot (s.unit s.cur.u) n.val
  issueL g true (destRegs d ++ srcRegs a) (lcLatches slot ++ srcLatches a)
    (laneBody fun c w l t =>
      let r := cvtw slot ((t.l0.getD 0#32).setWidth 8) w.u.fcr (opA c w l a)
      (t.deliver c d r.1, r.2)) s

/-- QSCALE (R76, R113): one byte chosen over the warp, lanes that do not act counting as +0, and given to every acting
lane. -/
def execQscale (g : BitVec 3) (d : Dest) (a : Src) (n : Fin 8) (mode : BitVec 4) (s : State) : Out State :=
  let slot := s.fslot (s.unit s.cur.u) n.val
  issueL g true (destRegs d ++ srcRegs a) (srcLatches a)
    (fun s act =>
      let c := s.cur
      let w := s.unit c.u
      let x := fun l => if act.getLsbD l then f32.flush (fcrFz w.u.fcr) (f32.decode (opA c w l a).toNat) else FVal.zero
      let (b, nv) := qscale slot (lcMode mode w.u.fcr) ((List.range 32).map x)
      laneBody (fun c _ _ t => (t.deliver c d (b.setWidth 32), nvIf nv)) s act) s

/-- CVTSR (R114). -/
def execCvtsr (g : BitVec 3) (d : Dest) (a b : Src) (s : State) : Out State :=
  laneF2 g d a b (fun _ fz x y => cvtsr fz x y) s

/-- v[a] of a lane of the warp as it stood at issue (R82, R115); a re-issued entry supplies it from A (R291). -/
def peer (c : Cur) (w : Warp) (l a : Nat) : Word :=
  match c.replay with
  | some e => e.a
  | none => (w.lane l).getV a

/-- A lane exchange waits for a load of the warp into the register it reads, in any lane (R115); `src` gives the value of a
lane from the members that act and from `peer`, the register of each lane at issue, before a lane that lost a latch has aborted
or trapped (R82). -/
def laneExchange (g : BitVec 3) (d : Dest) (a : Fin 120) (b : Src) (src : Cur → Warp → Word → (Nat → Word) → Nat → Word)
    (s : State) : Out State :=
  issueL g true (destRegs d ++ [a.val] ++ srcRegs b) (srcLatches b)
    (fun s1 act =>
      let w := s.unit s.cur.u
      if (lanesOf allLanes).any fun l => (w.lane l).awaits [a.val] [] then .next s
      else laneBody (fun c w1 l t => (t.deliver c d (src c w1 act (fun m => peer c w m a.val) l), 0#32)) s1 act) s

/-- SHFL (R116): lane y[4:0], each lane by its own y. -/
def execShfl (g : BitVec 3) (d : Dest) (a : Fin 120) (b : Src) (s : State) : Out State :=
  laneExchange g d a b (fun c w _ peer l => peer ((opB c w l b).toNat % 32)) s

/-- The k of LSWAP and HSWAP: y[4:0] of the lowest acting lane (R117). -/
def swapK (c : Cur) (w : Warp) (act : Word) (b : Src) : Nat := (opB c w ((lanesOf act).headD 0) b).toNat % 32

/-- LSWAP (R18, R117): lane l XOR k. -/
def execLswap (g : BitVec 3) (d : Dest) (a : Fin 120) (b : Src) (s : State) : Out State :=
  laneExchange g d a b (fun c w act peer l => peer (l ^^^ swapK c w act b)) s

/-- HSWAP's value in lane l with partner m (R118). -/
def hswapWord (mine other : Word) (l m : Nat) : Word :=
  if l = m then mine
  else if l < m then (other.setWidth 16 ++ mine.setWidth 16 : BitVec 32)
  else (mine.extractLsb' 16 16 ++ other.extractLsb' 16 16 : BitVec 32)

/-- HSWAP (R118). -/
def execHswap (g : BitVec 3) (d : Dest) (a : Fin 120) (b : Src) (s : State) : Out State :=
  laneExchange g d a b (fun c w act peer l =>
    let m := l ^^^ swapK c w act b
    hswapWord (peer l) (peer m) l m) s

/-- BALLOT (R119): the acting lanes whose p[A] is true. -/
def execBallot (g : BitVec 3) (d : Dest) (a : Fin 8) (s : State) : Out State :=
  issueL g true (destRegs d ++ predRegs a.val) []
    (fun s act =>
      let m := (s.unit s.cur.u).lanesWhere act fun t => t.getP a.val
      laneBody (fun c _ _ t => (t.deliver c d m, 0#32)) s act) s

end Sys2Proof.Machine
end

