-- ==== Sys2Proof/Machine/MatrixWords.lean ====
section
/-!
DEFINITION. Matrix words at issue (R121 to R123, R134 to R139, R195 to R201): G-set 0x57 to 0x5E. A word reads its A rows
and queues itself on its core; `MatrixRun` executes it.
-/

namespace Sys2Proof.Machine

/-! ### Formats (R134, R196) -/

/-- The depth K of an element format (R196). -/
def fmtDepth (fmt : Nat) : Nat :=
  if fmt = 1 ∨ fmt = 2 then 16 else if fmt = 7 ∨ fmt = 8 ∨ fmt = 11 then 64 else 32

/-- Bytes of `n` elements of a format in a tile (R68, R121): FP6 takes one byte an element. -/
def tileBytes (fmt n : Nat) : Nat :=
  if fmt = 1 ∨ fmt = 2 then 2 * n else if fmt = 7 ∨ fmt = 8 ∨ fmt = 11 then n / 2 else n

/-- Scale groups over a depth (R134). -/
def scaleGroups (k : Nat) : Nat := if k = 16 then 1 else k / 32

/-- The extent that a B tile of a slot needs: its elements, K or for MMAS K/2 rows of 192, and its scale bytes (R134,
R135). -/
def tileNeed (slot : Word) (sparse : Bool) : Nat :=
  let k := fmtDepth (slotFmt slot)
  tileBytes (slotFmt slot) ((if sparse then k / 2 else k) * 192) + (if slotScaled slot then 192 * scaleGroups k else 0)

/-- Whether two slots form a matrix operation (R196). -/
def slotsMatch (a b : Word) : Bool :=
  !(slotFmt a == 0) && !(slotFmt b == 0) && fmtDepth (slotFmt a) == fmtDepth (slotFmt b)

/-! ### Places -/

/-- The team of a launch on a core (R134, R136): a Reckoner's launch places at most one (R36). -/
def State.teamOn (s : State) (grid core : Nat) : Option Nat :=
  (List.find? (fun p => p.2.st == .placed && p.2.grid == grid && 64 * p.2.slice + p.2.core == core) s.teams).map (·.1)

/-- One cell of a matrix word (R139): the core whose accumulator it adds into, the core whose quad and hold supply A, the
core that supplies B. -/
structure MatCell where
  dst : Nat
  src : Nat
  b : Nat
deriving DecidableEq, Repr

/-- The four warps of the quad bound to a core (R136). -/
def State.quad (s : State) (core : Nat) : List Nat :=
  match (s.core core).bind with
  | none => []
  | some (tm, f) => (List.range 4).filterMap fun q => (s.team tm).warps[f + q]?

/-- The cells of an MMA or MMAS: one, on the target core of the Reckoner's cluster. -/
def cellsOf (w : Warp) (core : Nat) : List (Option MatCell) :=
  let k := w.coreKey + core
  [some { dst := k, src := k, b := k }]

/-- Rows and columns of a grid's board (R139). -/
def boardShape (recb : List Byte) : Nat × Nat :=
  let x := fieldAt recb 0x25 1
  (x / 16 + 1, x % 16 + 1)

/-- The cluster that holds a board row, as the key of its core 0 (R120): that of the Reckoner of the row's teams, ended or not. -/
def State.boardRow (s : State) (grid cols i : Nat) : Option Nat :=
  (List.find? (fun p => p.2.reck && p.2.grid == grid && (s.team p.2.team).idx / cols == i) s.units).map fun p => p.2.coreKey

/-- The cells of an MMAG in board order (R139): cell (i, j) takes A from core 0 of row i's cluster and B from core j of
row 0; none for a cell of a row that has no cluster. -/
def State.boardCells (s : State) (grid : Nat) (shape : Nat × Nat) : List (Option MatCell) :=
  (List.range shape.1).flatMap fun i => (List.range shape.2).map fun j =>
    match s.boardRow grid shape.2 i, s.boardRow grid shape.2 0 with
    | some ri, some r0 => some { dst := ri + j, src := ri, b := r0 + j }
    | _, _ => none

/-! ### Checks of R197, R198 -/

/-- The registers of A that a word reads in its quad (R121): the octet, and the scale register where slot A is scaled. -/
def aRegs (oct : Nat) (scaled : Bool) : List Nat := regSpan (8 * oct) (if scaled then 9 else 8)

/-- A quad warp whose quota does not hold the registers from `lo` to `top` that a word reads, or that holds one of them back for a
checkpoint (R33, R197, R244). -/
def State.quadShort (s : State) (core lo top : Nat) : Bool :=
  (s.quad core).any fun u => decide ((s.unit u).quota ≤ top) || (s.unit u).namesHeld ((List.range (top + 1 - lo)).map (lo + ·))

/-- The Engine trap of a word that names a tile of one of its issuer's faulted commands, before every other check (R142, R178): an
MMAS names its metadata tile too. DEDUCED, log 121. -/
def State.cellFault (s : State) (w : Warp) (m : MmaOps) (sparse : Bool) (cells : List (Option MatCell)) : Option Held :=
  let tbs := cells.filterMap fun c => c.bind fun c => s.teamOn w.grid c.b
  w.pendingFault fun h => tbs.contains h.team && (h.tile == some m.tile.val || (sparse && h.tile == some (m.tile.val + 1)))

/-- What a cell's checks give: none where all are met. A tile that is not READY is waited for, before the quota check. -/
def State.cellCheck (s : State) (w : Warp) (m : MmaOps) (sparse : Bool) (c : MatCell) : Option GRes :=
  let sa := s.fslot w m.slotA.val
  let sb := s.fslot w m.slotB.val
  let t := m.tile.val
  match s.teamOn w.grid c.dst, s.teamOn w.grid c.b with
  | some _, some tb =>
    let e := s.tile tb t
    let e2 := s.tile tb (t + 1)
    if (s.core c.src).bind.isNone then some (tileState s 2)
    else if !(slotsMatch sa sb) then some (tileState s 4)
    else if e.kind then some (tileState s 3)
    else if e.extent < tileNeed sb sparse then some (tileBounds s t)
    else if sparse && t == 63 then some (tileState s 6)
    else if sparse && !e2.kind then some (tileState s 3)
    else if sparse && decide (e2.extent < fmtDepth (slotFmt sb) / 2 * 48) then some (tileBounds s (t + 1))
    else if e.st = .ready ∧ (!sparse ∨ e2.st = .ready) ∧ (s.core c.src).hold.isNone ∧
        s.quadShort c.src (8 * m.oct.val) (8 * m.oct.val + (if slotScaled sa then 8 else 7)) then
      some (trapWord s Config.causeQuota (BitVec.ofNat 64 (c.src % 4)))
    else none
  | _, _ => some (tileState s 1)

/-- Whether a unit's queue on a core is full (R195). -/
def State.matFull (s : State) (u core : Nat) : Bool := decide (8 ≤ ((s.core core).mq.filter fun o => o.u == u).length)

/-- Whether a word that reads A from a core's quad must wait for results outstanding there, or for a warp that is not on its
core (R123, R197). -/
def State.quadWaits (s : State) (core : Nat) (regs : List Nat) : Bool :=
  (s.quad core).any fun u => (s.unit u).wd == .saved || (lanesOf allLanes).any fun l => ((s.unit u).lane l).awaits regs []

/-- The first tile that a word must wait for (R131). -/
def State.tileToWait (s : State) (w : Warp) (t : Nat) (sparse : Bool) (cells : List MatCell) : Option Nat :=
  (cells.filterMap fun c => match s.teamOn w.grid c.b with
    | none => none
    | some tb => if (s.tile tb t).st ≠ .ready then some t
      else if sparse ∧ (s.tile tb (t + 1)).st ≠ .ready then some (t + 1) else none).head?

/-! ### Reading A and queueing (R121, R137, R197) -/

/-- The registers v(8o) on of every row of a quad, `n` of them a row, at 8 × row + i. -/
def State.readRows (s : State) (core oct n : Nat) : Tab Word :=
  ((List.range 4).flatMap fun q => match (s.quad core)[q]? with
    | none => []
    | some u => (List.range 32).flatMap fun l => (List.range n).map fun i =>
      (8 * (32 * q + l) + i, ((s.unit u).lane l).getV (8 * oct + i))).foldl (fun t p => Tab.set 0#32 t p.1 p.2) []

/-- Bytes 0 and 1 of v(8o + 8) of every row; zero where the register lies at or above the warp's quota (R137). -/
def State.readHeld (s : State) (core oct : Nat) : Tab Word :=
  ((List.range 4).flatMap fun q => match (s.quad core)[q]? with
    | none => []
    | some u => (List.range 32).map fun l =>
      (32 * q + l, if (s.unit u).quota ≤ 8 * oct + 8 then 0#32
        else ((s.unit u).lane l).getV (8 * oct + 8) &&& 0xFFFF#32)).foldl (fun t p => Tab.set 0#32 t p.1 p.2) []

/-- The A rows and scale bytes of a core's source, and the hold after the word (R137, R197). -/
def State.takeA (s : State) (core oct : Nat) (h : Bool) : State × Tab Word × Tab Word :=
  match (s.core core).hold with
  | some x => (s.modCore core fun c => { c with hold := if h then some x else none }, x.a, x.sb)
  | none =>
    let a := s.readRows core oct 8
    let sb := s.readHeld core oct
    (if h then s.modCore core fun c => { c with hold := some { a, sb } } else s, a, sb)

/-- Adds a reader to a tile. -/
def State.addReader (s : State) (tm t : Nat) : State := s.modTile tm t fun e => { e with readers := e.readers + 1 }

/-- Queues one cell (R195, R197); `cores` are those of all the word's cells. -/
def queueCell (u : Nat) (m : MmaOps) (kind : MatKind) (ccnt : DWord) (rel start : VC) (grp : Nat) (cores : List Nat) (s : State)
    (c : MatCell) (a sa : Tab Word) : State :=
  let w := s.unit u
  let tb := (s.teamOn w.grid c.b).getD 0
  let o : MatOp := { id := s.nextId, u, kind, acc := m.acc, z := m.z, bTeam := tb, tile := m.tile.val, a, sa, factor := [],
                     slotA := s.fslot w m.slotA.val, slotB := s.fslot w m.slotB.val, ccnt, rel, start, grp, cores,
                     started := false }
  ({ s with nextId := s.nextId + 1 } : State).modCore c.dst fun k => { k with mq := k.mq ++ [o] }

/-- The clock that a matrix word's reads of its tiles start from: what the issuer has acquired, and the tile's own. -/
def State.matStart (s : State) (u : Nat) (tiles : List (Nat × Nat)) : VC :=
  tiles.foldl (fun v p => VC.join v (s.tile p.1 p.2).vc) (engineStart s u 3)

/-- MMA, MMAS and MMAG once every check is met: A is read once for each source, the readers are added once for each B
tile, and the cells are queued. -/
def issueCells (s : State) (m : MmaOps) (kind : MatKind) (cells : List MatCell) : State :=
  let u := s.cur.u
  let w := s.unit u
  let (o, v) := s.order.endRegion (.unit u)
  let s : State := { s with order := o }
  let bs := ((cells.map (·.b)).eraseDups.filterMap fun b => s.teamOn w.grid b).flatMap fun tb =>
    if kind = .mmas then [(tb, m.tile.val), (tb, m.tile.val + 1)] else [(tb, m.tile.val)]
  let start := s.matStart u bs
  let grp := s.nextId
  let s := (cells.map (·.src)).eraseDups.foldl (fun s src =>
    let (s, a, sb) := s.takeA src m.oct.val m.h
    (cells.filter fun c => c.src == src).foldl (fun s c => queueCell u m kind w.u.ccnt v start grp (cells.map (·.dst)) s c a sb) s) s
  bs.foldl (fun s p => s.addReader p.1 p.2) s

/-- MMA, MMAS and MMAG at issue (R197, R198). -/
def matWord (s : State) (m : MmaOps) (kind : MatKind) (board : List (Option MatCell)) : GRes :=
  let u := s.cur.u
  let w := s.unit u
  let sparse := kind == .mmas
  match s.cellFault w m sparse board with
  | some h => engineTrap s h
  | none =>
    match board.findSome? fun c => match c with
        | none => some (tileState s 1)
        | some c => s.cellCheck w m sparse c with
    | some r => r
    | none =>
      let cells := board.filterMap id
      match s.tileToWait w m.tile.val sparse cells with
      | some t => tileWait t
      | none =>
        let regs := aRegs m.oct.val true
        if cells.any fun c => s.matFull u c.dst then .wait
        else if cells.any fun c => (s.core c.src).hold.isNone && s.quadWaits c.src regs then .wait
        else .done (issueCells s m kind cells)

/-- A matrix word: only a Reckoner issues it (R56), and it ends an open region with CODE 0x06 (R177). -/
def reckWord (q : BitVec 3) (f : State → GRes) : State → Out State :=
  issueG q true .reckOnly (.ends Config.abDisallowed) (.ends Config.abDisallowed) false f

/-- MSEL (R136, R200): binds the quad and releases the hold. -/
def execMsel (q : BitVec 3) (core : Fin 4) (a : Fin 64) (s : State) : Out State :=
  reckWord q
    (fun s =>
      let w := s.unit s.cur.u
      let k := w.coreKey + core.val
      let f := (w.u.getS a.val).toNat
      match s.teamOn w.grid k with
      | none => tileState s 1
      | some tm =>
        if (s.team tm).warps.length ≤ f + 3 then tileState s 8
        else .done (s.modCore k fun c => { c with bind := some (tm, f), hold := none })) s

/-- MMA (R197). -/
def execMma (q : BitVec 3) (m : MmaOps) (s : State) : Out State :=
  reckWord q (fun s => matWord s m .mma (cellsOf (s.unit s.cur.u) m.core.val)) s

/-- MMAS (R135, R197). -/
def execMmas (q : BitVec 3) (m : MmaOps) (s : State) : Out State :=
  reckWord q (fun s => matWord s m .mmas (cellsOf (s.unit s.cur.u) m.core.val)) s

/-- MMAG (R139, R198): as an MMA on core 0 on a board of one cell; the core field is ignored. -/
def execMmag (q : BitVec 3) (m : MmaOps) (s : State) : Out State :=
  reckWord q
    (fun s =>
      let w := s.unit s.cur.u
      let shape := boardShape (s.grid w.grid).recb
      if shape = (1, 1) then matWord s m .mma (cellsOf w 0)
      else if s.boardRow w.grid shape.2 0 ≠ some w.coreKey then tileState s 5
      else matWord s m .mma (s.boardCells w.grid shape)) s

/-- Queues MSCALE or MZERO on a core (R199). -/
def queueOne (s : State) (k : Nat) (kind : MatKind) (acc : Bool) (factor : Tab Word) : State :=
  let u := s.cur.u
  let w := s.unit u
  let (o, v) := s.order.endRegion (.unit u)
  let op : MatOp := { id := s.nextId, u, kind, acc, z := false, bTeam := 0, tile := 0, a := [], sa := [], factor,
                      slotA := 0#32, slotB := 0#32, ccnt := w.u.ccnt, rel := v, start := [], grp := s.nextId, cores := [k], started := false }
  ({ s with order := o, nextId := s.nextId + 1 } : State).modCore k fun c => { c with mq := c.mq ++ [op] }

/-- MSCALE (R199): the factors are read from the registers; the hold is neither used nor released. -/
def execMscale (q : BitVec 3) (acc : Bool) (oct : Fin 15) (core : Fin 4) (s : State) : Out State :=
  reckWord q
    (fun s =>
      let u := s.cur.u
      let w := s.unit u
      let k := w.coreKey + core.val
      if (s.teamOn w.grid k).isNone then tileState s 1
      else if (s.core k).bind.isNone then tileState s 2
      else if s.quadShort k (8 * oct.val) (8 * oct.val) then trapWord s Config.causeQuota (BitVec.ofNat 64 core.val)
      else if s.matFull u k || s.quadWaits k [8 * oct.val] then .wait
      else .done (queueOne s k .mscale acc (s.readRows k oct.val 1))) s

/-- MZERO (R199). -/
def execMzero (q : BitVec 3) (acc : Bool) (core : Fin 4) (s : State) : Out State :=
  reckWord q
    (fun s =>
      let w := s.unit s.cur.u
      let k := w.coreKey + core.val
      if (s.teamOn w.grid k).isNone then tileState s 1
      else if s.matFull s.cur.u k then .wait
      else .done (queueOne s k .mzero acc [])) s

/-- MREL (R200): releases the hold, if there is one. -/
def execMrel (q : BitVec 3) (core : Fin 4) (s : State) : Out State :=
  reckWord q
    (fun s => .done (s.modCore ((s.unit s.cur.u).coreKey + core.val) fun c => { c with hold := none })) s

/-- Whether a Reckoner has a matrix instruction issued and not completed on a core, or on any (R201), cells of its MMAGs included;
one whose completion add the firewall holds has not completed. -/
def State.matOpen (s : State) (u : Nat) (core : Option Nat) : Bool :=
  (s.cores.any fun p => core.all (· == p.1) && p.2.mq.any fun o => o.u == u) ||
  s.cmds.any fun c => c.u == u && c.cls == 3 && core.all fun k => c.done.contains k

/-- The clock of a Reckoner's completed matrix adds on a core, or on all (R201). -/
def Warp.mdoneClock (w : Warp) (core : Option Nat) : VC :=
  match core with
  | some k => Tab.get [] w.mdone k
  | none => w.mdone.foldl (fun v p => VC.join v p.2) []

/-- MWAIT (R142, R201, R235): waits for the completions, whose adds it acquires; a failed completion add is reported first, and so is a
matrix instruction that a race has stopped, whose issuer's next wait this may be (log 133). The members wait at the word, where a user
interrupt can be taken. -/
def execMwait (q : BitVec 3) (core : Option (Fin 4)) (s : State) : Out State :=
  reckWord q
    (fun s =>
      let u := s.cur.u
      let w := s.unit u
      match w.pendingFault fun h => h.failedAdd || h.cls == 3 with
      | some h => engineTrap s h
      | none =>
        let k := core.map fun c => w.coreKey + c.val
        if s.matOpen u k then .wait
        else .done { s with order := ((s.order.acquirePath (.unit u) (w.mdoneClock k)).endRegion (.unit u)).1 }) s

end Sys2Proof.Machine
end

