-- ==== Sys2Proof/Decode.lean ====
section
/-!
DEFINITION. The decoder, total on any words, and after it the encoder, both from the encoding tables of R42, R43, R44,
R45, R51 to R58. A word whose opcode is assigned but one of whose fields breaks R59 is rejected by name, as is an
instruction whose literal words are missing (R47, R48); a reserved opcode decodes to its own constructor, whose meaning
is R59's.
-/

namespace Sys2Proof

/-- Why the decoder gives no instruction. -/
inductive Reject where
  /-- There is no word at all. -/
  | noWord
  /-- A literal word of the instruction is missing (R47, R48). -/
  | literalMissing
  /-- The opcode is assigned and a field is outside what R59 allows. -/
  | illegalField
deriving DecidableEq, Repr

/-- Bits `lo` to `lo + k − 1` of a number. -/
def fld (n lo k : Nat) : Nat := n / 2 ^ lo % 2 ^ k

/-- A field whose value must lie below `N`. -/
def finField (N n : Nat) : Option (Fin N) := if h : n < N then some ⟨n, h⟩ else none

/-- A must-be-zero field (R59). -/
def zeroField (n : Nat) : Option Unit := if n = 0 then some () else none

/-- A one-bit field. -/
def bitField (n : Nat) : Bool := n % 2 == 1

/-- A field marked "src", with the literal word that code 126 stands for (R44). -/
def srcField (n : Nat) (l : Word) : Option Src :=
  if h : n < 120 then some (.reg ⟨n, h⟩)
  else if n = 120 then some (.latch 0)
  else if n = 121 then some (.latch 1)
  else if n = 122 then some (.latch 2)
  else if n = 123 then some (.latch 3)
  else if n = 124 then some .zero
  else if n = 125 then some .tid
  else if n = 126 then some (.lit l)
  else if n = 127 then some .abc
  else none

/-- A destination field (R44). -/
def destField (n : Nat) : Option Dest :=
  if h : n < 120 then some (.reg ⟨n, h⟩) else if n = 124 then some .discard else none

/-- A store's data field, codes 0 to 124 (R54). -/
def dataField (n : Nat) : Option Data :=
  if h : n < 120 then some (.reg ⟨n, h⟩)
  else if n = 120 then some (.latch 0)
  else if n = 121 then some (.latch 1)
  else if n = 122 then some (.latch 2)
  else if n = 123 then some (.latch 3)
  else if n = 124 then some .zero
  else none

/-- A field marked "pair": an even s register (R45). -/
def pairField (n : Nat) : Option (Fin 32) := if n % 2 = 0 then finField 32 (n / 2) else none

/-- The addend or threshold field: a pair when W = 1 (R272). -/
def csrcField (w sb : Nat) : Option CSrc :=
  if w = 1 then (pairField sb).map .pair else (finField 64 sb).map .one

/-- The order of an LM or uniform load (0 or 1) or store (0 or 2), as a flag (R52, R55). -/
def ordField (want n : Nat) : Option Bool := if n = 0 then some false else if n = want then some true else none

/-- QOP's function code (R152). -/
def qfunField : Nat → Option QFun
  | 0 => some .and
  | 1 => some .or
  | 2 => some .xor
  | 3 => some .andn
  | 4 => some .not
  | _ => none

/-- What decodes an L-set word: its guard, its fields [20:14], [13:7], [6:0] and its literal word. -/
abbrev LDec := BitVec 3 → Nat → Nat → Nat → Word → Option Instr

/-- What decodes a G-set word: its guard, its bits [20:0] and its two literal words. -/
abbrev GDec := BitVec 3 → Nat → Word → Word → Option Instr

/-- Decodes the fields of NOP, RET (R54). -/
def decLL0 (mk : BitVec 3 → Instr) : LDec := fun g d a b _ => do
  let _ ← zeroField d
  let _ ← zeroField a
  let _ ← zeroField b
  some (mk g)

/-- Decodes the fields of MOV, IABS, CLZ, POPC and its like (R54). -/
def decLA2 (mk : BitVec 3 → Dest → Src → Instr) : LDec := fun g d a b l => do
  let d ← destField d
  let a ← srcField a l
  let _ ← zeroField b
  some (mk g d a)

/-- Decodes the fields of VBC (R54). -/
def decLVbc (mk : BitVec 3 → Dest → Fin 64 → Instr) : LDec := fun g d a b _ => do
  let d ← destField d
  let _ ← zeroField a
  let s ← finField 64 b
  some (mk g d s)

/-- Decodes the fields of IADD, ISUB, IMUL, IMULH and its like (R54). -/
def decLA3 (mk : BitVec 3 → Dest → Src → Src → Instr) : LDec := fun g d a b l => do
  let d ← destField d
  let a ← srcField a l
  let b ← srcField b l
  some (mk g d a b)

/-- Decodes the fields of IMAC, BFI, FMAC, BMAC2 and its like (R54). -/
def decLR3 (mk : BitVec 3 → Fin 120 → Src → Src → Instr) : LDec := fun g d a b l => do
  let d ← finField 120 d
  let a ← srcField a l
  let b ← srcField b l
  some (mk g d a b)

/-- Decodes the fields of ICMPEQ, ICMPNE, ICMPLT, ICMPLE and its like (R54). -/
def decLCmp (mk : BitVec 3 → Fin 7 → Src → Src → Instr) : LDec := fun g d a b l => do
  let p ← finField 7 d
  let a ← srcField a l
  let b ← srcField b l
  some (mk g p a b)

/-- Decodes the fields of PAND, POR, PXOR (R54). -/
def decLPl (mk : BitVec 3 → Fin 7 → Fin 8 → Fin 8 → Instr) : LDec := fun g d a b _ => do
  let p ← finField 7 d
  let a ← finField 8 a
  let b ← finField 8 b
  some (mk g p a b)

/-- Decodes the fields of PNOT (R54). -/
def decLPnot (mk : BitVec 3 → Fin 7 → Fin 8 → Instr) : LDec := fun g d a b _ => do
  let p ← finField 7 d
  let a ← finField 8 a
  let _ ← zeroField b
  some (mk g p a)

/-- Decodes the fields of PTOV, BALLOT (R54). -/
def decLPtov (mk : BitVec 3 → Dest → Fin 8 → Instr) : LDec := fun g d a b _ => do
  let d ← destField d
  let a ← finField 8 a
  let _ ← zeroField b
  some (mk g d a)

/-- Decodes the fields of VTOP (R54). -/
def decLVtop (mk : BitVec 3 → Fin 7 → Src → Instr) : LDec := fun g d a b l => do
  let p ← finField 7 d
  let a ← srcField a l
  let _ ← zeroField b
  some (mk g p a)

/-- Decodes the fields of CVTN, CVTW, QSCALE (R54). -/
def decLLc (mk : BitVec 3 → Dest → Src → Fin 8 → BitVec 4 → Instr) : LDec := fun g d a b l => do
  let d ← destField d
  let a ← srcField a l
  let slot ← finField 8 (b / 16)
  some (mk g d a slot (BitVec.ofNat 4 b))

/-- Decodes the fields of SHFL, LSWAP, HSWAP (R54). -/
def decLX3 (mk : BitVec 3 → Dest → Fin 120 → Src → Instr) : LDec := fun g d a b l => do
  let d ← destField d
  let a ← finField 120 a
  let b ← srcField b l
  some (mk g d a b)

/-- Decodes the fields of LDG8, LDG16, LDG32 (R54). -/
def decLLdg (mk : BitVec 3 → Dest → Src → Fin 8 → BitVec 2 → Bool → Instr) : LDec := fun g d a b l => do
  let d ← destField d
  let a ← srcField a l
  let bp ← finField 8 (b / 16)
  let o ← ordField 1 (b % 4)
  some (mk g d a bp (BitVec.ofNat 2 (b / 4)) o)

/-- Decodes the fields of LDG64 (R54). -/
def decLLdg2 (mk : BitVec 3 → Fin 119 → Src → Fin 8 → BitVec 2 → Bool → Instr) : LDec := fun g d a b l => do
  let d ← finField 119 d
  let a ← srcField a l
  let bp ← finField 8 (b / 16)
  let o ← ordField 1 (b % 4)
  some (mk g d a bp (BitVec.ofNat 2 (b / 4)) o)

/-- Decodes the fields of LDG128 (R54). -/
def decLLdg4 (mk : BitVec 3 → Fin 117 → Src → Fin 8 → BitVec 2 → Bool → Instr) : LDec := fun g d a b l => do
  let d ← finField 117 d
  let a ← srcField a l
  let bp ← finField 8 (b / 16)
  let o ← ordField 1 (b % 4)
  some (mk g d a bp (BitVec.ofNat 2 (b / 4)) o)

/-- Decodes the fields of STG8, STG16, STG32 (R54). -/
def decLStg (mk : BitVec 3 → Data → Src → Fin 8 → BitVec 2 → Bool → Instr) : LDec := fun g d a b l => do
  let d ← dataField d
  let a ← srcField a l
  let bp ← finField 8 (b / 16)
  let o ← ordField 2 (b % 4)
  some (mk g d a bp (BitVec.ofNat 2 (b / 4)) o)

/-- Decodes the fields of STG64 (R54). -/
def decLStg2 (mk : BitVec 3 → Fin 119 → Src → Fin 8 → BitVec 2 → Bool → Instr) : LDec := fun g d a b l => do
  let d ← finField 119 d
  let a ← srcField a l
  let bp ← finField 8 (b / 16)
  let o ← ordField 2 (b % 4)
  some (mk g d a bp (BitVec.ofNat 2 (b / 4)) o)

/-- Decodes the fields of STG128 (R54). -/
def decLStg4 (mk : BitVec 3 → Fin 117 → Src → Fin 8 → BitVec 2 → Bool → Instr) : LDec := fun g d a b l => do
  let d ← finField 117 d
  let a ← srcField a l
  let bp ← finField 8 (b / 16)
  let o ← ordField 2 (b % 4)
  some (mk g d a bp (BitVec.ofNat 2 (b / 4)) o)

/-- Decodes the fields of LDL32 (R54). -/
def decLLdl (mk : BitVec 3 → Dest → Src → BitVec 7 → Instr) : LDec := fun g d a b l => do
  let d ← destField d
  let a ← srcField a l
  some (mk g d a (BitVec.ofNat 7 b))

/-- Decodes the fields of LDL64 (R54). -/
def decLLdl2 (mk : BitVec 3 → Fin 119 → Src → BitVec 7 → Instr) : LDec := fun g d a b l => do
  let d ← finField 119 d
  let a ← srcField a l
  some (mk g d a (BitVec.ofNat 7 b))

/-- Decodes the fields of LDL128 (R54). -/
def decLLdl4 (mk : BitVec 3 → Fin 117 → Src → BitVec 7 → Instr) : LDec := fun g d a b l => do
  let d ← finField 117 d
  let a ← srcField a l
  some (mk g d a (BitVec.ofNat 7 b))

/-- Decodes the fields of STL32 (R54). -/
def decLStl (mk : BitVec 3 → Data → Src → BitVec 7 → Instr) : LDec := fun g d a b l => do
  let d ← dataField d
  let a ← srcField a l
  some (mk g d a (BitVec.ofNat 7 b))

/-- Decodes the fields of STL64 (R54). -/
def decLStl2 (mk : BitVec 3 → Fin 119 → Src → BitVec 7 → Instr) : LDec := fun g d a b l => do
  let d ← finField 119 d
  let a ← srcField a l
  some (mk g d a (BitVec.ofNat 7 b))

/-- Decodes the fields of STL128 (R54). -/
def decLStl4 (mk : BitVec 3 → Fin 117 → Src → BitVec 7 → Instr) : LDec := fun g d a b l => do
  let d ← finField 117 d
  let a ← srcField a l
  some (mk g d a (BitVec.ofNat 7 b))

/-- Decodes the fields of AADD, AMIN, AMAX, AAND and its like (R54). -/
def decLAtm (mk : BitVec 3 → Fin 120 → Src → Fin 8 → BitVec 2 → BitVec 2 → Instr) : LDec := fun g d a b l => do
  let d ← finField 120 d
  let a ← srcField a l
  let bp ← finField 8 (b / 16)
  some (mk g d a bp (BitVec.ofNat 2 (b / 4)) (BitVec.ofNat 2 b))

/-- Decodes the fields of AADD64, ACAS (R54). -/
def decLAtm2 (mk : BitVec 3 → Fin 119 → Src → Fin 8 → BitVec 2 → BitVec 2 → Instr) : LDec := fun g d a b l => do
  let d ← finField 119 d
  let a ← srcField a l
  let bp ← finField 8 (b / 16)
  some (mk g d a bp (BitVec.ofNat 2 (b / 4)) (BitVec.ofNat 2 b))

/-- Decodes the fields of RADD, RADDF, RMAX (R54). -/
def decLRed (mk : BitVec 3 → Data → Src → Fin 8 → BitVec 2 → Bool → Instr) : LDec := fun g d a b l => do
  let d ← dataField d
  let a ← srcField a l
  let bp ← finField 8 (b / 16)
  let o ← ordField 2 (b % 4)
  some (mk g d a bp (BitVec.ofNat 2 (b / 4)) o)

/-- Decodes the fields of DRAIN, ACCW (R54). -/
def decLLt (mk : BitVec 3 → Fin 113 → Bool → Fin 24 → Instr) : LDec := fun g d a b _ => do
  let d ← finField 113 d
  let _ ← zeroField (a % 2)
  let _ ← zeroField b
  let cb ← finField 24 (a / 2 % 32)
  some (mk g d (bitField (a / 64)) cb)

/-- Decodes the fields of BRA, CALL (R54). -/
def decLLj (mk : BitVec 3 → BitVec 21 → Instr) : LDec := fun g d a b _ => do
  some (mk g (BitVec.ofNat 21 (d * 2 ^ 14 + a * 2 ^ 7 + b)))

/-- Decodes the fields of TRAPL, ROLLB (R54). -/
def decLL1 (mk : BitVec 3 → Src → Instr) : LDec := fun g d a b l => do
  let _ ← zeroField d
  let a ← srcField a l
  let _ ← zeroField b
  some (mk g a)

/-- The offset register of a uniform access: present when O = 1, and sb is 0 when O = 0 (R55). -/
def optField (o sb : Nat) : Option (Option (Fin 64)) :=
  if o = 1 then (finField 64 sb).map some else if sb = 0 then some none else none

/-- MWAIT's target: one core, or all, and then the core field is 0 (R55). -/
def waitField (all c : Nat) : Option (Option (Fin 4)) :=
  if all = 1 then (if c = 0 then some none else none) else (finField 4 c).map some

/-- Decodes the fields of SNOP, SRET, YIELD, EXIT and its like (R55). -/
def decGG0 (mk : BitVec 3 → Instr) : GDec := fun q n _ _ => do
  let _ ← zeroField (n)
  some (mk q)

/-- Decodes the fields of SMOV, SCLZ, SPOPC, SCVTFI and its like (R55). -/
def decGS2 (mk : BitVec 3 → Fin 64 → Fin 64 → Instr) : GDec := fun q n _ _ => do
  let d ← finField 64 (fld n 15 6)
  let a ← finField 64 (fld n 9 6)
  let _ ← zeroField (fld n 3 6)
  let _ ← zeroField (fld n 0 3)
  some (mk q d a)

/-- Decodes the fields of SLIT (R55). -/
def decGSlit (mk : BitVec 3 → Fin 64 → Word → Instr) : GDec := fun q n l0 _ => do
  let d ← finField 64 (fld n 15 6)
  let _ ← zeroField (fld n 0 15)
  some (mk q d l0)

/-- Decodes the fields of SADD, SSUB, SMUL, SMIN and its like (R55). -/
def decGS3 (mk : BitVec 3 → Fin 64 → Fin 64 → Fin 64 → Instr) : GDec := fun q n _ _ => do
  let d ← finField 64 (fld n 15 6)
  let a ← finField 64 (fld n 9 6)
  let b ← finField 64 (fld n 3 6)
  let _ ← zeroField (fld n 0 3)
  some (mk q d a b)

/-- Decodes the fields of SADDI (R55). -/
def decGSaddi (mk : BitVec 3 → Fin 64 → Fin 64 → BitVec 9 → Instr) : GDec := fun q n _ _ => do
  let d ← finField 64 (fld n 15 6)
  let a ← finField 64 (fld n 9 6)
  some (mk q d a (BitVec.ofNat 9 n))

/-- Decodes the fields of SADD64 (R55). -/
def decGP3 (mk : BitVec 3 → Fin 32 → Fin 32 → Fin 32 → Instr) : GDec := fun q n _ _ => do
  let d ← pairField (fld n 15 6)
  let a ← pairField (fld n 9 6)
  let b ← pairField (fld n 3 6)
  let _ ← zeroField (fld n 0 3)
  some (mk q d a b)

/-- Decodes the fields of SCMPEQ, SCMPNE, SCMPLT, SCMPLE and its like (R55). -/
def decGSc (mk : BitVec 3 → Fin 8 → Fin 64 → Fin 64 → Instr) : GDec := fun q n _ _ => do
  let d ← finField 8 (fld n 15 6)
  let a ← finField 64 (fld n 9 6)
  let b ← finField 64 (fld n 3 6)
  let _ ← zeroField (fld n 0 3)
  some (mk q d a b)

/-- Decodes the fields of QOP (R55). -/
def decGQop (mk : BitVec 3 → QFun → Fin 8 → Fin 8 → Fin 8 → Instr) : GDec := fun q n _ _ => do
  let f ← qfunField (fld n 0 3)
  let d ← finField 8 (fld n 15 6)
  let a ← finField 8 (fld n 9 6)
  let b ← finField 8 (fld n 3 6)
  some (mk q f d a b)

/-- Decodes the fields of SSEL (R55). -/
def decGSsel (mk : BitVec 3 → Fin 64 → Fin 64 → Fin 64 → Fin 8 → Instr) : GDec := fun q n _ _ => do
  let d ← finField 64 (fld n 15 6)
  let a ← finField 64 (fld n 9 6)
  let b ← finField 64 (fld n 3 6)
  let x ← finField 8 (fld n 0 3)
  some (mk q d a b x)

/-- Decodes the fields of SFIRST, VMASK, REGPOOL (R55). -/
def decGSd (mk : BitVec 3 → Fin 64 → Instr) : GDec := fun q n _ _ => do
  let d ← finField 64 (fld n 15 6)
  let _ ← zeroField (fld n 0 15)
  some (mk q d)

/-- Decodes the fields of SRD (R55). -/
def decGSrd (mk : BitVec 3 → Fin 64 → Fin 40 → Instr) : GDec := fun q n _ _ => do
  let d ← finField 64 (fld n 15 6)
  let _ ← zeroField (fld n 9 6)
  let ix ← finField 40 (fld n 0 9)
  some (mk q d ix)

/-- Decodes the fields of SWR (R55). -/
def decGSwr (mk : BitVec 3 → Fin 64 → Fin 40 → Instr) : GDec := fun q n _ _ => do
  let _ ← zeroField (fld n 15 6)
  let a ← finField 64 (fld n 9 6)
  let ix ← finField 40 (fld n 0 9)
  some (mk q a ix)

/-- Decodes the fields of JMP, SCALL, TXOPEN (R55). -/
def decGGj (mk : BitVec 3 → BitVec 21 → Instr) : GDec := fun q n _ _ => do
  some (mk q (BitVec.ofNat 21 n))

/-- Decodes the fields of LOOP (R55). -/
def decGLoop (mk : BitVec 3 → Fin 64 → BitVec 15 → Instr) : GDec := fun q n _ _ => do
  let d ← finField 64 (fld n 15 6)
  some (mk q d (BitVec.ofNat 15 n))

/-- Decodes the fields of JOVL (R55). -/
def decGJovl (mk : BitVec 3 → Fin 8 → Fin 64 → Instr) : GDec := fun q n _ _ => do
  let _ ← zeroField (fld n 15 6)
  let bp ← finField 8 (fld n 9 6)
  let b ← finField 64 (fld n 3 6)
  let _ ← zeroField (fld n 0 3)
  some (mk q bp b)

/-- Decodes the fields of OVLOAD (R55). -/
def decGOvl (mk : BitVec 3 → Fin 8 → Bool → Instr) : GDec := fun q n _ _ => do
  let _ ← zeroField (fld n 15 6)
  let bp ← finField 8 (fld n 9 6)
  let _ ← zeroField (fld n 1 8)
  some (mk q bp (bitField (fld n 0 1)))

/-- Decodes the fields of TRAP, REGQ, TXCANCEL, SLEEP (R55). -/
def decGSa (mk : BitVec 3 → Fin 64 → Instr) : GDec := fun q n _ _ => do
  let _ ← zeroField (fld n 15 6)
  let a ← finField 64 (fld n 9 6)
  let _ ← zeroField (fld n 0 9)
  some (mk q a)

/-- Decodes the fields of TMASK (R55). -/
def decGTmask (mk : BitVec 3 → Bool → Instr) : GDec := fun q n _ _ => do
  let _ ← zeroField (fld n 1 20)
  some (mk q (bitField (fld n 0 1)))

/-- Decodes the fields of UINT (R55). -/
def decGUint (mk : BitVec 3 → Fin 64 → Fin 64 → Instr) : GDec := fun q n _ _ => do
  let _ ← zeroField (fld n 15 6)
  let a ← finField 64 (fld n 9 6)
  let b ← finField 64 (fld n 3 6)
  let _ ← zeroField (fld n 0 3)
  some (mk q a b)

/-- Decodes the fields of SYSC (R55). -/
def decGSysc (mk : BitVec 3 → Fin 64 → Fin 64 → Fin 64 → Instr) : GDec := fun q n _ _ => do
  let d ← finField 64 (fld n 15 6)
  let a ← finField 64 (fld n 9 6)
  let b ← finField 64 (fld n 3 6)
  let _ ← zeroField (fld n 0 3)
  some (mk q d a b)

/-- Decodes the fields of LAUNCH, PFREE, CFREE, SEALF and its like (R55). -/
def decGBp (mk : BitVec 3 → Fin 8 → Instr) : GDec := fun q n _ _ => do
  let _ ← zeroField (fld n 15 6)
  let bp ← finField 8 (fld n 9 6)
  let _ ← zeroField (fld n 0 9)
  some (mk q bp)

/-- Decodes the fields of SLD, SST (R55). -/
def decGSld (want : Nat) (mk : BitVec 3 → Fin 64 → BitVec 2 → Fin 8 → Option (Fin 64) → Bool → Instr) : GDec := fun q n _ _ => do
  let d ← finField 64 (fld n 15 6)
  let bp ← finField 8 (fld n 9 3)
  let b ← optField (fld n 14 1) (fld n 3 6)
  let _ ← zeroField (fld n 2 1)
  let o ← ordField want (fld n 0 2)
  some (mk q d (BitVec.ofNat 2 (fld n 12 2)) bp b o)

/-- Decodes the fields of SLD64, SST64 (R55). -/
def decGSld64 (want : Nat) (mk : BitVec 3 → Fin 32 → BitVec 2 → Fin 8 → Option (Fin 64) → Bool → Instr) : GDec := fun q n _ _ => do
  let d ← pairField (fld n 15 6)
  let bp ← finField 8 (fld n 9 3)
  let b ← optField (fld n 14 1) (fld n 3 6)
  let _ ← zeroField (fld n 2 1)
  let o ← ordField want (fld n 0 2)
  some (mk q d (BitVec.ofNat 2 (fld n 12 2)) bp b o)

/-- Decodes the fields of SAADD, SACAS (R55). -/
def decGSat (mk : BitVec 3 → Fin 64 → BitVec 2 → Fin 8 → Fin 64 → BitVec 2 → Instr) : GDec := fun q n _ _ => do
  let d ← finField 64 (fld n 15 6)
  let _ ← zeroField (fld n 14 1)
  let bp ← finField 8 (fld n 9 3)
  let b ← finField 64 (fld n 3 6)
  let _ ← zeroField (fld n 2 1)
  some (mk q d (BitVec.ofNat 2 (fld n 12 2)) bp b (BitVec.ofNat 2 n))

/-- Decodes the fields of PGREQ (R55). -/
def decGPgreq (mk : BitVec 3 → Fin 8 → Fin 8 → Fin 64 → Instr) : GDec := fun q n _ _ => do
  let c ← finField 8 (fld n 15 6)
  let r ← finField 8 (fld n 9 6)
  let b ← finField 64 (fld n 3 6)
  let _ ← zeroField (fld n 0 3)
  some (mk q c r b)

/-- Decodes the fields of PGADV (R55). -/
def decGPgadv (mk : BitVec 3 → Fin 4 → Fin 8 → Fin 64 → Instr) : GDec := fun q n _ _ => do
  let _ ← zeroField (fld n 15 6)
  let bp ← finField 8 (fld n 9 6)
  let b ← finField 64 (fld n 3 6)
  let k ← finField 4 (fld n 0 3)
  some (mk q k bp b)

/-- Decodes the fields of PALLOC (R55). -/
def decGPalloc (mk : BitVec 3 → Fin 8 → Fin 64 → Instr) : GDec := fun q n _ _ => do
  let d ← finField 8 (fld n 15 6)
  let _ ← zeroField (fld n 9 6)
  let b ← finField 64 (fld n 3 6)
  let _ ← zeroField (fld n 0 3)
  some (mk q d b)

/-- Decodes the fields of CNEW (R55). -/
def decGCnew (mk : BitVec 3 → Fin 8 → BitVec 2 → Instr) : GDec := fun q n _ _ => do
  let d ← finField 8 (fld n 15 6)
  let _ ← zeroField (fld n 14 1)
  let _ ← zeroField (fld n 0 12)
  some (mk q d (BitVec.ofNat 2 (fld n 12 2)))

/-- Decodes the fields of CADD, CADDR, WAITGE (R55). -/
def decGCadd (mk : BitVec 3 → BitVec 2 → Fin 8 → CSrc → Instr) : GDec := fun q n _ _ => do
  let _ ← zeroField (fld n 15 6)
  let _ ← zeroField (fld n 14 1)
  let bp ← finField 8 (fld n 9 3)
  let _ ← zeroField (fld n 1 2)
  let b ← csrcField (fld n 0 1) (fld n 3 6)
  some (mk q (BitVec.ofNat 2 (fld n 12 2)) bp b)

/-- Decodes the fields of CREAD (R55). -/
def decGCread (mk : BitVec 3 → Fin 32 → BitVec 2 → Fin 8 → Instr) : GDec := fun q n _ _ => do
  let d ← pairField (fld n 15 6)
  let _ ← zeroField (fld n 14 1)
  let bp ← finField 8 (fld n 9 3)
  let _ ← zeroField (fld n 0 9)
  some (mk q d (BitVec.ofNat 2 (fld n 12 2)) bp)

/-- Decodes the fields of WAITTO (R55). -/
def decGWaitto (mk : BitVec 3 → Fin 64 → BitVec 2 → Fin 8 → CSrc → Instr) : GDec := fun q n _ _ => do
  let t ← finField 64 (fld n 15 6)
  let _ ← zeroField (fld n 14 1)
  let bp ← finField 8 (fld n 9 3)
  let _ ← zeroField (fld n 1 2)
  let b ← csrcField (fld n 0 1) (fld n 3 6)
  some (mk q t (BitVec.ofNat 2 (fld n 12 2)) bp b)

/-- Decodes the fields of FENCE (R55). -/
def decGFence (mk : BitVec 3 → BitVec 2 → Instr) : GDec := fun q n _ _ => do
  let _ ← zeroField (fld n 15 6)
  let _ ← zeroField (fld n 14 1)
  let _ ← zeroField (fld n 0 12)
  some (mk q (BitVec.ofNat 2 (fld n 12 2)))

/-- Decodes the fields of FENCEX (R55). -/
def decGFencex (mk : BitVec 3 → BitVec 2 → Fin 7 → Fin 7 → Instr) : GDec := fun q n _ _ => do
  let _ ← zeroField (fld n 15 6)
  let _ ← zeroField (fld n 14 1)
  let _ ← zeroField (fld n 9 3)
  let c1 ← finField 7 (fld n 6 3)
  let c2 ← finField 7 (fld n 3 3)
  let _ ← zeroField (fld n 0 3)
  some (mk q (BitVec.ofNat 2 (fld n 12 2)) c1 c2)

/-- Decodes the fields of TRY (R55). -/
def decGTry (mk : BitVec 3 → BitVec 21 → Word → Instr) : GDec := fun q n l0 _ => do
  some (mk q (BitVec.ofNat 21 n) l0)

/-- Decodes the fields of TILEDEF, METADEF (R55). -/
def decGTdef (mk : BitVec 3 → Fin 64 → Fin 64 → Fin 64 → Instr) : GDec := fun q n _ _ => do
  let t ← finField 64 (fld n 15 6)
  let a ← finField 64 (fld n 9 6)
  let b ← finField 64 (fld n 3 6)
  let _ ← zeroField (fld n 0 3)
  some (mk q t a b)

/-- Decodes the fields of TILEREL (R55). -/
def decGTrel (mk : BitVec 3 → Fin 64 → Instr) : GDec := fun q n _ _ => do
  let t ← finField 64 (fld n 15 6)
  let _ ← zeroField (fld n 0 15)
  some (mk q t)

/-- Decodes the fields of TSTATE (R55). -/
def decGTstate (mk : BitVec 3 → Fin 64 → Fin 64 → Instr) : GDec := fun q n _ _ => do
  let d ← finField 64 (fld n 15 6)
  let t ← finField 64 (fld n 9 6)
  let _ ← zeroField (fld n 0 9)
  some (mk q d t)

/-- Decodes the fields of CPYIN, CPYOUT, GATHER, SCATTER (R55). -/
def decGCpy (mk : BitVec 3 → Fin 64 → Fin 8 → Fin 64 → Instr) : GDec := fun q n _ _ => do
  let t ← finField 64 (fld n 15 6)
  let bp ← finField 8 (fld n 9 6)
  let b ← finField 64 (fld n 3 6)
  let _ ← zeroField (fld n 0 3)
  some (mk q t bp b)

/-- Decodes the fields of CPYGG (R55). -/
def decGCpygg (mk : BitVec 3 → Fin 8 → Fin 8 → Fin 64 → Instr) : GDec := fun q n _ _ => do
  let d ← finField 8 (fld n 15 6)
  let bp ← finField 8 (fld n 9 6)
  let b ← finField 64 (fld n 3 6)
  let _ ← zeroField (fld n 0 3)
  some (mk q d bp b)

/-- Decodes the fields of COLL, SEALB, SEALU (R55). -/
def decGColl (mk : BitVec 3 → Fin 8 → Fin 64 → Instr) : GDec := fun q n _ _ => do
  let _ ← zeroField (fld n 15 6)
  let bp ← finField 8 (fld n 9 6)
  let b ← finField 64 (fld n 3 6)
  let _ ← zeroField (fld n 0 3)
  some (mk q bp b)

/-- Decodes the fields of MSEL (R55). -/
def decGMsel (mk : BitVec 3 → Fin 4 → Fin 64 → Instr) : GDec := fun q n _ _ => do
  let _ ← zeroField (fld n 15 6)
  let a ← finField 64 (fld n 9 6)
  let _ ← zeroField (fld n 3 6)
  let core ← finField 4 (fld n 0 3)
  some (mk q core a)

/-- Decodes the fields of MMA, MMAS, MMAG (R55). -/
def decGMma (mk : BitVec 3 → MmaOps → Instr) : GDec := fun q n _ _ => do
  let oct ← finField 15 (fld n 2 4)
  some (mk q { slotA := Fin.ofNat 8 (fld n 18 3), slotB := Fin.ofNat 8 (fld n 15 3), acc := bitField (fld n 14 1), h := bitField (fld n 13 1), z := bitField (fld n 12 1), tile := Fin.ofNat 64 (fld n 6 6), oct := oct, core := Fin.ofNat 4 n })

/-- Decodes the fields of MSCALE (R55). -/
def decGMscale (mk : BitVec 3 → Bool → Fin 15 → Fin 4 → Instr) : GDec := fun q n _ _ => do
  let _ ← zeroField (fld n 15 6)
  let _ ← zeroField (fld n 6 8)
  let oct ← finField 15 (fld n 2 4)
  some (mk q (bitField (fld n 14 1)) oct (Fin.ofNat 4 n))

/-- Decodes the fields of MZERO (R55). -/
def decGMzero (mk : BitVec 3 → Bool → Fin 4 → Instr) : GDec := fun q n _ _ => do
  let _ ← zeroField (fld n 15 6)
  let _ ← zeroField (fld n 2 12)
  some (mk q (bitField (fld n 14 1)) (Fin.ofNat 4 n))

/-- Decodes the fields of MREL (R55). -/
def decGMrel (mk : BitVec 3 → Fin 4 → Instr) : GDec := fun q n _ _ => do
  let _ ← zeroField (fld n 3 18)
  let core ← finField 4 (fld n 0 3)
  some (mk q core)

/-- Decodes the fields of MWAIT (R55). -/
def decGMwait (mk : BitVec 3 → Option (Fin 4) → Instr) : GDec := fun q n _ _ => do
  let _ ← zeroField (fld n 3 18)
  let core ← waitField (fld n 2 1) (fld n 0 2)
  some (mk q core)

/-- Decodes the fields of HINT (R55). -/
def decGHint (mk : BitVec 3 → BitVec 3 → Fin 8 → Fin 64 → Instr) : GDec := fun q n _ _ => do
  let _ ← zeroField (fld n 15 6)
  let bp ← finField 8 (fld n 9 6)
  let b ← finField 64 (fld n 3 6)
  some (mk q (BitVec.ofNat 3 n) bp b)

/-- Decodes the fields of QANY, QALL (R55). -/
def decGQp (mk : BitVec 3 → Fin 8 → Fin 8 → Instr) : GDec := fun q n _ _ => do
  let d ← finField 8 (fld n 15 6)
  let a ← finField 8 (fld n 9 6)
  let _ ← zeroField (fld n 0 9)
  some (mk q d a)

/-- Decodes the fields of PSET (R55). -/
def decGPset (mk : BitVec 3 → Fin 7 → Fin 8 → Instr) : GDec := fun q n _ _ => do
  let p ← finField 7 (fld n 15 6)
  let a ← finField 8 (fld n 9 6)
  let _ ← zeroField (fld n 0 9)
  some (mk q p a)

/-- Decodes the fields of SLIT64 (R55). -/
def decGSlit64 (mk : BitVec 3 → Fin 32 → Word → Word → Instr) : GDec := fun q n l0 l1 => do
  let d ← pairField (fld n 15 6)
  let _ ← zeroField (fld n 0 15)
  some (mk q d l0 l1)

/-- The L-set opcode map (R57), one row of sixteen opcodes at a time. -/
def lRow0 : List LDec := [
  decLL0 .nop, decLA2 .mov, decLVbc .vbc, decLA3 .iadd,
  decLA3 .isub, decLA3 .imul, decLA3 .imulh, decLA3 .imulhu,
  decLR3 .imac, decLA3 .imin, decLA3 .imax, decLA3 .umin,
  decLA3 .umax, decLA2 .iabs, decLA3 .andOp, decLA3 .orOp]

/-- Opcodes 0x10 to 0x1F of the L-set map. -/
def lRow1 : List LDec := [
  decLA3 .xorOp, decLA3 .andn, decLA3 .shl, decLA3 .shr,
  decLA3 .sar, decLA2 .clz, decLA2 .popc, decLA2 .brev,
  decLA3 .bfe, decLA3 .bfes, decLR3 .bfi, decLA3 .sel,
  decLCmp .icmpeq, decLCmp .icmpne, decLCmp .icmplt, decLCmp .icmple]

/-- Opcodes 0x20 to 0x2F of the L-set map. -/
def lRow2 : List LDec := [
  decLCmp .ucmplt, decLCmp .ucmple, decLPl .pand, decLPl .por,
  decLPl .pxor, decLPnot .pnot, decLPtov .ptov, decLVtop .vtop,
  decLA3 .fadd, decLA3 .fsub, decLA3 .fmul, decLR3 .fmac,
  decLA3 .fmal, decLA3 .fmin, decLA3 .fmax, decLA3 .fscale]

/-- Opcodes 0x30 to 0x3F of the L-set map. -/
def lRow3 : List LDec := [
  decLCmp .fcmpeq, decLCmp .fcmplt, decLCmp .fcmple, decLCmp .fcmpun,
  decLA2 .frcp, decLA2 .frsq, decLA2 .fsqrt, decLA2 .fexp2,
  decLA2 .flog2, decLA2 .fsinpi, decLA2 .fcospi, decLA2 .ftanh,
  decLA3 .badd2, decLA3 .bmul2, decLR3 .bmac2, decLA3 .bmax2]

/-- Opcodes 0x40 to 0x4F of the L-set map. -/
def lRow4 : List LDec := [
  decLA3 .hadd2, decLA3 .hmul2, decLR3 .hmac2, decLA3 .hmax2,
  decLA2 .cvtfi, decLA2 .cvtif, decLA3 .pkbf, decLA3 .pkhf,
  decLA2 .upklo, decLA2 .upkhi, decLLc .cvtn, decLLc .cvtw,
  decLLc .qscale, decLA3 .cvtsr, decLX3 .shfl, decLX3 .lswap]

/-- Opcodes 0x50 to 0x5F of the L-set map. -/
def lRow5 : List LDec := [
  decLX3 .hswap, decLPtov .ballot, decLLdg .ldg8, decLLdg .ldg16,
  decLLdg .ldg32, decLLdg2 .ldg64, decLLdg4 .ldg128, decLStg .stg8,
  decLStg .stg16, decLStg .stg32, decLStg2 .stg64, decLStg4 .stg128,
  decLLdl .ldl32, decLLdl2 .ldl64, decLLdl4 .ldl128, decLStl .stl32]

/-- Opcodes 0x60 to 0x6F of the L-set map. -/
def lRow6 : List LDec := [
  decLStl2 .stl64, decLStl4 .stl128, decLAtm .aadd, decLAtm2 .aadd64,
  decLAtm .amin, decLAtm .amax, decLAtm .aand, decLAtm .aor,
  decLAtm .axchg, decLAtm2 .acas, decLRed .radd, decLRed .raddf,
  decLRed .rmax, decLLt .drain, decLLt .accw, decLLj .bra]

/-- Opcodes 0x70 to 0x73 of the L-set map. -/
def lRow7 : List LDec := [
  decLLj .call, decLL0 .ret, decLL1 .trapl, decLL1 .rollb]

/-- Every assigned opcode of the L-set, in order. -/
def lTable : List LDec := lRow0 ++ lRow1 ++ lRow2 ++ lRow3 ++ lRow4 ++ lRow5 ++ lRow6 ++ lRow7

/-- The G-set opcode map (R58), one row of sixteen opcodes at a time. -/
def gRow0 : List GDec := [
  decGG0 .snop, decGS2 .smov, decGSlit .slit, decGS3 .sadd,
  decGS3 .ssub, decGS3 .smul, decGS3 .smin, decGS3 .smax,
  decGS3 .sand, decGS3 .sor, decGS3 .sxor, decGS3 .sshl,
  decGS3 .sshr, decGS3 .ssar, decGSaddi .saddi, decGP3 .sadd64]

/-- Opcodes 0x10 to 0x1F of the G-set map. -/
def gRow1 : List GDec := [
  decGS3 .sbfe, decGS2 .sclz, decGS2 .spopc, decGSc .scmpeq,
  decGSc .scmpne, decGSc .scmplt, decGSc .scmple, decGSc .scmpltu,
  decGQop .qop, decGSsel .ssel, decGSd .sfirst, decGSd .vmask,
  decGSrd .srd, decGSwr .swr, decGGj .jmp, decGLoop .loop]

/-- Opcodes 0x20 to 0x2F of the G-set map. -/
def gRow2 : List GDec := [
  decGGj .scall, decGG0 .sret, decGJovl .jovl, decGOvl .ovload,
  decGG0 .yield, decGG0 .exit, decGSa .trap, decGG0 .tret,
  decGTmask .tmask, decGUint .uint, decGG0 .uiret, decGSysc .sysc,
  decGG0 .sbrk, decGBp .launch, decGSa .regq, decGSd .regpool]

/-- Opcodes 0x30 to 0x3F of the G-set map. -/
def gRow3 : List GDec := [
  decGSld 1 .sld, decGSld64 1 .sld64, decGSld 2 .sst, decGSld64 2 .sst64,
  decGSat .saadd, decGSat .sacas, decGPgreq .pgreq, decGPgadv .pgadv,
  decGPalloc .palloc, decGBp .pfree, decGCnew .cnew, decGBp .cfree,
  decGCadd .cadd, decGCadd .caddr, decGCread .cread, decGCadd .waitge]

/-- Opcodes 0x40 to 0x4F of the G-set map. -/
def gRow4 : List GDec := [
  decGWaitto .waitto, decGG0 .tbar, decGFence .fence, decGFencex .fencex,
  decGTry .tryOp, decGG0 .commit, decGGj .txopen, decGG0 .txclose,
  decGSa .txcancel, decGTdef .tiledef, decGTrel .tilerel, decGTstate .tstate,
  decGTdef .metadef, decGCpy .cpyin, decGCpy .cpyout, decGCpygg .cpygg]

/-- Opcodes 0x50 to 0x5F of the G-set map. -/
def gRow5 : List GDec := [
  decGCpy .gather, decGCpy .scatter, decGColl .coll, decGColl .sealb,
  decGColl .sealu, decGBp .sealf, decGBp .ckpt, decGMsel .msel,
  decGMma .mma, decGMma .mmas, decGMma .mmag, decGMscale .mscale,
  decGMzero .mzero, decGMrel .mrel, decGMwait .mwait, decGHint .hint]

/-- Opcodes 0x60 to 0x6B of the G-set map. -/
def gRow6 : List GDec := [
  decGS3 .sfadd, decGS3 .sfmul, decGSc .sfcmplt, decGS2 .scvtfi,
  decGS2 .scvtif, decGS3 .sdivu, decGS3 .sremu, decGQp .qany,
  decGQp .qall, decGPset .pset, decGSa .sleep, decGSlit64 .slit64]

/-- Every assigned opcode of the G-set, in order. -/
def gTable : List GDec := gRow0 ++ gRow1 ++ gRow2 ++ gRow3 ++ gRow4 ++ gRow5 ++ gRow6

/-- Which of the fields d, a, b of an L-set word are marked "src", by opcode (R47, R54); the data field of the stores
and reductions counts (R47). Bit 0 is b, bit 1 is a, bit 2 is d. -/
def srcMasks : List Nat := [
  0, 2, 0, 3, 3, 3, 3, 3, 3, 3, 3, 3, 3, 2, 3, 3, 3, 3, 3, 3, 3, 2, 2, 2, 3, 3, 3, 3, 3,
  3, 3, 3, 3, 3, 0, 0, 0, 0, 0, 2, 3, 3, 3, 3, 3, 3, 3, 3, 3, 3, 3, 3, 2, 2, 2, 2, 2, 2,
  2, 2, 3, 3, 3, 3, 3, 3, 3, 3, 2, 2, 3, 3, 2, 2, 2, 2, 2, 3, 3, 3, 3, 0, 2, 2, 2, 2, 2,
  6, 6, 6, 2, 2, 2, 2, 2, 6, 2, 2, 2, 2, 2, 2, 2, 2, 2, 2, 6, 6, 6, 0, 0, 0, 0, 0, 2, 2]

/-- How many literal words follow an instruction word, by its opcode and fields alone (R47). -/
def litCount (w : Word) : Nat :=
  let n := w.toNat
  let op := fld n 24 7
  if n / 2 ^ 31 = 1 then
    if op = 0x02 ∨ op = 0x44 then 1 else if op = 0x6B then 2 else 0
  else
    let m := srcMasks.getD op 0
    if (m % 2 = 1 ∧ fld n 0 7 = 126) ∨ (m / 2 % 2 = 1 ∧ fld n 7 7 = 126) ∨ (m / 4 = 1 ∧ fld n 14 7 = 126) then 1 else 0

/-- The length of an instruction in words (R47). -/
def wordLen (w : Word) : Nat := 1 + litCount w

/-- Decodes one instruction word with its literal words, before the checks of `Instr.wf`. -/
def decodeWord (w l0 l1 : Word) : Option Instr :=
  let n := w.toNat
  let g := BitVec.ofNat 3 (fld n 21 3)
  let op := fld n 24 7
  if n / 2 ^ 31 = 1 then
    match gTable[op]? with
    | some d => d g (fld n 0 21) l0 l1
    | none => some (.reservedOpcodeWord true (BitVec.ofNat 7 op) g (BitVec.ofNat 21 n))
  else
    match lTable[op]? with
    | some d => d g (fld n 14 7) (fld n 7 7) (fld n 0 7) l0
    | none => some (.reservedOpcodeWord false (BitVec.ofNat 7 op) g (BitVec.ofNat 21 n))

/-- Decodes the instruction at the head of a list of words; the words after it are ignored. -/
def decode : List Word → Except Reject Instr
  | [] => .error .noWord
  | w :: ls =>
    if ls.length < litCount w then .error .literalMissing
    else
      match decodeWord w (ls.getD 0 0#32) (ls.getD 1 0#32) with
      | none => .error .illegalField
      | some i => if i.wf then .ok i else .error .illegalField

/-- The little-endian words of a list of bytes (R6, R41). -/
def wordsOfBytes : List Byte → List Word
  | a :: b :: c :: d :: r => (d ++ c ++ b ++ a : BitVec 32) :: wordsOfBytes r
  | [_, _, _] | [_, _] | [_] | [] => []

/-- The `k` low bytes of a number, the least significant first: how the hardware stores it (R6). -/
def bytesOfNat : Nat → Nat → List Byte
  | 0, _ => []
  | k + 1, n => BitVec.ofNat 8 n :: bytesOfNat k (n / 256)

/-- The instruction the decoder reads from the first `nbits` bits `w`, every later bit 0, laid out as three
little-endian words (the longest instruction, R47). -/
def decodeTableWord (nbits w : Nat) : Option Instr :=
  match decode (wordsOfBytes (bytesOfNat 12 (w % 2 ^ nbits))) with
  | .ok i => some i
  | .error _ => none

/-- A source field's code (R44). -/
def Src.code : Src → Nat
  | .reg n => n.val
  | .latch k => 120 + k.val
  | .zero => 124
  | .tid => 125
  | .lit _ => 126
  | .abc => 127

/-- The literal words a source field brings. -/
def Src.lits : Src → List Word
  | .lit w => [w]
  | .reg _ | .latch _ | .zero | .tid | .abc => []

/-- A destination field's code (R44). -/
def Dest.code : Dest → Nat
  | .reg n => n.val
  | .discard => 124

/-- A data field's code (R54). -/
def Data.code : Data → Nat
  | .reg n => n.val
  | .latch k => 120 + k.val
  | .zero => 124

/-- The sb field and the W bit of a counter word (R272). -/
def CSrc.code : CSrc → Nat
  | .one s => s.val * 8
  | .pair n => n.val * 16 + 1

/-- QOP's function code (R152). -/
def QFun.code : QFun → Nat
  | .and => 0
  | .or => 1
  | .xor => 2
  | .andn => 3
  | .not => 4

/-- A flag as a bit. -/
def bitOf (b : Bool) : Nat := if b then 1 else 0

/-- An L-set word from its fields (R42, R82). -/
def lWord (op : Nat) (g : BitVec 3) (d a low : Nat) : Word :=
  BitVec.ofNat 32 (op * 2 ^ 24 + g.toNat * 2 ^ 21 + d * 2 ^ 14 + a * 2 ^ 7 + low)

/-- A G-set word from its guard and its bits [20:0] (R43, R143). -/
def gWord (op : Nat) (q : BitVec 3) (fields : Nat) : Word :=
  BitVec.ofNat 32 (2 ^ 31 + op * 2 ^ 24 + q.toNat * 2 ^ 21 + fields)

/-- The fields of a GR word (R43). -/
def grFields (sd sa sb x : Nat) : Nat := sd * 2 ^ 15 + sa * 2 ^ 9 + sb * 2 ^ 3 + x

/-- The sa field of a uniform memory or counter word: O, scope, bp (R55). -/
def saField (o : Nat) (scope : BitVec 2) (bp : Fin 8) : Nat := o * 32 + scope.toNat * 8 + bp.val

/-- The O bit and the sb field of an optional offset register (R55). -/
def optBit : Option (Fin 64) → Nat
  | none => 0
  | some _ => 1

/-- The sb field of an optional offset register (R55). -/
def optCode : Option (Fin 64) → Nat
  | none => 0
  | some s => s.val

/-- The words of an instruction: its instruction word, then its literal words (R42, R43, R47). A step of another agent
has no words. -/
def encode : Instr → List Word
  | .nop g => [lWord 0x00 g 0 0 0]
  | .mov g d a => lWord 0x01 g d.code a.code 0 :: a.lits
  | .vbc g d s => [lWord 0x02 g d.code 0 s.val]
  | .iadd g d a b => lWord 0x03 g d.code a.code b.code :: (a.lits ++ b.lits)
  | .isub g d a b => lWord 0x04 g d.code a.code b.code :: (a.lits ++ b.lits)
  | .imul g d a b => lWord 0x05 g d.code a.code b.code :: (a.lits ++ b.lits)
  | .imulh g d a b => lWord 0x06 g d.code a.code b.code :: (a.lits ++ b.lits)
  | .imulhu g d a b => lWord 0x07 g d.code a.code b.code :: (a.lits ++ b.lits)
  | .imac g d a b => lWord 0x08 g d.val a.code b.code :: (a.lits ++ b.lits)
  | .imin g d a b => lWord 0x09 g d.code a.code b.code :: (a.lits ++ b.lits)
  | .imax g d a b => lWord 0x0A g d.code a.code b.code :: (a.lits ++ b.lits)
  | .umin g d a b => lWord 0x0B g d.code a.code b.code :: (a.lits ++ b.lits)
  | .umax g d a b => lWord 0x0C g d.code a.code b.code :: (a.lits ++ b.lits)
  | .iabs g d a => lWord 0x0D g d.code a.code 0 :: a.lits
  | .andOp g d a b => lWord 0x0E g d.code a.code b.code :: (a.lits ++ b.lits)
  | .orOp g d a b => lWord 0x0F g d.code a.code b.code :: (a.lits ++ b.lits)
  | .xorOp g d a b => lWord 0x10 g d.code a.code b.code :: (a.lits ++ b.lits)
  | .andn g d a b => lWord 0x11 g d.code a.code b.code :: (a.lits ++ b.lits)
  | .shl g d a b => lWord 0x12 g d.code a.code b.code :: (a.lits ++ b.lits)
  | .shr g d a b => lWord 0x13 g d.code a.code b.code :: (a.lits ++ b.lits)
  | .sar g d a b => lWord 0x14 g d.code a.code b.code :: (a.lits ++ b.lits)
  | .clz g d a => lWord 0x15 g d.code a.code 0 :: a.lits
  | .popc g d a => lWord 0x16 g d.code a.code 0 :: a.lits
  | .brev g d a => lWord 0x17 g d.code a.code 0 :: a.lits
  | .bfe g d a b => lWord 0x18 g d.code a.code b.code :: (a.lits ++ b.lits)
  | .bfes g d a b => lWord 0x19 g d.code a.code b.code :: (a.lits ++ b.lits)
  | .bfi g d a b => lWord 0x1A g d.val a.code b.code :: (a.lits ++ b.lits)
  | .sel g d a b => lWord 0x1B g d.code a.code b.code :: (a.lits ++ b.lits)
  | .icmpeq g p a b => lWord 0x1C g p.val a.code b.code :: (a.lits ++ b.lits)
  | .icmpne g p a b => lWord 0x1D g p.val a.code b.code :: (a.lits ++ b.lits)
  | .icmplt g p a b => lWord 0x1E g p.val a.code b.code :: (a.lits ++ b.lits)
  | .icmple g p a b => lWord 0x1F g p.val a.code b.code :: (a.lits ++ b.lits)
  | .ucmplt g p a b => lWord 0x20 g p.val a.code b.code :: (a.lits ++ b.lits)
  | .ucmple g p a b => lWord 0x21 g p.val a.code b.code :: (a.lits ++ b.lits)
  | .pand g p a b => [lWord 0x22 g p.val a.val b.val]
  | .por g p a b => [lWord 0x23 g p.val a.val b.val]
  | .pxor g p a b => [lWord 0x24 g p.val a.val b.val]
  | .pnot g p a => [lWord 0x25 g p.val a.val 0]
  | .ptov g d a => [lWord 0x26 g d.code a.val 0]
  | .vtop g p a => lWord 0x27 g p.val a.code 0 :: a.lits
  | .fadd g d a b => lWord 0x28 g d.code a.code b.code :: (a.lits ++ b.lits)
  | .fsub g d a b => lWord 0x29 g d.code a.code b.code :: (a.lits ++ b.lits)
  | .fmul g d a b => lWord 0x2A g d.code a.code b.code :: (a.lits ++ b.lits)
  | .fmac g d a b => lWord 0x2B g d.val a.code b.code :: (a.lits ++ b.lits)
  | .fmal g d a b => lWord 0x2C g d.code a.code b.code :: (a.lits ++ b.lits)
  | .fmin g d a b => lWord 0x2D g d.code a.code b.code :: (a.lits ++ b.lits)
  | .fmax g d a b => lWord 0x2E g d.code a.code b.code :: (a.lits ++ b.lits)
  | .fscale g d a b => lWord 0x2F g d.code a.code b.code :: (a.lits ++ b.lits)
  | .fcmpeq g p a b => lWord 0x30 g p.val a.code b.code :: (a.lits ++ b.lits)
  | .fcmplt g p a b => lWord 0x31 g p.val a.code b.code :: (a.lits ++ b.lits)
  | .fcmple g p a b => lWord 0x32 g p.val a.code b.code :: (a.lits ++ b.lits)
  | .fcmpun g p a b => lWord 0x33 g p.val a.code b.code :: (a.lits ++ b.lits)
  | .frcp g d a => lWord 0x34 g d.code a.code 0 :: a.lits
  | .frsq g d a => lWord 0x35 g d.code a.code 0 :: a.lits
  | .fsqrt g d a => lWord 0x36 g d.code a.code 0 :: a.lits
  | .fexp2 g d a => lWord 0x37 g d.code a.code 0 :: a.lits
  | .flog2 g d a => lWord 0x38 g d.code a.code 0 :: a.lits
  | .fsinpi g d a => lWord 0x39 g d.code a.code 0 :: a.lits
  | .fcospi g d a => lWord 0x3A g d.code a.code 0 :: a.lits
  | .ftanh g d a => lWord 0x3B g d.code a.code 0 :: a.lits
  | .badd2 g d a b => lWord 0x3C g d.code a.code b.code :: (a.lits ++ b.lits)
  | .bmul2 g d a b => lWord 0x3D g d.code a.code b.code :: (a.lits ++ b.lits)
  | .bmac2 g d a b => lWord 0x3E g d.val a.code b.code :: (a.lits ++ b.lits)
  | .bmax2 g d a b => lWord 0x3F g d.code a.code b.code :: (a.lits ++ b.lits)
  | .hadd2 g d a b => lWord 0x40 g d.code a.code b.code :: (a.lits ++ b.lits)
  | .hmul2 g d a b => lWord 0x41 g d.code a.code b.code :: (a.lits ++ b.lits)
  | .hmac2 g d a b => lWord 0x42 g d.val a.code b.code :: (a.lits ++ b.lits)
  | .hmax2 g d a b => lWord 0x43 g d.code a.code b.code :: (a.lits ++ b.lits)
  | .cvtfi g d a => lWord 0x44 g d.code a.code 0 :: a.lits
  | .cvtif g d a => lWord 0x45 g d.code a.code 0 :: a.lits
  | .pkbf g d a b => lWord 0x46 g d.code a.code b.code :: (a.lits ++ b.lits)
  | .pkhf g d a b => lWord 0x47 g d.code a.code b.code :: (a.lits ++ b.lits)
  | .upklo g d a => lWord 0x48 g d.code a.code 0 :: a.lits
  | .upkhi g d a => lWord 0x49 g d.code a.code 0 :: a.lits
  | .cvtn g d a slot mode => lWord 0x4A g d.code a.code (slot.val * 16 + mode.toNat) :: a.lits
  | .cvtw g d a slot mode => lWord 0x4B g d.code a.code (slot.val * 16 + mode.toNat) :: a.lits
  | .qscale g d a slot mode => lWord 0x4C g d.code a.code (slot.val * 16 + mode.toNat) :: a.lits
  | .cvtsr g d a b => lWord 0x4D g d.code a.code b.code :: (a.lits ++ b.lits)
  | .shfl g d a b => lWord 0x4E g d.code a.val b.code :: b.lits
  | .lswap g d a b => lWord 0x4F g d.code a.val b.code :: b.lits
  | .hswap g d a b => lWord 0x50 g d.code a.val b.code :: b.lits
  | .ballot g d a => [lWord 0x51 g d.code a.val 0]
  | .ldg8 g d a bp hint acq => lWord 0x52 g d.code a.code (bp.val * 16 + hint.toNat * 4 + bitOf acq) :: a.lits
  | .ldg16 g d a bp hint acq => lWord 0x53 g d.code a.code (bp.val * 16 + hint.toNat * 4 + bitOf acq) :: a.lits
  | .ldg32 g d a bp hint acq => lWord 0x54 g d.code a.code (bp.val * 16 + hint.toNat * 4 + bitOf acq) :: a.lits
  | .ldg64 g d a bp hint acq => lWord 0x55 g d.val a.code (bp.val * 16 + hint.toNat * 4 + bitOf acq) :: a.lits
  | .ldg128 g d a bp hint acq => lWord 0x56 g d.val a.code (bp.val * 16 + hint.toNat * 4 + bitOf acq) :: a.lits
  | .stg8 g d a bp hint rel => lWord 0x57 g d.code a.code (bp.val * 16 + hint.toNat * 4 + bitOf rel * 2) :: a.lits
  | .stg16 g d a bp hint rel => lWord 0x58 g d.code a.code (bp.val * 16 + hint.toNat * 4 + bitOf rel * 2) :: a.lits
  | .stg32 g d a bp hint rel => lWord 0x59 g d.code a.code (bp.val * 16 + hint.toNat * 4 + bitOf rel * 2) :: a.lits
  | .stg64 g d a bp hint rel => lWord 0x5A g d.val a.code (bp.val * 16 + hint.toNat * 4 + bitOf rel * 2) :: a.lits
  | .stg128 g d a bp hint rel => lWord 0x5B g d.val a.code (bp.val * 16 + hint.toNat * 4 + bitOf rel * 2) :: a.lits
  | .ldl32 g d a imm => lWord 0x5C g d.code a.code imm.toNat :: a.lits
  | .ldl64 g d a imm => lWord 0x5D g d.val a.code imm.toNat :: a.lits
  | .ldl128 g d a imm => lWord 0x5E g d.val a.code imm.toNat :: a.lits
  | .stl32 g d a imm => lWord 0x5F g d.code a.code imm.toNat :: a.lits
  | .stl64 g d a imm => lWord 0x60 g d.val a.code imm.toNat :: a.lits
  | .stl128 g d a imm => lWord 0x61 g d.val a.code imm.toNat :: a.lits
  | .aadd g d a bp scope order => lWord 0x62 g d.val a.code (bp.val * 16 + scope.toNat * 4 + order.toNat) :: a.lits
  | .aadd64 g d a bp scope order => lWord 0x63 g d.val a.code (bp.val * 16 + scope.toNat * 4 + order.toNat) :: a.lits
  | .amin g d a bp scope order => lWord 0x64 g d.val a.code (bp.val * 16 + scope.toNat * 4 + order.toNat) :: a.lits
  | .amax g d a bp scope order => lWord 0x65 g d.val a.code (bp.val * 16 + scope.toNat * 4 + order.toNat) :: a.lits
  | .aand g d a bp scope order => lWord 0x66 g d.val a.code (bp.val * 16 + scope.toNat * 4 + order.toNat) :: a.lits
  | .aor g d a bp scope order => lWord 0x67 g d.val a.code (bp.val * 16 + scope.toNat * 4 + order.toNat) :: a.lits
  | .axchg g d a bp scope order => lWord 0x68 g d.val a.code (bp.val * 16 + scope.toNat * 4 + order.toNat) :: a.lits
  | .acas g d a bp scope order => lWord 0x69 g d.val a.code (bp.val * 16 + scope.toNat * 4 + order.toNat) :: a.lits
  | .radd g d a bp scope rel => lWord 0x6A g d.code a.code (bp.val * 16 + scope.toNat * 4 + bitOf rel * 2) :: a.lits
  | .raddf g d a bp scope rel => lWord 0x6B g d.code a.code (bp.val * 16 + scope.toNat * 4 + bitOf rel * 2) :: a.lits
  | .rmax g d a bp scope rel => lWord 0x6C g d.code a.code (bp.val * 16 + scope.toNat * 4 + bitOf rel * 2) :: a.lits
  | .drain g d acc cb => [lWord 0x6D g d.val (bitOf acc * 64 + cb.val * 2) 0]
  | .accw g d acc cb => [lWord 0x6E g d.val (bitOf acc * 64 + cb.val * 2) 0]
  | .bra g off => [lWord 0x6F g 0 0 off.toNat]
  | .call g off => [lWord 0x70 g 0 0 off.toNat]
  | .ret g => [lWord 0x71 g 0 0 0]
  | .trapl g a => lWord 0x72 g 0 a.code 0 :: a.lits
  | .rollb g a => lWord 0x73 g 0 a.code 0 :: a.lits
  | .snop q => [gWord 0x00 q 0]
  | .smov q d a => [gWord 0x01 q (grFields d.val a.val 0 0)]
  | .slit q d lit => gWord 0x02 q (grFields d.val 0 0 0) :: [lit]
  | .sadd q d a b => [gWord 0x03 q (grFields d.val a.val b.val 0)]
  | .ssub q d a b => [gWord 0x04 q (grFields d.val a.val b.val 0)]
  | .smul q d a b => [gWord 0x05 q (grFields d.val a.val b.val 0)]
  | .smin q d a b => [gWord 0x06 q (grFields d.val a.val b.val 0)]
  | .smax q d a b => [gWord 0x07 q (grFields d.val a.val b.val 0)]
  | .sand q d a b => [gWord 0x08 q (grFields d.val a.val b.val 0)]
  | .sor q d a b => [gWord 0x09 q (grFields d.val a.val b.val 0)]
  | .sxor q d a b => [gWord 0x0A q (grFields d.val a.val b.val 0)]
  | .sshl q d a b => [gWord 0x0B q (grFields d.val a.val b.val 0)]
  | .sshr q d a b => [gWord 0x0C q (grFields d.val a.val b.val 0)]
  | .ssar q d a b => [gWord 0x0D q (grFields d.val a.val b.val 0)]
  | .saddi q d a imm => [gWord 0x0E q (d.val * 2 ^ 15 + a.val * 2 ^ 9 + imm.toNat)]
  | .sadd64 q d a b => [gWord 0x0F q (grFields (2 * d.val) (2 * a.val) (2 * b.val) 0)]
  | .sbfe q d a b => [gWord 0x10 q (grFields d.val a.val b.val 0)]
  | .sclz q d a => [gWord 0x11 q (grFields d.val a.val 0 0)]
  | .spopc q d a => [gWord 0x12 q (grFields d.val a.val 0 0)]
  | .scmpeq q d a b => [gWord 0x13 q (grFields d.val a.val b.val 0)]
  | .scmpne q d a b => [gWord 0x14 q (grFields d.val a.val b.val 0)]
  | .scmplt q d a b => [gWord 0x15 q (grFields d.val a.val b.val 0)]
  | .scmple q d a b => [gWord 0x16 q (grFields d.val a.val b.val 0)]
  | .scmpltu q d a b => [gWord 0x17 q (grFields d.val a.val b.val 0)]
  | .qop q f d a b => [gWord 0x18 q (grFields d.val a.val b.val f.code)]
  | .ssel q d a b x => [gWord 0x19 q (grFields d.val a.val b.val x.val)]
  | .sfirst q d => [gWord 0x1A q (grFields d.val 0 0 0)]
  | .vmask q d => [gWord 0x1B q (grFields d.val 0 0 0)]
  | .srd q d ix => [gWord 0x1C q (d.val * 2 ^ 15 + ix.val)]
  | .swr q a ix => [gWord 0x1D q (a.val * 2 ^ 9 + ix.val)]
  | .jmp q off => [gWord 0x1E q off.toNat]
  | .loop q d off => [gWord 0x1F q (d.val * 2 ^ 15 + off.toNat)]
  | .scall q off => [gWord 0x20 q off.toNat]
  | .sret q => [gWord 0x21 q 0]
  | .jovl q bp b => [gWord 0x22 q (grFields 0 bp.val b.val 0)]
  | .ovload q bp slot => [gWord 0x23 q (grFields 0 bp.val 0 (bitOf slot))]
  | .yield q => [gWord 0x24 q 0]
  | .exit q => [gWord 0x25 q 0]
  | .trap q a => [gWord 0x26 q (grFields 0 a.val 0 0)]
  | .tret q => [gWord 0x27 q 0]
  | .tmask q m => [gWord 0x28 q (bitOf m)]
  | .uint q a b => [gWord 0x29 q (grFields 0 a.val b.val 0)]
  | .uiret q => [gWord 0x2A q 0]
  | .sysc q d a b => [gWord 0x2B q (grFields d.val a.val b.val 0)]
  | .sbrk q => [gWord 0x2C q 0]
  | .launch q bp => [gWord 0x2D q (grFields 0 bp.val 0 0)]
  | .regq q a => [gWord 0x2E q (grFields 0 a.val 0 0)]
  | .regpool q d => [gWord 0x2F q (grFields d.val 0 0 0)]
  | .sld q d scope bp b ord => [gWord 0x30 q (grFields d.val (saField (optBit b) scope bp) (optCode b) (bitOf ord))]
  | .sld64 q d scope bp b ord => [gWord 0x31 q (grFields (2 * d.val) (saField (optBit b) scope bp) (optCode b) (bitOf ord))]
  | .sst q d scope bp b ord => [gWord 0x32 q (grFields d.val (saField (optBit b) scope bp) (optCode b) (bitOf ord * 2))]
  | .sst64 q d scope bp b ord => [gWord 0x33 q (grFields (2 * d.val) (saField (optBit b) scope bp) (optCode b) (bitOf ord * 2))]
  | .saadd q d scope bp b order => [gWord 0x34 q (grFields d.val (saField 0 scope bp) b.val order.toNat)]
  | .sacas q d scope bp b order => [gWord 0x35 q (grFields d.val (saField 0 scope bp) b.val order.toNat)]
  | .pgreq q c r b => [gWord 0x36 q (grFields c.val r.val b.val 0)]
  | .pgadv q k bp b => [gWord 0x37 q (grFields 0 bp.val b.val k.val)]
  | .palloc q d b => [gWord 0x38 q (grFields d.val 0 b.val 0)]
  | .pfree q bp => [gWord 0x39 q (grFields 0 bp.val 0 0)]
  | .cnew q d scope => [gWord 0x3A q (grFields d.val (saField 0 scope 0) 0 0)]
  | .cfree q bp => [gWord 0x3B q (grFields 0 bp.val 0 0)]
  | .cadd q scope bp b => [gWord 0x3C q (grFields 0 (saField 0 scope bp) 0 b.code)]
  | .caddr q scope bp b => [gWord 0x3D q (grFields 0 (saField 0 scope bp) 0 b.code)]
  | .cread q d scope bp => [gWord 0x3E q (grFields (2 * d.val) (saField 0 scope bp) 0 0)]
  | .waitge q scope bp b => [gWord 0x3F q (grFields 0 (saField 0 scope bp) 0 b.code)]
  | .waitto q t scope bp b => [gWord 0x40 q (grFields t.val (saField 0 scope bp) 0 b.code)]
  | .tbar q => [gWord 0x41 q 0]
  | .fence q scope => [gWord 0x42 q (grFields 0 (saField 0 scope 0) 0 0)]
  | .fencex q scope c1 c2 => [gWord 0x43 q (grFields 0 (saField 0 scope 0) (c1.val * 8 + c2.val) 0)]
  | .tryOp q off spm => gWord 0x44 q off.toNat :: [spm]
  | .commit q => [gWord 0x45 q 0]
  | .txopen q off => [gWord 0x46 q off.toNat]
  | .txclose q => [gWord 0x47 q 0]
  | .txcancel q a => [gWord 0x48 q (grFields 0 a.val 0 0)]
  | .tiledef q t a b => [gWord 0x49 q (grFields t.val a.val b.val 0)]
  | .tilerel q t => [gWord 0x4A q (grFields t.val 0 0 0)]
  | .tstate q d t => [gWord 0x4B q (grFields d.val t.val 0 0)]
  | .metadef q t a b => [gWord 0x4C q (grFields t.val a.val b.val 0)]
  | .cpyin q t bp b => [gWord 0x4D q (grFields t.val bp.val b.val 0)]
  | .cpyout q t bp b => [gWord 0x4E q (grFields t.val bp.val b.val 0)]
  | .cpygg q d bp b => [gWord 0x4F q (grFields d.val bp.val b.val 0)]
  | .gather q t bp b => [gWord 0x50 q (grFields t.val bp.val b.val 0)]
  | .scatter q t bp b => [gWord 0x51 q (grFields t.val bp.val b.val 0)]
  | .coll q bp b => [gWord 0x52 q (grFields 0 bp.val b.val 0)]
  | .sealb q bp b => [gWord 0x53 q (grFields 0 bp.val b.val 0)]
  | .sealu q bp b => [gWord 0x54 q (grFields 0 bp.val b.val 0)]
  | .sealf q bp => [gWord 0x55 q (grFields 0 bp.val 0 0)]
  | .ckpt q bp => [gWord 0x56 q (grFields 0 bp.val 0 0)]
  | .msel q core a => [gWord 0x57 q (grFields 0 a.val 0 core.val)]
  | .mma q m => [gWord 0x58 q (m.slotA.val * 2 ^ 18 + m.slotB.val * 2 ^ 15 + bitOf m.acc * 2 ^ 14 + bitOf m.h * 2 ^ 13 + bitOf m.z * 2 ^ 12 + m.tile.val * 2 ^ 6 + m.oct.val * 4 + m.core.val)]
  | .mmas q m => [gWord 0x59 q (m.slotA.val * 2 ^ 18 + m.slotB.val * 2 ^ 15 + bitOf m.acc * 2 ^ 14 + bitOf m.h * 2 ^ 13 + bitOf m.z * 2 ^ 12 + m.tile.val * 2 ^ 6 + m.oct.val * 4 + m.core.val)]
  | .mmag q m => [gWord 0x5A q (m.slotA.val * 2 ^ 18 + m.slotB.val * 2 ^ 15 + bitOf m.acc * 2 ^ 14 + bitOf m.h * 2 ^ 13 + bitOf m.z * 2 ^ 12 + m.tile.val * 2 ^ 6 + m.oct.val * 4 + m.core.val)]
  | .mscale q acc oct core => [gWord 0x5B q (bitOf acc * 2 ^ 14 + oct.val * 4 + core.val)]
  | .mzero q acc core => [gWord 0x5C q (bitOf acc * 2 ^ 14 + core.val)]
  | .mrel q core => [gWord 0x5D q core.val]
  | .mwait q core => [gWord 0x5E q (match core with | none => 4 | some c => c.val)]
  | .hint q k bp b => [gWord 0x5F q (grFields 0 bp.val b.val k.toNat)]
  | .sfadd q d a b => [gWord 0x60 q (grFields d.val a.val b.val 0)]
  | .sfmul q d a b => [gWord 0x61 q (grFields d.val a.val b.val 0)]
  | .sfcmplt q d a b => [gWord 0x62 q (grFields d.val a.val b.val 0)]
  | .scvtfi q d a => [gWord 0x63 q (grFields d.val a.val 0 0)]
  | .scvtif q d a => [gWord 0x64 q (grFields d.val a.val 0 0)]
  | .sdivu q d a b => [gWord 0x65 q (grFields d.val a.val b.val 0)]
  | .sremu q d a b => [gWord 0x66 q (grFields d.val a.val b.val 0)]
  | .qany q d a => [gWord 0x67 q (grFields d.val a.val 0 0)]
  | .qall q d a => [gWord 0x68 q (grFields d.val a.val 0 0)]
  | .pset q p a => [gWord 0x69 q (grFields p.val a.val 0 0)]
  | .sleep q a => [gWord 0x6A q (grFields 0 a.val 0 0)]
  | .slit64 q d lo hi => gWord 0x6B q (grFields (2 * d.val) 0 0 0) :: [lo, hi]
  | .reservedOpcodeWord gset op g rest => [if gset then gWord op.toNat g rest.toNat else lWord op.toNat g 0 0 rest.toNat]
  | .fetchOutsideOverlay | .loadDataReturn _ _ _ | .storePerformed _ _ _ | .trapEntry _ _
  | .waitSatisfied _ _ | .waittoTimeout _ _ | .sleepWake _ _ | .regqGrant _
  | .regqRefuse _ | .matrixExecuteStart _ _ | .matrixComplete _ _ | .engineCommandStart _
  | .engineCommandComplete _ | .engineCommandFault _ | .overlaySlotCopy _ | .overlayCopyDone _
  | .uintDelivery _ | .watchdog _ _ _ | .warpAging _ | .syscReply _ _ _
  | .collAllReduce _ _ | .collReduceScatter _ _ | .collAllGather _ _ | .collBroadcast _ _
  | .collPut _ _ | .collGet _ _ | .collAllToAll _ _ | .fabricRemoteAccess _ _
  | .ckptSave _ _ _ | .ckptRestore _ _ | .ckptPageCopy _ _ | .sealContextVoid _ _
  | .gridRetire _ | .pgreqResidentAdd _ _ | .rangeEvict _ _ _ _ | .recordTake _ _
  | .gridEligible _ | .gridPlace _ | .bindPlace _ _ | .bindWithdraw _ _
  | .bindReturn _ _ | .teamSave _ | .graceWindowEnd _ | .timeSliceExpiry _
  | .eventRecordWrite _ | .scRegisterQueue _ _ | .scRemoveQueue _ _ | .scSetEventRing _ _
  | .tlbinvPage _ _ | .tlbinvContext _ _ | .tlbinvReload _ _ | .tlbinvAll _ _
  | .tlbinvDone _ | .sliceReset _ | .functionReady _ _ | .firewallReleaseAll _
  | .actctlWrite _ _ | .pmctlThaw _ _ | .addressRangeWrite _ _ _ | .registerWrite _ _ _
  | .progressWindowEnd _ | .debugHalt _ | .debugResume _ _ _ | .partitionFuse _ _ _ _ _ _
  | .kernelBoot _ _ _ | .partitionResize _ _ _ | .resizeSliceStep _ | .partitionDissolve _
  | .scrubChunk _ | .powerOn | .powerFail | .getVersion _ _
  | .getCapabilities _ _ | .negotiateAlgorithms _ _ | .getDigests _ _ | .getCertificate _ _
  | .challenge _ _ | .getMeasurements _ _ | .measurementExtend _ _ _ | .rotFailover
  | .packetSend _ _ _ | .packetReceive _ _ _ _ | .packetRetry _ _ _ | .rekey _ _
  | .rekeyReopen _ _ _ _ | .flashAccess _ _ _ _ | .stackRead _ | .stackWrite _
  | .stackAtomic _ | .stackZeroLine _ | .refreshManagement _ _ _ | .bankBlockEnd _ _ _
  | .refreshWindowEnd _ | .patrolRead _ _ | .hostAccess _ _ _ | .childQueueTake _
  | .peerUnreachable _ _ | .keyHandleIssue _ _ _ | .rotReset | .gridEndByKernel _ => []

end Sys2Proof
end

