-- ==== Sys2Proof/Machine/Reads.lean ====
section
/-!
DEFINITION. The s registers that an instruction reads, by its operand fields (R43, R54, R143, R251, R264, R272): what an earlier uniform
load into them has to have completed for (R82, R335, R340).
-/

namespace Sys2Proof.Machine

/-- The s registers of a counter word's operand (R272). -/
def csrcRegs : CSrc → List Nat
  | .one r => [r.val]
  | .pair n => pairRegs n.val

/-- The s registers that an instruction reads at issue. -/
def sReads : Instr → List Nat
  | .vbc _ _ s => [s.val]
  | .ldg8 _ _ _ bp _ _ | .ldg16 _ _ _ bp _ _ | .ldg32 _ _ _ bp _ _ | .ldg64 _ _ _ bp _ _ | .ldg128 _ _ _ bp _ _ | .stg8 _ _ _ bp _ _
  | .stg16 _ _ _ bp _ _ | .stg32 _ _ _ bp _ _ | .stg64 _ _ _ bp _ _ | .stg128 _ _ _ bp _ _ | .aadd _ _ _ bp _ _ | .aadd64 _ _ _ bp _ _
  | .amin _ _ _ bp _ _ | .amax _ _ _ bp _ _ | .aand _ _ _ bp _ _ | .aor _ _ _ bp _ _ | .axchg _ _ _ bp _ _ | .acas _ _ _ bp _ _
  | .radd _ _ _ bp _ _ | .raddf _ _ _ bp _ _ | .rmax _ _ _ bp _ _ | .ovload _ bp _ | .launch _ bp | .pfree _ bp | .cfree _ bp
  | .cread _ _ _ bp | .sealf _ bp | .ckpt _ bp => pairRegs bp.val
  | .smov _ _ a | .saddi _ _ a _ | .sclz _ _ a | .spopc _ _ a | .swr _ a _ | .trap _ a | .regq _ a | .txcancel _ a | .msel _ _ a
  | .scvtfi _ _ a | .scvtif _ _ a | .sleep _ a => [a.val]
  | .sadd _ _ a b | .ssub _ _ a b | .smul _ _ a b | .smin _ _ a b | .smax _ _ a b | .sand _ _ a b | .sor _ _ a b | .sxor _ _ a b
  | .sshl _ _ a b | .sshr _ _ a b | .ssar _ _ a b | .sbfe _ _ a b | .scmpeq _ _ a b | .scmpne _ _ a b | .scmplt _ _ a b
  | .scmple _ _ a b | .scmpltu _ _ a b | .ssel _ _ a b _ | .uint _ a b | .sysc _ _ a b | .sfadd _ _ a b | .sfmul _ _ a b
  | .sfcmplt _ _ a b | .sdivu _ _ a b | .sremu _ _ a b => [a.val, b.val]
  | .sadd64 _ _ a b => pairRegs a.val ++ pairRegs b.val
  | .loop _ d _ => [d.val]
  | .jovl _ bp b | .saadd _ _ _ bp b _ | .pgadv _ _ bp b | .coll _ bp b | .sealb _ bp b | .sealu _ bp b | .hint _ _ bp b =>
    [b.val] ++ pairRegs bp.val
  | .sld _ _ _ bp b _ | .sld64 _ _ _ bp b _ => pairRegs bp.val ++ (b.toList.map (·.val))
  | .sst _ d _ bp b _ => [d.val] ++ pairRegs bp.val ++ (b.toList.map (·.val))
  | .sst64 _ d _ bp b _ => pairRegs d.val ++ pairRegs bp.val ++ (b.toList.map (·.val))
  | .sacas _ d _ bp b _ => [d.val, b.val] ++ pairRegs bp.val
  | .pgreq _ c r b => [b.val] ++ pairRegs c.val ++ pairRegs r.val
  | .palloc _ _ b => [b.val]
  | .cadd _ _ bp b | .caddr _ _ bp b | .waitge _ _ bp b => pairRegs bp.val ++ csrcRegs b
  | .waitto _ t _ bp b => [t.val] ++ pairRegs bp.val ++ csrcRegs b
  | .tiledef _ t a b | .metadef _ t a b => [t.val, a.val, b.val]
  | .tilerel _ t | .tstate _ _ t => [t.val]
  | .cpyin _ t bp b | .cpyout _ t bp b | .gather _ t bp b | .scatter _ t bp b => [t.val, b.val] ++ pairRegs bp.val
  | .cpygg _ d bp b => [b.val] ++ pairRegs d.val ++ pairRegs bp.val
  | .nop _ | .mov _ _ _ | .iadd _ _ _ _ | .isub _ _ _ _ | .imul _ _ _ _ | .imulh _ _ _ _ | .imulhu _ _ _ _ | .imac _ _ _ _
  | .imin _ _ _ _ | .imax _ _ _ _ | .umin _ _ _ _ | .umax _ _ _ _ | .iabs _ _ _ | .andOp _ _ _ _ | .orOp _ _ _ _ | .xorOp _ _ _ _
  | .andn _ _ _ _ | .shl _ _ _ _ | .shr _ _ _ _ | .sar _ _ _ _ | .clz _ _ _ | .popc _ _ _ | .brev _ _ _ | .bfe _ _ _ _ | .bfes _ _ _ _
  | .bfi _ _ _ _ | .sel _ _ _ _ | .icmpeq _ _ _ _ | .icmpne _ _ _ _ | .icmplt _ _ _ _ | .icmple _ _ _ _ | .ucmplt _ _ _ _
  | .ucmple _ _ _ _ | .pand _ _ _ _ | .por _ _ _ _ | .pxor _ _ _ _ | .pnot _ _ _ | .ptov _ _ _ | .vtop _ _ _ | .fadd _ _ _ _
  | .fsub _ _ _ _ | .fmul _ _ _ _ | .fmac _ _ _ _ | .fmal _ _ _ _ | .fmin _ _ _ _ | .fmax _ _ _ _ | .fscale _ _ _ _ | .fcmpeq _ _ _ _
  | .fcmplt _ _ _ _ | .fcmple _ _ _ _ | .fcmpun _ _ _ _ | .frcp _ _ _ | .frsq _ _ _ | .fsqrt _ _ _ | .fexp2 _ _ _ | .flog2 _ _ _
  | .fsinpi _ _ _ | .fcospi _ _ _ | .ftanh _ _ _ | .badd2 _ _ _ _ | .bmul2 _ _ _ _ | .bmac2 _ _ _ _ | .bmax2 _ _ _ _ | .hadd2 _ _ _ _
  | .hmul2 _ _ _ _ | .hmac2 _ _ _ _ | .hmax2 _ _ _ _ | .cvtfi _ _ _ | .cvtif _ _ _ | .pkbf _ _ _ _ | .pkhf _ _ _ _ | .upklo _ _ _
  | .upkhi _ _ _ | .cvtn _ _ _ _ _ | .cvtw _ _ _ _ _ | .qscale _ _ _ _ _ | .cvtsr _ _ _ _ | .shfl _ _ _ _ | .lswap _ _ _ _
  | .hswap _ _ _ _ | .ballot _ _ _ | .ldl32 _ _ _ _ | .ldl64 _ _ _ _ | .ldl128 _ _ _ _ | .stl32 _ _ _ _ | .stl64 _ _ _ _
  | .stl128 _ _ _ _ | .drain _ _ _ _ | .accw _ _ _ _ | .bra _ _ | .call _ _ | .ret _ | .trapl _ _ | .rollb _ _ | .snop _ | .slit _ _ _
  | .qop _ _ _ _ _ | .sfirst _ _ | .vmask _ _ | .srd _ _ _ | .jmp _ _ | .scall _ _ | .sret _ | .yield _ | .exit _ | .tret _
  | .tmask _ _ | .uiret _ | .sbrk _ | .regpool _ _ | .cnew _ _ _ | .tbar _ | .fence _ _ | .fencex _ _ _ _ | .tryOp _ _ _ | .commit _
  | .txopen _ _ | .txclose _ | .mma _ _ | .mmas _ _ | .mmag _ _ | .mscale _ _ _ _ | .mzero _ _ _ | .mrel _ _ | .mwait _ _ | .qany _ _ _
  | .qall _ _ _ | .pset _ _ _ | .slit64 _ _ _ _ | .reservedOpcodeWord _ _ _ _ | .fetchOutsideOverlay | .loadDataReturn _ _ _
  | .storePerformed _ _ _ | .trapEntry _ _ | .waitSatisfied _ _ | .waittoTimeout _ _ | .sleepWake _ _ | .regqGrant _ | .regqRefuse _
  | .matrixExecuteStart _ _ | .matrixComplete _ _ | .engineCommandStart _ | .engineCommandComplete _ | .engineCommandFault _
  | .overlaySlotCopy _ | .overlayCopyDone _ | .uintDelivery _ | .watchdog _ _ _ | .warpAging _ | .syscReply _ _ _ | .collAllReduce _ _
  | .collReduceScatter _ _ | .collAllGather _ _ | .collBroadcast _ _ | .collPut _ _ | .collGet _ _ | .collAllToAll _ _
  | .fabricRemoteAccess _ _ | .ckptSave _ _ _ | .ckptRestore _ _ | .ckptPageCopy _ _ | .sealContextVoid _ _ | .gridRetire _
  | .pgreqResidentAdd _ _ | .rangeEvict _ _ _ _ | .recordTake _ _ | .gridEligible _ | .gridPlace _ | .bindPlace _ _ | .bindWithdraw _ _
  | .bindReturn _ _ | .teamSave _ | .graceWindowEnd _ | .timeSliceExpiry _ | .eventRecordWrite _ | .scRegisterQueue _ _
  | .scRemoveQueue _ _ | .scSetEventRing _ _ | .tlbinvPage _ _ | .tlbinvContext _ _ | .tlbinvReload _ _ | .tlbinvAll _ _
  | .tlbinvDone _ | .sliceReset _ | .functionReady _ _ | .firewallReleaseAll _ | .actctlWrite _ _ | .pmctlThaw _ _
  | .addressRangeWrite _ _ _ | .registerWrite _ _ _ | .progressWindowEnd _ | .debugHalt _ | .debugResume _ _ _
  | .partitionFuse _ _ _ _ _ _ | .kernelBoot _ _ _ | .partitionResize _ _ _ | .resizeSliceStep _ | .partitionDissolve _ | .scrubChunk _
  | .powerOn | .powerFail | .getVersion _ _ | .getCapabilities _ _ | .negotiateAlgorithms _ _ | .getDigests _ _ | .getCertificate _ _
  | .challenge _ _ | .getMeasurements _ _ | .measurementExtend _ _ _ | .rotFailover | .packetSend _ _ _ | .packetReceive _ _ _ _
  | .packetRetry _ _ _ | .rekey _ _ | .rekeyReopen _ _ _ _ | .flashAccess _ _ _ _ | .stackRead _ | .stackWrite _ | .stackAtomic _
  | .stackZeroLine _ | .refreshManagement _ _ _ | .bankBlockEnd _ _ _ | .refreshWindowEnd _ | .patrolRead _ _ | .hostAccess _ _ _
  | .childQueueTake _ | .peerUnreachable _ _ | .keyHandleIssue _ _ _ | .rotReset | .gridEndByKernel _ => []

/-- Whether an instruction waits for the uniform requests of its unit that await these s registers: it reads one of them, or it is a fence
over the unit's own accesses (R82, R238, R276). -/
def waitsFor (i : Instr) (regs : List Nat) : Bool :=
  (sReads i).any (fun r => regs.contains r) || match i with
    | .fence _ _ => true
    | .fencex _ _ c1 _ => c1.val == 0
    | _ => false

/-- The uniform requests that an instruction about to be issued waits for have completed (R335, R340); a re-issued word has its operands
already (R291). -/
def State.settleFor (s : State) (i : Instr) : State :=
  if s.cur.replay.isSome then s else s.settle s.cur.u (waitsFor i)

/-- An instruction is run once what it waits for has completed; one that does not issue changes no row. -/
def runSettled (run : Instr → State → Out State) (i : Instr) (s : State) : Out State :=
  match run i (s.settleFor i) with
  | .next t => if t.cur.done then .next t else run i s
  | r => r

end Sys2Proof.Machine
end

