-- ==== Sys2Proof/Machine/LaneCtl.lean ====
section
/-!
DEFINITION. Accumulator moves, branches and calls, and the per-lane trap and rollback (R138, R260 to R263): L-set 0x6D to 0x73.
-/

namespace Sys2Proof.Machine

/-! ### Branch targets (R11, R50) -/

/-- The target of a branch: the offset after the word, plus the signed word offset (R11). -/
def Cur.target (c : Cur) (n : Nat) (off : BitVec n) : Word := c.next + off.signExtend 32 * 4#32

/-- Whether a target lies outside the overlay that the group executes (R50). -/
def State.badTarget (s : State) (t : Word) : Bool := (s.ovl (s.unit s.cur.u) s.cur.slot).outside t

/-- TPC of a trap at the word: its offset, or TPC as it stood where a queue entry is re-issued (R287, R291). -/
def Cur.tpc (c : Cur) : Word := if c.replay.isSome then c.next else c.pc

/-- A group trap of an L-set word, with TPC at the word. -/
def groupTrap (s0 s : State) (cause : Nat) (taddr : DWord) : Out State :=
  raiseGroup s0 s s.cur.u s.cur.members s.cur.tpc (trapRec cause taddr)

/-- Lanes that trap at issue wait for their older words (R288); then they take `r`, and `f` changes the others. -/
def splitLanes (s0 s : State) (act bad : Word) (tpc : Word) (r : Nat → TrapRec) (f : Nat → Thread → Thread) : Out State :=
  let c := s.cur
  if (s.unit c.u).busy bad then .next s0
  else .next ((s.modLanes c.u (act &&& ~~~bad) f).raiseLanes c.u bad tpc c.replay.toList r)

/-- A call-stack entry of the offset after the word in the current slot (R160). -/
def State.retHere (s : State) : Ret :=
  { off := s.cur.next, slot := s.cur.slot, tag := (s.ovl (s.unit s.cur.u) s.cur.slot).tag }

/-- Pops the call stack and continues there; a slot whose tag has changed since the push is found at the fetch (R163). -/
def Thread.pop (t : Thread) (tag : Nat → Option Nat) : Thread :=
  match t.stack with
  | [] => t
  | r :: rest => { t with stack := rest, pc := r.off, slot := r.slot, stale := !(tag r.slot == r.tag) }

/-- The call-stack depth at which a region opened; 0 outside regions (R240). -/
def Region.depthOf : Region → Nat
  | .none => 0
  | .tryR _ _ depth _ _ => depth
  | .tx _ _ depth _ _ => depth

/-- Whether a pop would go below the depth at which the thread's region opened (R240). -/
def Thread.popsBelow (t : Thread) : Bool := t.inRegion && decide (t.stack.length ≤ t.sp.region.depthOf)

/-! ### Accumulators (R138, R260) -/

/-- The key of an accumulator element. -/
def accKey (n : Bool) (row col : Nat) : Nat := (if n then 24576 else 0) + 192 * row + col

/-- The place of a warp in the quad bound to its core (R136). -/
def State.quadPlace (s : State) (w : Warp) : Option Nat :=
  match (s.core w.coreKey).bind with
  | some (tm, f) => if w.team = tm ∧ f ≤ w.k ∧ w.k < f + 4 then some (w.k - f) else none
  | none => none

/-- Whether no matrix instruction naming an accumulator is issued and not completed on a core (R138). -/
def Core.idle (c : Core) (n : Bool) : Bool := c.mq.all fun o => o.acc != n

/-- DRAIN and ACCW: Tile-State 2 outside the bound quad, the wait for the accumulator, then `f` with the warp's place. -/
def accBody (acc : Bool) (f : State → Nat → Word → Out State) (s0 s : State) (act : Word) : Out State :=
  let w := s.unit s.cur.u
  match s.quadPlace w with
  | none => groupTrap s0 s Config.causeTileState 2#64
  | some q => if (s.core w.coreKey).idle acc then f s q act else .next s0

/-- DRAIN (R260): eight accumulator elements of each lane's row to v(d) to v(d+7). -/
def execDrain (g : BitVec 3) (d : Fin 113) (acc : Bool) (cb : Fin 24) (s : State) : Out State :=
  issueL g true (regSpan d.val 8) []
    (accBody acc (fun s q act =>
      let core := s.core (s.unit s.cur.u).coreKey
      laneBody (fun c _ l t =>
        let t := (List.range 8).foldl
          (fun t e => t.setV (d.val + e) (Tab.get 0#32 core.acc (accKey acc (32 * q + l) (8 * cb.val + e)))) t
        (if c.replay.isSome then t else t.dropLatches, 0#32)) s act) s) s

/-- The data of an ACCW; a re-issued one has D0 to D3 alone (R291, log 18). -/
def accwData (s : State) (w : Warp) (l d e : Nat) : Word :=
  match s.cur.replay with
  | some _ => if e < 4 then opD s.cur w l d e else Config.entryData (8 * s.tick + e)
  | none => opD s.cur w l d e

/-- ACCW (R260): v(d) to v(d+7) to eight accumulator elements, bit for bit. -/
def execAccw (g : BitVec 3) (d : Fin 113) (acc : Bool) (cb : Fin 24) (s : State) : Out State :=
  issueL g true (regSpan d.val 8) []
    (accBody acc (fun s q act =>
      let w := s.unit s.cur.u
      let cells := (lanesOf act).flatMap fun l => (List.range 8).map fun e =>
        (accKey acc (32 * q + l) (8 * cb.val + e), accwData s w l d.val e)
      .next (s.modCore w.coreKey fun c =>
        { c with acc := cells.foldl (fun t p => Tab.set 0#32 t p.1 p.2) c.acc })) s) s

/-! ### Branches and calls (R261) -/

/-- A branch whose target lies outside the overlay: Overlay-Tag in the lanes that take it, with TADDR 0; the others fall through (R50,
R60, R261, log 110). -/
def leaveOverlay (s0 s : State) (act : Word) : Out State :=
  splitLanes s0 s act act s.cur.tpc (fun _ => trapRec Config.causeOverlayTag 0#64) fun _ t => t

/-- BRA (R261). A target outside the overlay traps with TADDR 0, which is the model's choice (log 110). -/
def execBra (g : BitVec 3) (off : BitVec 21) (s : State) : Out State :=
  issueL g true [] []
    (fun s1 act =>
      let tgt := s1.cur.target 21 off
      if s1.badTarget tgt then leaveOverlay s s1 act
      else laneBody (fun _ _ _ t => (({ t with pc := tgt } : Thread).dropLatches, 0#32)) s1 act) s

/-- CALL (R261): a lane whose stack holds 8 entries takes Call-Stack and pushes nothing. -/
def execCall (g : BitVec 3) (off : BitVec 21) (s : State) : Out State :=
  issueL g true [] []
    (fun s1 act =>
      let tgt := s1.cur.target 21 off
      if s1.badTarget tgt then leaveOverlay s s1 act
      else
        let full := (s1.unit s1.cur.u).lanesWhere act fun t => decide (8 ≤ t.stack.length)
        splitLanes s s1 act full s1.cur.tpc (fun _ => trapRec Config.causeCallStack 0#64)
          (fun _ t => ({ t with stack := s1.retHere :: t.stack, pc := tgt } : Thread).dropLatches)) s

/-- RET (R261): an empty stack takes Call-Stack; a pop below the region's depth aborts with CODE 0x06 (R240). -/
def execRet (g : BitVec 3) (s : State) : Out State :=
  issueL g true [] []
    (fun s1 act =>
      let c := s1.cur
      let w := s1.unit c.u
      let below := w.lanesWhere act Thread.popsBelow
      let none := w.lanesWhere (act &&& ~~~below) fun t => t.stack.isEmpty
      splitLanes s (s1.abortLanes c.u below Config.abDisallowed 0) (act &&& ~~~below) none c.tpc
        (fun _ => trapRec Config.causeCallStack 0#64)
        (fun _ t => (t.pop fun k => (s1.ovl w k).tag).dropLatches)) s

/-! ### The per-lane trap and rollback -/

/-- TRAPL (R262): Software with TADDR the operand and TPC after the word; an empty queue. -/
def execTrapl (g : BitVec 3) (a : Src) (s : State) : Out State :=
  issueL g true (srcRegs a) (srcLatches a)
    (fun s1 act =>
      let c := s1.cur
      let w := s1.unit c.u
      if w.busy act then .next s
      else .next (s1.raiseLanes c.u act c.next [] fun l =>
        trapRec Config.causeSoftware ((opA c w l a).setWidth 64))) s

/-- ROLLB (R204, R263): lanes in a TRY region abort with CODE 0x01 and XCODE from the operand; other lanes are unchanged. -/
def execRollb (g : BitVec 3) (a : Src) (s : State) : Out State :=
  issueL g true (srcRegs a) (srcLatches a)
    (fun s1 act =>
      let c := s1.cur
      let w := s1.unit c.u
      .next (s1.abortLanesBy c.u (w.lanesWhere act Thread.inTry) Config.abExplicit fun l =>
        (opA c w l a).toNat % 256)) s

end Sys2Proof.Machine
end

