-- ==== Sys2Proof/Machine/System.lean ====
section
/-!
DEFINITION. Control and system words (R13, R34, R35, R144, R159 to R175): G-set 0x1E to 0x2F, 0x5F and 0x6A.
-/

namespace Sys2Proof.Machine

/-! ### Branches, calls and loops (R13, R159, R160) -/

/-- A branch of every member (R29 (b)). -/
def jumpTo (s : State) (t : Word) : State :=
  s.modLanes s.cur.u s.cur.members fun _ x => ({ x with pc := t } : Thread).dropLatches

/-- JMP (R159). -/
def execJmp (q : BitVec 3) (off : BitVec 21) (s : State) : Out State :=
  issueG q true .both .acts .acts false
    (fun s =>
      let t := s.cur.target 21 off
      if s.badTarget t then trapWord s Config.causeOverlayTag 0#64 else .done (jumpTo s t)) s

/-- LOOP (R13): sd := sd − 1, and a branch while it is not zero. -/
def execLoop (q : BitVec 3) (d : Fin 64) (off : BitVec 15) (s : State) : Out State :=
  issueG q true .both .acts .acts false
    (fun s =>
      let u := s.cur.u
      let x := (s.unit u).u.getS d.val - 1#32
      let t := s.cur.target 15 off
      if x = 0#32 then .done (s.modUni u fun y => y.setS d.val x)
      else if s.badTarget t then trapWord s Config.causeOverlayTag 0#64
      else .done (jumpTo (s.modUni u fun y => y.setS d.val x) t)) s

/-- SCALL (R160): a full stack in any member is Call-Stack for the group; the latches stay. -/
def execScall (q : BitVec 3) (off : BitVec 21) (s : State) : Out State :=
  issueG q true .both .acts .acts false
    (fun s =>
      let c := s.cur
      let w := s.unit c.u
      let t := c.target 21 off
      if s.badTarget t then trapWord s Config.causeOverlayTag 0#64
      else if w.lanesWhere c.members (fun x => decide (8 ≤ x.stack.length)) ≠ 0#32 then
        trapWord s Config.causeCallStack 0#64
      else .done (s.modLanes c.u c.members fun _ x => { x with stack := s.retHere :: x.stack, pc := t })) s

/-- SRET (R160, R240): members that would pop below their region's depth abort with CODE 0x06; an empty stack in another
member is Call-Stack for the group; the latches stay. A member whose region's depth is 0 and whose stack is empty would do both: its region
ends, and the group takes no trap for it. DESIGN CHOICE, log 126. -/
def execSret (q : BitVec 3) (s : State) : Out State :=
  issueG q true .both .acts .acts false
    (fun s =>
      let c := s.cur
      let w := s.unit c.u
      let below := w.lanesWhere c.members Thread.popsBelow
      let rest := c.members &&& ~~~below
      if w.lanesWhere rest (fun x => x.stack.isEmpty) ≠ 0#32 then trapWord s Config.causeCallStack 0#64
      else
        .done ((s.abortLanes c.u below Config.abDisallowed 0).modLanes c.u rest fun _ x => x.pop fun k => (s.ovl w k).tag)) s

/-! ### Overlays (R161 to R163) -/

/-- What an image that cannot be loaded comes to. -/
def imageFail (s : State) (va : DWord) : ImgErr → GRes
  | .trap cause => trapWord s cause va
  | .fire pa => frozenAt s va false pa
  | .wait => .wait

/-- The members move to an offset of a slot, which becomes their slot. -/
def jumpSlot (s : State) (off : Word) (slot : Nat) : State :=
  s.modLanes s.cur.u s.cur.members fun _ x => ({ x with pc := off, slot, stale := false } : Thread).dropLatches

/-- JOVL (R163): on a SIMT warp to a slot that holds the image; on a Reckoner the image is loaded first where the tag
differs. -/
def execJovl (q : BitVec 3) (bp : Fin 8) (b : Fin 64) (s : State) : Out State :=
  issueG q true .both (.ends Config.abDisallowed) (.ends Config.abDisallowed) false
    (fun s =>
      let c := s.cur
      let w := s.unit c.u
      let va := w.u.getPair bp.val
      let off := w.u.getS b.val
      if w.reck then
        if (s.ovl w 0).tag = some va.toNat then .done (jumpSlot s off 0)
        else match s.loadImage w.part (s.asid w) w.slice va.toNat with
          | (s, .error e) => imageFail s va e
          | (s, .ok code) =>
            .done (jumpSlot (s.setRovl (16 * w.slice + w.core / 4) { tag := some va.toNat, code }) off 0)
      else
        let go := fun (k : Nat) =>
          if (s.ovl w k).outside off then trapWord s Config.causeOverlayTag va else .done (jumpSlot s off k)
        if (s.ovl w 0).tag = some va.toNat then go 0
        else if (s.ovl w 1).tag = some va.toNat then go 1
        else trapWord s Config.causeOverlayTag va) s

/-- OVLOAD (R162): SNOP where a slot holds the image; else the checks, and the warp waits for the copy. -/
def execOvload (q : BitVec 3) (bp : Fin 8) (slot : Bool) (s : State) : Out State :=
  issueG q (!((s.unit s.cur.u).reck && slot)) .both (.ends Config.abDisallowed) (.ends Config.abDisallowed) false
    (fun s =>
      let c := s.cur
      let w := s.unit c.u
      let va := w.u.getPair bp.val
      if w.reck then .done s
      else if (s.ovl w 0).tag = some va.toNat ∨ (s.ovl w 1).tag = some va.toNat then .done s
      else match s.loadImage w.part (s.asid w) w.slice va.toNat with
        | (s, .error e) => imageFail s va e
        | (s, .ok _) =>
          let s := s.advance c.u c.members c.pc
          .done (s.modUnit c.u fun w =>
            { w with ovw := some { va, slot := if slot then 1 else 0, copying := false, members := c.members } })) s

/-! ### Yielding and ending (R164, R165) -/

/-- YIELD (R164). -/
def execYield (q : BitVec 3) (s : State) : Out State :=
  issueG q true .both (.ends Config.abDisallowed) (.ends Config.abDisallowed) true
    (fun s => atYield s (.done (s.yieldBy s.cur.u s.cur.members))) s

/-- SLEEP (R164): until CLK reaches its value at issue plus s[sa]; 0 acts as YIELD. -/
def execSleep (q : BitVec 3) (a : Fin 64) (s : State) : Out State :=
  issueG q true .both (.ends Config.abDisallowed) (.ends Config.abDisallowed) true
    (fun s =>
      let c := s.cur
      let w := s.unit c.u
      let n := w.u.getS a.val
      atYield s
        (if n = 0#32 then .done (s.yieldBy c.u c.members)
         else .done (s.blockAt (.sleep (s.clk w + n.setWidth 64) c.members)))) s

/-- EXIT (R165): every member ends; with the last thread the warp or Reckoner ends. A thread that exits counts as arrived
at the barrier, whose completion is ordered after its accesses (R275). -/
def execExit (q : BitVec 3) (s : State) : Out State :=
  issueG q true .both (.ends Config.abDisallowed) (.ends Config.abDisallowed) true
    (fun s =>
      let c := s.cur
      let w := s.unit c.u
      let s := if w.reck then s else s.arrive c.u
      let s := (s.modLanes c.u c.members fun _ t => { t with status := .exited, wait := .none }).yieldBy c.u c.members
      let s := s.unitEnd c.u 2
      .done (if w.reck then s else s.barrierCheck w.team)) s

/-! ### Traps from the program (R166 to R168) -/

/-- TRAP (R166): Software in every member, TPC at the next word. -/
def execTrap (q : BitVec 3) (a : Fin 64) (s : State) : Out State :=
  issueG q true .both (.ends Config.abFault) (.ends Config.abFault) false
    (fun s =>
      .trap s s.cur.next (trapRec Config.causeSoftware (((s.unit s.cur.u).u.getS a.val).setWidth 64))) s

/-- A Breakpoint that a debugger receives first (R293): the frame is written, the thread halts with the trap pending. -/
def State.holdBreak (s : State) (u l : Nat) (tpc : Word) : State :=
  let w := s.unit u
  s.modLanes u (laneBit l) fun _ t =>
    { t.enterTrap w.u.tvec tpc t.replay (trapRec Config.causeBreakpoint 0#64) (s.dead l) (fun k => (s.ovl w k).tag) with
      pend := some (t.trapMode, t.mask) }

/-- SBRK (R166, R293): Breakpoint in every member, TPC at the next word; an attached debugger receives it first. -/
def execSbrk (q : BitVec 3) (s : State) : Out State :=
  issueG q true .both (.ends Config.abFault) (.ends Config.abFault) false
    (fun s =>
      let c := s.cur
      let w := s.unit c.u
      if !((s.grid w.grid).debug) then .trap s c.next (trapRec Config.causeBreakpoint 0#64)
      else if w.busy c.members then .wait
      else .done ((lanesOf c.members).foldl (fun s l => s.holdBreak c.u l c.next) s)) s

/-- TMASK (R167). -/
def execTmask (q : BitVec 3) (m : Bool) (s : State) : Out State :=
  issueG q true .both .acts .acts false
    (fun s => .done (s.modLanes s.cur.u s.cur.members fun _ t => { t with mask := m })) s

/-- Whether a thread's queue can be re-issued: it would not bring the thread above 8 words issued and not finished (R288, log
117). -/
def Thread.retReady (t : Thread) : Bool := decide (t.flights.length + t.replayQueue.length ≤ 8)

/-- Threads that return from the trap of a faulted SEALU no longer void its context (R191). -/
def Warp.sealBack (w : Warp) (m : Word) : Warp := { w with sealCtx := w.sealCtx.map fun k => { k with bad := k.bad &&& ~~~m } }

/-- TRET (R168, R291): members in trap mode return; the others are unaffected. -/
def execTret (q : BitVec 3) (s : State) : Out State :=
  issueG q true .both .acts .acts false
    (fun s =>
      let c := s.cur
      let w := s.unit c.u
      let ret := w.lanesWhere c.members fun t => t.trapMode
      if w.lanesWhere ret (fun t => !t.retReady) ≠ 0#32 then .wait
      else .done ((s.modLanes c.u ret fun _ t => t.tret w.reck fun k => (s.ovl w k).tag).modUnit c.u fun w => w.sealBack ret)) s

/-! ### User interrupts (R169 to R171) -/

/-- The unit that UINT's target word names (R169); one whose team has been saved is on no core. -/
def State.uintTarget (s : State) (w : Warp) (x : Word) : Option Nat :=
  let team := fun (core k : Nat) =>
    s.findUnit fun v =>
      v.live && !v.reck && !(v.wd == .saved) && v.grid == w.grid && v.slice == w.slice && v.core == core && v.k == k &&
      (w.reck || v.team == w.team)
  let k := x.toNat % 32
  if x.getLsbD 31 then
    if w.reck || !(x.setWidth 31 == 0#31) then none
    else s.findUnit fun v => v.live && v.reck && !(v.wd == .saved) && v.grid == w.grid && v.slice == w.slice && v.core / 4 == w.core / 4
  else if w.reck then
    if 128 ≤ x.toNat then none else team (w.core + x.toNat / 32 % 4) k
  else if 32 ≤ x.toNat then none else team w.core k

/-- A user interrupt accepted by a unit (R169, R249, R248): its release, and the end of the target's regions, at once or
when the serial token is released. -/
def State.acceptUint (s : State) (u t : Nat) (payload sender : Word) : State :=
  let (o, v) := s.order.endRegion (.unit u)
  let ser := s.holdsToken t
  let s := ({ s with order := o } : State).modUni t fun x => { x with uint := some { payload, sender, vc := v, due := ser } }
  if ser then s else s.abortLanes t allLanes Config.abPreempted 0

/-- UINT (R169): q0 says whether the interrupt is accepted; its release comes after the unit's older accesses (R230). -/
def execUint (q : BitVec 3) (a b : Fin 64) (s : State) : Out State :=
  issueG q true .both (.ends Config.abDisallowed) (.ends Config.abDisallowed) false
    (fun s =>
      let u := s.cur.u
      let w := s.unit u
      match s.uintTarget w (w.u.getS a.val) with
      | none => .done (s.modUni u fun x => x.setQ 0 false)
      | some t =>
        if (s.unit t).u.uint.isSome then .done (s.modUni u fun x => x.setQ 0 false)
        else if w.busy allLanes then .wait
        else
          let s := s.acceptUint u t (w.u.getS b.val) (if w.reck then 0xFFFFFFFF#32 else BitVec.ofNat 32 w.k)
          .done (s.modUni u fun x => x.setQ 0 true)) s

/-- UIRET (R171): s62 and s63 come back, and the members return; SNOP outside a handler. -/
def execUiret (q : BitVec 3) (s : State) : Out State :=
  issueG q true .both .acts .acts false
    (fun s =>
      let c := s.cur
      match (s.unit c.u).u.uframe with
      | none => .done s
      | some f =>
        let s := s.modUni c.u fun x => { (x.setS 62 f.s62).setS 63 f.s63 with uframe := none }
        .done (jumpSlot s f.off f.slot)) s

/-! ### System calls and child grids (R172, R173) -/

/-- SYSC (R172): the unit waits for the kernel's reply; the request is a release at partition scope, after the unit's older
accesses. -/
def execSysc (q : BitVec 3) (d a b : Fin 64) (s : State) : Out State :=
  issueG q true .both (.ends Config.abDisallowed) (.ends Config.abDisallowed) true
    (fun s =>
      let c := s.cur
      let u := (s.unit c.u).u
      let (o, v) := s.order.endRegion (.unit c.u)
      if (s.unit c.u).busy allLanes then .wait
      else .done (({ s.advance c.u c.members c.pc with order := o } : State).modUnit c.u fun w =>
        { w with sysc := some { dest := d.val, num := u.getS a.val, arg := u.getS b.val, members := c.members, vc := v } })) s

/-- Thread 0 of the team is a member (R39, R173). -/
def State.leader (s : State) : Bool := (s.unit s.cur.u).k == 0 && s.cur.members.getLsbD 0

/-- The copy of a launch record, and the child it queues (R173). -/
def launchChild (s : State) (w : Warp) (va : DWord) : GRes :=
  let u := s.cur.u
  let g := s.grid w.grid
  if 256 ≤ (s.slice w.slice).childQ.length then .wait
  else match s.uniReach va 128 false [] with
    | .stop r => r
    | .go s a _ =>
      match s.perfLoad a none with
      | (s, .error e) => .trap s s.cur.pc (badRec s e va)
      | (s, .ok bs) =>
        let (o, v) := s.order.endRegion (.unit u)
        let child : Child := { recb := bs, depth := g.depth + 1, prio := Nat.min (fieldAt bs 0x21 1) g.prio, parent := w.grid, vc := v }
        let s := ({ s with order := o } : State).modSlice w.slice fun y => { y with childQ := y.childQ ++ [child] }
        .done (s.modUni u fun x => x.setQ 0 true)

/-- LAUNCH (R39, R173): q0 is written in every case but a trap. -/
def execLaunch (q : BitVec 3) (bp : Fin 8) (s : State) : Out State :=
  issueG q true .simtOnly (.ends Config.abDisallowed) (.ends Config.abDisallowed) true
    (fun s =>
      let u := s.cur.u
      let w := s.unit u
      let va := w.u.getPair bp.val
      let no := fun (s : State) => GRes.done (s.modUni u fun x => x.setQ 0 false)
      if !s.leader then no s
      else if w.busy allLanes then .wait
      else if va.toNat % 128 ≠ 0 then trapWord s Config.causeMisaligned va
      else if s.walkWaits w.part (s.asid w) w.slice va then .wait
      else match s.translate w.part (s.asid w) w.slice va with
        | (s, .error cause) => trapWord s cause va
        | (s, .ok x) =>
          if (s.grid w.grid).depth = 10 then (if q = 7#3 then trapWord s Config.causeDepth 0#64 else no s)
          else if x.out then frozenAt s va false x.pa
          else if !x.p then no s
          else launchChild s w va) s

/-! ### Register quota (R33 to R35, R174, R244) -/

/-- Registers at or above a bound are lost, and so is what a load still in flight would bring to them; they read as zero if the
quota grows again (R34). -/
def Warp.dropRegs (w : Warp) (n : Nat) : Warp :=
  w.mapLanes allLanes fun _ t =>
    { t with v := t.v.filter (fun p => decide (p.1 < n)), flights := t.flights.map fun f => { f with cap := Nat.min f.cap n } }

/-- A request for quota `n` that finds no earlier one in its way: granted, with the new quota, or none where it must block
(R34, R35). -/
def State.tryQuota (s : State) (u n : Nat) : Option State :=
  let w := s.unit u
  let t := s.team w.team
  if n ≤ w.quota then
    let s := s.modUnit u fun w => { (w.dropRegs n) with quota := n, u := w.u.setQ 0 true }
    some (s.modTeam w.team fun t => { t with pool := t.pool + (w.quota - n) })
  else if t.grows.all (fun g => g.waiting) && decide (n - w.quota ≤ t.pool) then
    let s := s.modUnit u fun w => { w with quota := n, u := w.u.setQ 0 true }
    some (s.modTeam w.team fun t => { t with pool := t.pool - (n - w.quota) })
  else none

/-- Whether a REGQ of a warp must wait before it acts: a held area (R244), or a pending grow of the warp (R35). -/
def State.regqHeld (s : State) (u : Nat) : Bool :=
  let w := s.unit u
  (lanesOf allLanes).any (fun l => (w.lane l).inTry) || (s.team w.team).grows.any fun g => g.u == u

/-- REGQ (R34, R35, R174). -/
def execRegq (q : BitVec 3) (a : Fin 64) (s : State) : Out State :=
  issueG q true .simtOnly (.ends Config.abDisallowed) (.ends Config.abDisallowed) true
    (fun s =>
      let c := s.cur
      let w := s.unit c.u
      let x := w.u.getS a.val
      let n := x.toNat
      let block := fun (waiting : Bool) =>
        let s := s.modLanes c.u c.members fun _ t => { t.dropLatches with wait := .grow n c.members, pc := c.pc }
        GRes.done (s.modTeam w.team fun t => { t with grows := t.grows ++ [{ u := c.u, members := c.members, n, waiting }] })
      if n % 8 ≠ 0 ∨ n < 16 ∨ 120 < n then trapWord s Config.causeQuota (x.setWidth 64)
      else if s.regqHeld c.u then block true
      else match s.tryQuota c.u n with
        | some s => .done s
        | none => block false) s

/-- The threads blocked in a grow become runnable. -/
def State.growWake (s : State) (g : Grow) : State :=
  s.modLanes g.u g.members fun _ t => match t.wait with
    | .grow _ _ => t.wake
    | .none | .counter _ _ _ _ _ | .barrier _ | .sleep _ _ | .tile _ => t

/-- The first grow in the team's order that is pending. -/
def Team.firstGrow (t : Team) : Option Grow := t.grows.find? fun g => !g.waiting

/-- Whether a unit's waits can end now: nothing holds it still (R293, R295, R299, R306). -/
def State.wakeable (s : State) (u : Nat) : Bool :=
  let w := s.unit u
  w.live && !w.halted && w.frozen.isNone && !(w.wd == .saved) && !((s.part w.part).stalled)

/-- Whether a request that waits behind its warp may be evaluated: no pending grow of the warp, and no held area (R35, R244). -/
def State.growFree (s : State) (t : Team) (g : Grow) : Bool :=
  g.waiting && s.wakeable g.u && !(t.grows.any fun x => x.u == g.u && !x.waiting) &&
  !((lanesOf allLanes).any fun l => ((s.unit g.u).lane l).inTry)

/-- A request that no longer waits behind its warp is evaluated as a new one at the end of the order. -/
def State.growLate (s : State) (tm : Nat) : Option State :=
  let t := s.team tm
  (t.grows.find? fun g => s.growFree t g).map fun g =>
    let s := s.modTeam tm fun t => { t with grows := t.grows.erase g }
    match s.tryQuota g.u g.n with
    | some s => s.growWake g
    | none => s.modTeam tm fun t => { t with grows := t.grows ++ [{ g with waiting := false }] }

/-- The team's next grant (R35): the first pending grow, if it fits and nothing holds its warp still (R293, R298); else the first request
that no longer waits behind its warp. -/
def State.growStep (s : State) (tm : Nat) : Option State :=
  let t := s.team tm
  match t.firstGrow with
  | none => s.growLate tm
  | some g =>
    let need := g.n - (s.unit g.u).quota
    if need ≤ t.pool && s.wakeable g.u then
      let s := s.modTeam tm fun t => { t with grows := t.grows.erase g, pool := t.pool - need }
      let s := s.modUnit g.u fun w => { w with quota := Nat.max g.n w.quota, u := w.u.setQ 0 true }
      some (s.growWake g)
    else s.growLate tm

/-- All the grants that a team can make now. -/
def State.growAll (s : State) (tm : Nat) : Nat → State
  | 0 => s
  | n + 1 => match s.growStep tm with
    | some s => s.growAll tm n
    | none => s

/-- The free registers of a team's pool after the returns and grants of the current cycle (R174). -/
def State.poolNow (s : State) (tm : Nat) : Nat := ((s.growAll tm (2 * (s.team tm).grows.length)).team tm).pool

/-- REGPOOL (R174). -/
def execRegpool (q : BitVec 3) (d : Fin 64) (s : State) : Out State :=
  issueG q true .simtOnly .acts .acts false
    (fun s => .done (s.modUni s.cur.u fun x => x.setS d.val (BitVec.ofNat 32 (s.poolNow (s.unit s.cur.u).team)))) s

/-! ### Hints (R175) -/

/-- HINT (R175): nothing that a program can see. -/
def execHint (q : BitVec 3) (_k : BitVec 3) (_bp : Fin 8) (_b : Fin 64) (s : State) : Out State :=
  issueUni q (fun _ _ u => u) s

end Sys2Proof.Machine
end

