-- ==== Sys2Proof/Machine/Issue.lean ====
section
/-!
DEFINITION. Issue (R23 to R27, R37, R41, R48, R59, R291, R321): which threads are runnable, the group a unit forms, the word
it fetches, the attempt to issue it, and what an issue slot keeps of its warps. `run` stands for `exec`.
-/

namespace Sys2Proof.Machine

/-! ### Words that do not decode -/

/-- On which units an opcode of the G-set raises Wrong-Set (R56). -/
def opWhere (op : Nat) : Where :=
  if [0x1A, 0x1B, 0x2D, 0x2E, 0x2F, 0x41, 0x44, 0x45, 0x46, 0x47, 0x48, 0x67, 0x68, 0x69].contains op then .simtOnly
  else if 0x57 ≤ op ∧ op ≤ 0x5E then .reckOnly
  else .both

/-- RESERVED_OPCODE_WORD (R59): a word with a reserved opcode, or an assigned one with a field that R59 does not allow, does
nothing where it does not act, and else raises Wrong-Set (R37, R56) or Reserved-Instruction. -/
def execReservedOpcodeWord (gset : Bool) (op : BitVec 7) (g : BitVec 3) (_rest : BitVec 21) (s : State) : Out State :=
  if gset then issueG g false (opWhere op.toNat) .acts .acts false GRes.done s
  else issueL g false [] [] (fun s _ => .next s) s

/-- An instruction whose literal words lie past the end of the overlay (R48): Literal where it acts, else nothing. -/
def literalMissing (w : Word) (s : State) : Out State :=
  let c := s.cur
  let v := s.unit c.u
  let g : BitVec 3 := (w >>> 21).setWidth 3
  let acts := if w.getLsbD 31 then qguard v.u g
    else if v.reck then g == 7#3 else v.lanesWhere c.members (fun t => lguard t g) != 0#32
  let s1 := s.issued.setUnit c.u (v.joinGroup c.members)
  if acts then raiseGroup s s1 c.u c.members c.pc (trapRec Config.causeLiteral 0#64)
  else .next (s1.advance c.u c.members c.next)

/-- FETCH_OUTSIDE_OVERLAY (R41, R163): Overlay-Tag at the fetch in the threads that would issue the word: their offset is
outside the overlay, or a return found another tag in its slot. -/
def execFetchOutsideOverlay (s : State) : Out State :=
  let c := s.cur
  if !c.active then .fault .noIssueGroup
  else
    let w := s.unit c.u
    let t := w.lane ((lanesOf c.members).headD 0)
    if t.stale || (s.ovl w c.slot).outside c.pc then
      raiseGroup s s.issued c.u c.members c.pc (trapRec Config.causeOverlayTag 0#64)
    else .fault .notPossible

/-! ### Issue groups (R23) -/

/-- Whether a thread is runnable, as far as it goes itself (R23, R291, R293). -/
def Thread.runnable (t : Thread) : Bool :=
  t.status == .live && t.wait == .none && t.replay.isEmpty && t.pend.isNone

/-- Whether a warp goes on issuing while it is being withdrawn (R294, R297, R248): one of its lanes holds the serial token, or
a thread that has begun its handler is in trap mode with its mask 1 and the grace window has not ended. -/
def State.lingers (s : State) (u : Nat) : Bool :=
  let w := s.unit u
  s.holdsToken u ||
  (w.wd == .preparing && (lanesOf w.liveMask).any fun l => (w.lane l).trapMode && (w.lane l).mask && !((w.lane l).atEntry))

/-- Whether a unit may issue at all (R162, R172, R293, R294, R299, R306). -/
def State.mayIssue (s : State) (u : Nat) : Bool :=
  let w := s.unit u
  w.live && !w.halted && w.frozen.isNone && w.sysc.isNone && w.ovw.isNone && !((s.part w.part).stalled) &&
  (w.wd == .no || (!(w.wd == .saved) && s.lingers u))

/-- The issue group of a unit (R23): of its runnable threads, those in trap mode if there are any, the ones at the smallest
PC. Threads at one offset in different slots form separate groups, the lowest lane's first (log 27), and so do a thread that a return
brought into a re-tagged slot and one that came another way (log 109). -/
def State.groupOf (s : State) (u : Nat) : Word :=
  let w := s.unit u
  if !(s.mayIssue u) then 0#32
  else
    let run := w.lanesWhere allLanes Thread.runnable
    let trapped := w.lanesWhere run fun t => t.trapMode
    let m := if trapped = 0#32 then run else trapped
    let pc := (lanesOf m).foldl (fun (p : Nat) l => Nat.min p (w.lane l).pc.toNat) (2 ^ 32)
    let m := w.lanesWhere m fun t => t.pc.toNat == pc
    match (lanesOf m).head? with
    | none => 0#32
    | some l => w.lanesWhere m fun t => t.slot == (w.lane l).slot && t.stale == (w.lane l).stale

/-- The words from an offset of an overlay on, as many as an instruction can have (R47). -/
def Ovl.wordsAt (o : Ovl) (off : Word) : List Word := (o.code.drop (off.toNat / 4)).take 3

/-- The group of a unit, about to issue the word at its PC. -/
def State.atWord (s : State) (u : Nat) (m : Word) (len : Nat) : State :=
  let t := (s.unit u).lane ((lanesOf m).headD 0)
  { s with cur := { active := true, u, members := m, pc := t.pc, slot := t.slot, len, replay := none, tick := s.tick, done := false } }

/-- Runs the instruction that a list of words begins with (R41, R47, R48, R59). -/
def runWords (run : Instr → State → Out State) (ws : List Word) (s : State) : Out State :=
  match decode ws with
  | .ok i => run i s
  | .error .noWord => run .fetchOutsideOverlay s
  | .error .literalMissing => literalMissing (ws.headD 0#32) s
  | .error .illegalField =>
    let w := ws.headD 0#32
    run (.reservedOpcodeWord (w.getLsbD 31) ((w >>> 24).setWidth 7) ((w >>> 21).setWidth 3) (w.setWidth 21)) s

/-- A unit's group fetches its word and tries to issue it (R23, R41, R163). -/
def attempt (run : Instr → State → Out State) (s : State) (u : Nat) : Out State :=
  let m := s.groupOf u
  if m = 0#32 then .next s
  else
    let w := s.unit u
    let t := w.lane ((lanesOf m).headD 0)
    let o := s.ovl w t.slot
    if t.stale || o.outside t.pc then run .fetchOutsideOverlay (s.atWord u m 1)
    else
      let ws := o.wordsAt t.pc
      runWords (runSettled run) ws (s.atWord u m (wordLen (ws.headD 0#32)))

/-- Nothing is being issued any more. -/
def State.clearCur (s : State) : State := { s with cur := Cur.init }

/-- Whether a unit is ready: its group has a word that issues now. -/
def ready (run : Instr → State → Out State) (s : State) (u : Nat) : Bool :=
  match attempt run s u with
  | .next s' => s'.cur.done
  | .fault _ | .refused _ => false

/-! ### Issue slots (R25, R27, R321) -/

/-- The warps bound to a slot (R21), in ascending order of core-wide warp number. -/
def State.boundTo (s : State) (sl core slot : Nat) : List Nat :=
  let us := (s.units.filter fun p => p.2.live && !p.2.reck && !(p.2.wd == .saved) && p.2.slice == sl && p.2.core == core && p.2.k % 4 == slot)
  (List.range 64).filterMap fun n => (us.find? fun p => p.2.cw == n).map (·.1)

/-- The warps of a slot in the order in which it would take them (R25): by effective priority; within a level the current
warp first unless it has yielded, then the others from the one after the warp that last was current, which the current warp
itself is wherever another is taken; the yielder last. -/
def State.slotOrder (s : State) (sl core slot : Nat) : List Nat :=
  let c := s.core (64 * sl + core)
  let us := s.boundTo sl core slot
  let cur := Tab.find? c.cur slot
  let left := match cur with
    | some u => (s.unit u).cw
    | none => (Tab.find? c.left slot).getD 63
  let turned := (us.filter fun u => decide (left < (s.unit u).cw)) ++ us.filter fun u => decide ((s.unit u).cw ≤ left)
  let isCur := fun (u : Nat) => cur == some u
  let first := turned.filter fun u => isCur u && !((s.unit u).sched.yielded)
  let last := turned.filter fun u => isCur u && (s.unit u).sched.yielded
  let row := first ++ (turned.filter fun u => !(isCur u)) ++ last
  (List.range 48).reverse.flatMap fun p => row.filter fun u => (s.unit u).sched.eff == p

/-- The current warp of a slot leaves it (R25): its hold count is cleared (R27). -/
def State.leaveSlot (s : State) (key slot : Nat) : State :=
  match Tab.find? (s.core key).cur slot with
  | none => s
  | some u =>
    let cw := (s.unit u).cw
    (s.modUnit u fun w => { w with sched := { w.sched with hold := 0 } }).modCore key fun c =>
      { c with cur := Tab.del c.cur slot, left := Tab.put c.left slot cw }

/-- What a slot keeps once it has issued from a unit (R25, R27, R321): the unit is current, or where its issue ended it the
last to have been; its age count clears, its hold count grows if another warp of equal effective priority was ready, and the
other ready warps age. A yield or a trap at this issue has cleared the hold count, which then stays 0. -/
def State.slotIssued (s : State) (key slot u : Nat) (others : List Nat) : State :=
  let s := if Tab.find? (s.core key).cur slot == some u then s else s.leaveSlot key slot
  let s := s.modCore key fun c =>
    if (s.unit u).live then { c with cur := Tab.put c.cur slot u }
    else { c with cur := Tab.del c.cur slot, left := Tab.put c.left slot (s.unit u).cw }
  let eff := (s.unit u).sched.eff
  let held := others.any fun o => decide (eff ≤ (s.unit o).sched.eff)
  let s := s.modUnit u fun w => { w with sched := { w.sched with
    age := 0, trapped := false,
    hold := if w.sched.yielded || w.sched.trapped then 0 else if held then w.sched.hold + 1 else w.sched.hold } }
  others.foldl (fun s o => s.modUnit o fun w =>
    { w with sched := { w.sched with age := if w.sched.base ≤ 39 then w.sched.age + 1 else w.sched.age } }) s

/-- A unit issues as the current warp: it has neither yielded nor trapped since. -/
def State.startIssue (s : State) (u : Nat) : State :=
  s.modUnit u fun w => { w with sched := { w.sched with yielded := false, trapped := false } }

/-- The hold count at which a slot raises Watchdog (R27). -/
def holdLimit : Nat := 4194304

/-- The age count at which a warp's effective priority rises (R321). -/
def ageLimit : Nat := 65536

/-- The Watchdog of a group (R27, R249): every region of the warp ends with CODE 0x07, and the members take the trap, with TPC their PC,
which in a lane that was in a region is its abort target. -/
def State.watchdogTrap (s : State) (u : Nat) (m : Word) : State :=
  let s := s.abortLanes u allLanes Config.abPreempted 0
  (lanesOf m).foldl (fun s l => s.takeTrap u l ((s.unit u).lane l).pc [] (trapRec Config.causeWatchdog 0#64)) s

/-- WATCHDOG (R27): the group that the current warp of a slot would issue next takes Watchdog; like every trap at issue it waits for the
older words of its members (R288). -/
def execWatchdog (sl core slot : Nat) (s : State) : Out State :=
  match Tab.find? (s.core (64 * sl + core)).cur slot with
  | none => .fault .notPossible
  | some u =>
    let m := s.groupOf u
    if (s.unit u).sched.hold < holdLimit ∨ m = 0#32 ∨ (s.unit u).busy m = true then .fault .notPossible
    else .next (s.watchdogTrap u m)

/-- WARP_AGING (R321): the count has reached its limit; the effective priority rises by one, up to the lower of base + 8 and
39, and the count clears. -/
def execWarpAging (u : Nat) (s : State) : Out State :=
  let w := s.unit u
  if !w.live || decide (w.sched.age < ageLimit) then .fault .notPossible
  else .next (s.modUnit u fun w => { w with sched := { w.sched with
    age := 0, eff := Nat.min (w.sched.eff + 1) (Nat.min (w.sched.base + 8) 39) } })

/-- What a slot's cycle comes to: no warp is ready, this unit has issued, or the current warp waits to take Watchdog. -/
inductive SlotTook where
  | idle
  | issued (u : Nat)
  | waits
deriving DecidableEq, Repr

/-- Tries the warps of a slot in order: a warp that is not ready leaves what its attempt queued, and the first that is ready
issues. Where that is the current warp at the hold limit, its group takes Watchdog instead, or waits for the older words of its members
and keeps the slot (R27, R288). -/
def trySlot (run : Instr → State → Out State) (key slot : Nat) (s : State) : List Nat → Out (State × SlotTook)
  | [] => .next (s, .idle)
  | u :: r =>
    match attempt run (s.startIssue u) u with
    | .fault e => .fault e
    | .refused e => .refused e
    | .next s' =>
      if s'.cur.done then
        if holdLimit ≤ (s.unit u).sched.hold && Tab.find? (s.core key).cur slot == some u then
          match execWatchdog (key / 64) (key % 64) slot s with
          | .next s' => .next (s', .issued u)
          | .fault _ | .refused _ => .next (s, .waits)
        else .next (s'.clearCur, .issued u)
      else trySlot run key slot ((s'.clearCur).modUnit u fun w =>
        { w with sched := { w.sched with yielded := (s.unit u).sched.yielded, trapped := (s.unit u).sched.trapped } }) r

/-- One cycle of an issue slot (R25). -/
def issueSlot (run : Instr → State → Out State) (sl core slot : Nat) (s : State) : Out State :=
  let key := 64 * sl + core
  let order := s.slotOrder sl core slot
  match trySlot run key slot s order with
  | .fault e => .fault e
  | .refused e => .refused e
  | .next (s', .idle) => .next (s'.leaveSlot key slot)
  | .next (s', .waits) => .next s'
  | .next (s', .issued u) => .next (s'.slotIssued key slot u ((order.filter fun o => o != u).filter fun o => ready run s o))

/-! ### Reckoners (R37, R170) and replay queues (R291) -/

/-- The Reckoner thread of a cluster, if there is one. -/
def State.reckOf (s : State) (sl cluster : Nat) : Option Nat :=
  s.findUnit fun w => w.live && w.reck && !(w.wd == .saved) && w.slice == sl && w.core / 4 == cluster

/-- Whether a Reckoner may take its pending interrupt now (R170, R298). -/
def State.reckUint (s : State) (u : Nat) : Bool :=
  let w := s.unit u
  w.live && w.reck && w.uintReady && !w.halted && w.frozen.isNone && w.sysc.isNone && w.wd == .no && !((s.part w.part).stalled)

/-- A Reckoner's turn: it takes a pending interrupt at the boundary (R170), or issues. -/
def issueReck (run : Instr → State → Out State) (sl cluster : Nat) (s : State) : Out State :=
  match s.reckOf sl cluster with
  | none => .next s
  | some u =>
    if s.reckUint u then
      let t := (s.unit u).lane 0
      .next (s.deliverUint u 1#32 t.pc t.slot)
    else
      match attempt run s u with
      | .next s' => .next s'.clearCur
      | .fault e => .fault e
      | .refused e => .refused e

/-- The next entry of a thread's replay queue is re-issued (R291); TPC stands for the offset of a trap it raises. -/
def issueReplay (run : Instr → State → Out State) (u l : Nat) (s : State) : Out State :=
  let t := (s.unit u).lane l
  match t.replay with
  | [] => .fault .notPossible
  | e :: r =>
    if !(s.mayIssue u) || !(t.status == .live) || !(t.wait == .none) || t.pend.isSome then .next s
    else
      let len := wordLen e.word
      let s' := { (s.modLanes u (laneBit l) fun _ t => { t with replay := r }) with
        cur := { active := true, u, members := laneBit l, pc := t.pc - BitVec.ofNat 32 (4 * len), slot := t.slot, len,
                 replay := some e, tick := s.tick, done := false } }
      match runWords run [e.word, e.lit, 0#32] s' with
      | .fault x => .fault x
      | .refused x => .refused x
      | .next s'' => if s''.cur.done then .next s''.clearCur else .next s

end Sys2Proof.Machine
end

