-- ==== Sys2Proof/Machine/LaneMem.lean ====
section
/-!
DEFINITION. Per-lane memory (R217 to R225, R241 to R259, R289): L-set 0x52 to 0x6C, the performing of accesses that have
issued, and what an access does inside a region.
-/

namespace Sys2Proof.Machine

/-! ### What a memory word is -/

/-- The kind of a global memory word. -/
inductive MemKind where
  | load (bytes : Nat)
  | store (bytes : Nat)
  | atomic (op : AtomOp)
  | reduce (op : AtomOp)
deriving DecidableEq, Repr

/-- The kind an opcode of the L-set has (R252, R253, R258, R259). -/
def memKind (op : Nat) : MemKind :=
  match op with
  | 0x52 => .load 1
  | 0x53 => .load 2
  | 0x54 => .load 4
  | 0x55 => .load 8
  | 0x56 => .load 16
  | 0x57 => .store 1
  | 0x58 => .store 2
  | 0x59 => .store 4
  | 0x5A => .store 8
  | 0x5B => .store 16
  | 0x62 => .atomic .add
  | 0x63 => .atomic .add64
  | 0x64 => .atomic .min
  | 0x65 => .atomic .max
  | 0x66 => .atomic .and
  | 0x67 => .atomic .or
  | 0x68 => .atomic .xchg
  | 0x69 => .atomic .cas
  | 0x6A => .reduce .radd
  | 0x6B => .reduce .raddf
  | _ => .reduce .rmax

/-- The opcode of an L-set word (R42). -/
def wordOp (w : Word) : Nat := w.toNat / 2 ^ 24 % 128
/-- The d field. -/
def wordD (w : Word) : Nat := w.toNat / 2 ^ 14 % 128
/-- The m field of an LM word. -/
def wordM (w : Word) : BitVec 2 := w.extractLsb' 2 2
/-- The o field of an LM word. -/
def wordO (w : Word) : BitVec 2 := w.extractLsb' 0 2

/-- The bytes an access touches. -/
def MemKind.size : MemKind → Nat
  | .load n | .store n => n
  | .atomic op | .reduce op => atomSize op

/-- Whether it writes. -/
def MemKind.writes : MemKind → Bool
  | .load _ => false
  | .store _ | .atomic _ | .reduce _ => true

/-- Whether the word yields one 32-bit result, several registers, or none (R28). -/
inductive Yields where
  | one | many | none
deriving DecidableEq, Repr

/-- What a memory word yields (R252, R258, R259). -/
def MemKind.yields : MemKind → Yields
  | .load n => if n ≤ 4 then .one else .many
  | .store _ | .reduce _ => .none
  | .atomic op => if op = .add64 then .many else .one

/-- The address of a flight (R251): base pair plus the zero-extended offset, wrapping at 2^64. -/
def Flight.va (f : Flight) : DWord := f.base + f.a.setWidth 64

/-- The bytes a store writes, from the captured data. -/
def storeBytes (n : Nat) (d : List Word) : List Byte := (d.flatMap fun w => leBytes 4 w.toNat).take n

/-- The words a load delivers. -/
def loadWords (bs : List Byte) : List Word :=
  if bs.length ≤ 4 then [leWord bs] else (List.range (bs.length / 4)).map fun i => leWord ((bs.drop (4 * i)).take 4)

/-- An atomic's operands from the captured data (R258): x is v[d] or v[d+1]:v[d], y is v[d+1]. -/
def atomArgs (d : List Word) : DWord × Word := (DWord.ofWords (d.getD 0 0#32) (d.getD 1 0#32), d.getD 1 0#32)

/-- The words an atomic returns. -/
def oldWords (op : AtomOp) (old : DWord) : List Word := if op = .add64 then [old.lo, old.hi] else [old.lo]

/-- Writes consecutive registers from d on; 124 discards (R252). -/
def Thread.setRegs (t : Thread) (d : Nat) (ws : List Word) : Thread :=
  if 120 ≤ d then t
  else (List.range ws.length).foldl (fun t i => t.setV (d + i) (ws.getD i 0#32)) t

/-- Writes p7, which only global accesses do (R97, R217). -/
def Thread.setP7 (t : Thread) (b : Bool) : Thread := t.setP 7 b

/-! ### Performing an access outside regions -/

/-- How an issued access ended. -/
inductive Ended where
  | values (ws : List Word) (p7 : Bool)
  | kept
  | fault (r : TrapRec)
  | frozen (wr : Bool) (pa : Nat)
deriving DecidableEq, Repr

/-- Performs one lane's global access as one event (R217, R225, R254, R257); none while it must wait: its home slice is not
ready (R307), or its page is being copied (R219). One that is `joined` goes with an earlier lane's in one request (R225). -/
def State.performGlobal (s : State) (u : Nat) (f : Flight) (joined : Bool := false) : Option (State × Ended) :=
  let w := s.unit u
  let kd := memKind (wordOp f.word)
  let ag := Agent.unit u
  match s.permit w.part (s.asid w) w.slice f.va kd.size kd.writes with
  | (s, .trap cause) => some (s, .fault (trapRec cause f.va))
  | (s, .nonres) =>
    some (s, match kd with
      | .load n => .values (loadWords (List.replicate n 0#8)) false
      | .store _ | .reduce _ | .atomic _ => .kept)
  | (_, .wait) => none
  | (s, .ok x) =>
    match (s.part w.part).locate x.pa with
    | none => some (s, .frozen (x.wr kd.writes) x.pa)
    | some l =>
      if !(s.lineReady l.key (x.pol == 2)) || (kd.writes && x.sn) then none
      else
        let a := x.acc ag (s.order.clock ag) w.part l kd.size { since := f.since, asks := none, joined }
        let o := wordO f.word
        match kd with
        | .load _ =>
          match s.perfLoad a (if o.getLsbD 0 then some 2#2 else none) with
          | (s, .ok bs) => some (s, .values (loadWords bs) true)
          | (s, .error b) => some (s, .fault (badRec s b f.va))
        | .store n =>
          match s.perfStore a (storeBytes n f.d) (if o.getLsbD 1 then some 2#2 else none) with
          | (s, .ok _) => some (s.setDirty w.slice x, .values [] true)
          | (s, .error b) => some (s, .fault (badRec s b f.va))
        | .atomic op =>
          match s.perfAtomic a op (atomArgs f.d).1 (atomArgs f.d).2 (wordM f.word) o with
          | (s, .ok old) => some (s.setDirty w.slice x, .values (oldWords op old) true)
          | (s, .error b) => some (s, .fault (badRec s b f.va))
        | .reduce op =>
          match s.perfAtomic a op (atomArgs f.d).1 (atomArgs f.d).2 (wordM f.word) o with
          | (s, .ok _) => some (s.setDirty w.slice x, .values [] true)
          | (s, .error b) => some (s, .fault (badRec s b f.va))

/-- A flight finishes in its thread: destination registers, the latch that awaits the result (R30), and p7 (R217). On a
page that is not resident an atomic keeps v[d], which the latch takes. -/
def Thread.finish (t : Thread) (f : Flight) (e : Ended) : Thread :=
  let t' := { t with flights := t.flights.filter fun g => !(g.seq == f.seq) }
  let d := wordD f.word
  match e with
  | .values ws p7 =>
    let t' := (t'.setRegs d (ws.take (f.cap - d))).setP7 p7
    if f.latch < 4 then t'.setLatch f.latch (some (ws.headD 0#32)) else t'
  | .kept =>
    let t' := t'.setP7 false
    if f.latch < 4 then t'.setLatch f.latch (some (t.getV d)) else t'
  | .fault r => { t with flights := t.flights.map fun g => if g.seq = f.seq then { g with fault := some r } else g }
  | .frozen _ _ => t

/-- Performs one lane's flight, and ends it there. -/
def State.performFlight (s : State) (u l : Nat) (f : Flight) (joined : Bool := false) : Option State :=
  (s.performGlobal u f joined).map fun p =>
    match p.2 with
    | .frozen wr pa => p.1.freeze u (laneBit l) [(l, f.va)] wr pa
    | .values _ _ | .kept | .fault _ => p.1.modLanes u (laneBit l) fun _ t => t.finish f p.2

/-! ### Order within the warp (R82, R223 to R225, R228, R254) -/

/-- The flight of a thread with a number. -/
def Thread.flight (t : Thread) (seq : Nat) : Option Flight := t.flights.find? fun f => f.seq == seq

/-- Whether a flight is a global access; a local one is performed at issue and stays only to hold its fault. -/
def Flight.isGlobal (f : Flight) : Bool := decide (wordOp f.word < 0x5C) || decide (0x61 < wordOp f.word)

/-- The kind of a flight's word. -/
def Flight.kind (f : Flight) : MemKind := memKind (wordOp f.word)

/-- Whether a flight is an acquire (R254, R257). -/
def Flight.acquires (f : Flight) : Bool :=
  f.isGlobal && (wordO f.word).getLsbD 0 && match f.kind with
    | .load _ | .atomic _ => true
    | .store _ | .reduce _ => false

/-- Whether a flight is a release (R223, R254). -/
def Flight.releases (f : Flight) : Bool := f.isGlobal && (wordO f.word).getLsbD 1 && f.kind.writes

/-- Whether a flight keeps issue order with every other access of its warp: it is an acquire or a release, so that what it orders is
what was issued before or after it (R230, R232, R254). -/
def Flight.ordered (f : Flight) : Bool := f.acquires || f.releases

/-- The physical bytes a flight touches, where its checks let it touch any. -/
def State.flightSpan (s : State) (w : Warp) (f : Flight) : Option (Nat × Nat) :=
  match (s.check w.part (s.asid w) w.slice f.va f.kind.size f.kind.writes).2 with
  | .ok x => some (x.pa, f.kind.size)
  | .trap _ | .nonres | .wait => none

/-- Whether a flight is an atomic access (R233), or one to a counter page, which races with nothing (R234). -/
def State.flightAtomic (s : State) (w : Warp) (f : Flight) : Bool :=
  f.ordered || (match f.kind with
    | .atomic _ | .reduce _ => true
    | .load _ | .store _ => match (s.check w.part (s.asid w) w.slice f.va f.kind.size f.kind.writes).2 with
      | .ok x => x.k
      | .trap _ | .nonres | .wait => false)

/-- Whether two byte spans meet. -/
def spansMeet (x y : Option (Nat × Nat)) : Bool :=
  match x, y with
  | some a, some b => rangesMeet a.1 a.2 b.1 b.2
  | some _, none | none, some _ | none, none => false

/-- Whether an older unfinished access `f` of the warp keeps a younger one `g` from being performed: either is an acquire or a
release, both are atomic accesses, or the two touch one byte and one of them writes (R82, R223, R228, R232, R239, R254). -/
def State.holdsBack (s : State) (w : Warp) (f g : Flight) : Bool :=
  f.isGlobal && (f.ordered || g.ordered || (s.flightAtomic w f && s.flightAtomic w g) ||
    ((f.kind.writes || g.kind.writes) && spansMeet (s.flightSpan w f) (s.flightSpan w g)))

/-- Whether every older access of the warp lets a flight be performed. -/
def State.inOrder (s : State) (w : Warp) (g : Flight) : Bool :=
  (lanesOf allLanes).all fun l => (w.lane l).flights.all fun f => !(decide (f.seq < g.seq) && s.holdsBack w f g)

/-- The lanes that have a flight of a number, unfaulted and not held by the firewall. -/
def Warp.flying (w : Warp) (seq : Nat) : Word :=
  maskOf fun l => match (w.lane l).flight seq with
    | none => false
    | some f => f.isGlobal && f.fault.isNone && match w.frozen with
      | none => true
      | some z => !(z.lanes.contains (l, f.va))

/-- Whether the lanes of one word cover one aligned line, each word of it once: then they are one event (R225). -/
def wholeLine (fs : List Flight) : Bool :=
  match fs with
  | [] => false
  | f :: _ =>
    (wordOp f.word == 0x54 || wordOp f.word == 0x59) && fs.length == 32 &&
    (List.range 32).all fun i => (fs.filter fun g => g.va.toNat == f.va.toNat / 128 * 128 + 4 * i).length == 1

/-- Whether lanes may be performed together apart from the others of the word: no lane left out writes a byte, or updates an
address, that a lane taken in touches (R224, R253), and a whole line goes whole (R225). -/
def State.closedLanes (s : State) (w : Warp) (seq : Nat) (m : Word) : Bool :=
  let all := w.flying seq
  let fl := fun (l : Nat) => (w.lane l).flight seq
  let rest := all &&& ~~~m
  (rest == 0#32 || !(wholeLine ((lanesOf all).filterMap fl))) &&
  (lanesOf m).all fun l => (lanesOf rest).all fun k => match fl l, fl k with
    | some f, some g => !(f.kind.writes && spansMeet (s.flightSpan w f) (s.flightSpan w g))
    | some _, none | none, some _ | none, none => true

/-- A store of a whole line is one write of its four sectors, which replaces both halves without reading them (R225, R349). -/
def State.coverLine (s : State) (w : Warp) (fs : List Flight) : State :=
  match fs with
  | [] => s
  | f :: _ =>
    if wholeLine fs && f.kind.writes then
      match (s.check w.part (s.asid w) w.slice f.va 4 true).2 with
      | .ok x => match (s.part w.part).locate x.pa with
        | some l => s.coverHalves (l.key / 128 * 128) 128
        | none => s
      | .trap _ | .nonres | .wait => s
    else s

/-- Performs flights of one word in ascending lane order, all with one request where `whole` says that they are a whole line (R225). -/
def State.performAll (s : State) (u seq : Nat) (whole joined : Bool) : List Nat → Option State
  | [] => some s
  | l :: r => match ((s.unit u).lane l).flight seq with
    | none => none
    | some f => match s.performFlight u l f joined with
      | none => none
      | some s => s.performAll u seq whole whole r

/-! ### Inside a region (R241 to R246, R248) -/

/-- A region access's end: its words, with p7; an abort code; or, in TRY, a store that awaits room in the buffer. -/
inductive RegEnd where
  | values (ws : List Word)
  | abort (code : Nat)
  | frozen (wr : Bool) (pa : Nat)
deriving DecidableEq, Repr

/-- The byte a TRY lane has buffered at an address, if any: the last one stored. -/
def bufByte (buf : List BufStore) (isLocal : Bool) (a : Nat) : Option Byte :=
  buf.foldl (fun r b =>
    if b.isLocal == isLocal && decide (b.addr ≤ a) && decide (a < b.addr + b.bytes.length) then some (b.bytes.getD (a - b.addr) 0#8)
    else r) none

/-- The sectors a lane's buffer holds: local or global, and the sector number (R241). -/
def bufSectors (buf : List BufStore) : List (Bool × Nat) := (buf.map fun b => (b.isLocal, b.addr / 32)).eraseDups

/-- The entries of the warp's store buffer in use (R241). -/
def Warp.bufUsed (w : Warp) : Nat := ((List.range 32).map fun l => (bufSectors (w.lane l).sp.buf).length).sum

/-- The sectors of a write log. -/
def logSectors (wlog : Tab Byte) : List Nat := (wlog.map fun p => p.1 / 32).eraseDups

/-- The pool entries the warp's read logs and write logs use (R245). -/
def Warp.logUsed (w : Warp) : Nat × Nat :=
  (((List.range 32).map fun l => (w.lane l).sp.rlog.length).sum,
   ((List.range 32).map fun l => (logSectors (w.lane l).sp.wlog).length).sum)

/-- A load in a TRY region: buffered bytes where the lane has stored, memory elsewhere, byte by byte (R241), in one trip to the
line. -/
def State.tryLoad (s : State) (a : Acc1) (va : Nat) (buf : List BufStore) (acq : Option (BitVec 2)) :
    State × Except Bad (List Byte) :=
  let own := (List.range a.len).map fun i => bufByte buf false (va + i)
  if own.all Option.isNone then s.perfLoad a acq
  else if own.all Option.isSome then (s, .ok (own.map fun b => b.getD 0#8))
  else
    let (s, poison) := s.reach a [0, 1]
    if poison then (s, .error .poison)
    else (List.range a.len).foldl (fun (p : State × Except Bad (List Byte)) i =>
      match p with
      | (s, .error b) => (s, .error b)
      | (s, .ok bs) =>
        match own.getD i none with
        | some b => (s, .ok (bs ++ [b]))
        | none =>
          match s.loadAt { a with loc := a.loc + i, key := a.key + i, len := 1 } acq with
          | (s, .ok b1) => (s, .ok (bs ++ b1))
          | (s, .error b) => (s, .error b)) (s, .ok [])

/-- A serial lane's access (R207, R248): performed at once as a partition-scope acq_rel atomic access that races with
nothing and is ordered after every conflicting access performed before it (R235). A poisoned line that a load or atomic reads
is the lane's fault (R217). -/
def State.serialAccess (s : State) (a : Acc1) (kd : MemKind) (f : Flight) : State × RegEnd :=
  let (reads, halves) := match kd with
    | .load _ | .atomic _ => (true, [0, 1])
    | .reduce _ => (false, [0, 1])
    | .store _ => (false, s.readFirst a.key a.len)
  let (s, p) := s.reach a halves
  if p && reads then (s, .abort Config.abFault)
  else
    let s := if a.k then s else orderAfter s a.agent a.loc a.len kd.writes
    let s := s.note a kd.writes (some 2#2)
    let s := match kd with
      | .load _ => s
      | .store _ => s.flit a
      | .atomic _ | .reduce _ => s.flitAtomic a 2#2
    let old : DWord := BitVec.ofNat 64 (leNat (s.oldBytes a.key (Nat.min 8 a.len)))
    let (s, ws) := match kd with
      | .load n => (s, loadWords (s.bytes a.key n))
      | .store n => (s.putBytes a (storeBytes n f.d), [])
      | .atomic op =>
        (s.putBytes a (leBytes (atomSize op) (atomApply op old (atomArgs f.d).1 (atomArgs f.d).2).toNat),
         oldWords op old)
      | .reduce op =>
        (s.putBytes a (leBytes (atomSize op) (atomApply op old (atomArgs f.d).1 (atomArgs f.d).2).toNat), [])
    let s := acquireAt s a.agent 2#2 a.loc a.len
    (if kd.writes then releaseAt s a.agent 2#2 a.loc a.len else s, .values ws)

/-- A sector read by a transaction: already logged, or logged now at its value in memory (R245). The abort code where the
lane's or the warp's limit is reached, or where the line is poisoned. -/
def State.txRead (s : State) (w : Warp) (sp : Spec) (key : Nat) (unc : Bool) (cls : Nat) :
    State × Except Nat (Spec × List Byte) :=
  let sec := key / 32
  match sp.rlog.find? fun p => p.1 == sec with
  | some p => (s, .ok (sp, p.2))
  | none =>
    if 32 ≤ sp.rlog.length || decide (512 ≤ w.logUsed.1) then (s, .error Config.abReadLog)
    else
      let (s, p) := s.reachLine key [0, 1] unc cls
      if p then (s, .error Config.abFault)
      else
        let v := s.bytes (32 * sec) 32
        (s, .ok ({ sp with rlog := sp.rlog ++ [(sec, v)], uncs := if unc then addNew sec sp.uncs else sp.uncs }, v))

/-- The lane's view of bytes: its written bytes over the logged value (R245). -/
def txView (sp : Spec) (sec : List Byte) (key n : Nat) : List Byte :=
  (List.range n).map fun i => (Tab.find? sp.wlog (key + i)).getD (sec.getD ((key + i) % 32) 0#8)

/-- A write logged by a transaction (R245). -/
def txWrite (w : Warp) (sp : Spec) (key : Nat) (va : Nat) (unc : Bool) (bs : List Byte) : Except Nat Spec :=
  let fresh := !((logSectors sp.wlog).contains (key / 32))
  if fresh && (decide (16 ≤ (logSectors sp.wlog).length) || decide (256 ≤ w.logUsed.2)) then .error Config.abWriteLog
  else .ok { sp with
    wlog := (List.range bs.length).foldl (fun t i => Tab.put t (key + i) (bs.getD i 0#8)) sp.wlog
    wvas := addNew (va / 32) sp.wvas
    uncs := if unc then addNew (key / 32) sp.uncs else sp.uncs }

/-- A logged access of a transaction (R245, R246). -/
def State.txAccess (s : State) (w : Warp) (l : Nat) (a : Acc1) (kd : MemKind) (f : Flight) : State × Spec × RegEnd :=
  let sp := (w.lane l).sp
  let n := kd.size
  let covered := (List.range n).all fun i => (Tab.find? sp.wlog (a.key + i)).isSome
  let read := fun (s : State) =>
    if covered then (s, Except.ok (sp, ([] : List Byte))) else s.txRead w sp a.key a.unc a.cls
  match kd with
  | .store k =>
    match txWrite w sp a.key f.va.toNat a.unc (storeBytes k f.d) with
    | .ok sp => (s, sp, .values [])
    | .error c => (s, sp, .abort c)
  | .load _ =>
    match read s with
    | (s, .ok (sp, sec)) => (s, sp, .values (loadWords (txView sp sec a.key n)))
    | (s, .error c) => (s, sp, .abort c)
  | .atomic op | .reduce op =>
    match read s with
    | (s, .error c) => (s, sp, .abort c)
    | (s, .ok (sp, sec)) =>
      let old : DWord := BitVec.ofNat 64 (leNat (txView sp sec a.key n))
      let new := atomApply op old (atomArgs f.d).1 (atomArgs f.d).2
      match txWrite w sp a.key f.va.toNat a.unc (leBytes n new.toNat) with
      | .ok sp => (s, sp, .values (if kd.yields = .none then [] else oldWords op old))
      | .error c => (s, sp, .abort c)

/-- One lane's access inside its region (R241, R242, R245, R246, R248); of a buffered store the check alone, which `bufferStores`
then makes. An atomic with o = 1 in a TRY region is performed at once, as an acquire (R242, log 129). -/
def State.regionAccess (s : State) (u l : Nat) (f : Flight) : State × RegEnd :=
  let w := s.unit u
  let t := w.lane l
  let kd := memKind (wordOp f.word)
  let o := wordO f.word
  let ag := Agent.unit u
  let releases := kd.writes && o.getLsbD 1
  let now := t.serial || (t.inTry && match kd with
    | .store _ => false
    | .load _ | .atomic _ | .reduce _ => true)
  if t.inTry && releases then (s, .abort Config.abDisallowed)
  else match (if now then s.permit else s.check) w.part (s.asid w) w.slice f.va kd.size kd.writes with
    | (s, .trap _) => (s, .abort Config.abFault)
    | (s, .nonres) => (s, .abort Config.abFault)
    | (s, .wait) => (s, .values [])
    | (s, .ok x) =>
      match (s.part w.part).locate x.pa with
      | none => (s, .frozen (x.wr kd.writes) x.pa)
      | some loc =>
        let a := x.acc ag (s.order.clock ag) w.part loc kd.size { since := f.since, asks := none, joined := false }
        if t.serial then
          match s.serialAccess a kd f with
          | (s, .values ws) => (if kd.writes then s.setDirty w.slice x else s, .values ws)
          | r => r
        else if t.inTx then
          let (s, sp, e) := s.txAccess w l a kd f
          (s.modLanes u (laneBit l) fun _ t => { t with sp }, e)
        else
          match kd with
          | .load _ =>
            match s.tryLoad a f.va.toNat t.sp.buf (if o.getLsbD 0 then some 2#2 else none) with
            | (s, .ok bs) => (s, .values (loadWords bs))
            | (s, .error _) => (s, .abort Config.abFault)
          | .store _ => (s, .values [])
          | .atomic op | .reduce op =>
            match s.perfAtomic a op (atomArgs f.d).1 (atomArgs f.d).2 (wordM f.word) o with
            | (s, .ok old) => (s.setDirty w.slice x, .values (if kd.yields = .none then [] else oldWords op old))
            | (s, .error _) => (s, .abort Config.abFault)

/-- The stores that TRY lanes of one word would buffer: if they need entries beyond the 64, none is buffered and every lane
of the warp in a TRY region aborts with CODE 0x04 (R241); else a global one sets p7 (R217). -/
def State.bufferStores (s : State) (u : Nat) (new : List (Nat × BufStore)) : State :=
  let w := s.unit u
  let need := (new.map fun p =>
    if (bufSectors (w.lane p.1).sp.buf).contains (p.2.isLocal, p.2.addr / 32) then 0 else 1).sum
  if new.isEmpty then s
  else if 64 < w.bufUsed + need then s.abortLanes u (w.lanesWhere allLanes Thread.inTry) Config.abWriteLog 0
  else new.foldl (fun s p => s.modLanes u (laneBit p.1) fun _ t =>
    { (if p.2.isLocal then t else t.setP7 true) with sp := { t.sp with buf := t.sp.buf ++ [p.2] } }) s

/-- A word that completes at issue delivers its values in a lane: registers, latches (R28) or the latch a re-issued entry
names (R291), and p7 for a global access. -/
def Thread.deliverWords (t : Thread) (c : Cur) (y : Yields) (d : Nat) (ws : List Word) : Thread :=
  let t := t.setRegs d ws
  match y, c.replay with
  | .one, none => t.shift (some (ws.headD 0#32))
  | .one, some e => if e.latch < 4 then t.setLatch e.latch (some (ws.headD 0#32)) else t
  | .many, none => t.dropLatches
  | .many, some _ | .none, none | .none, some _ => t

/-! ### Issue of a global word (R251 to R259) -/

/-- The flight of a lane: operands as read at issue, or a re-issued entry's (R288, R290, R291). -/
def flightOf (c : Cur) (w : Warp) (l seq : Nat) (word : Word) (a : Src) (bp : Nat) (d : List Word) : Flight :=
  match c.replay with
  | none =>
    { seq, word, lit := (match a with
        | .lit x => x
        | .reg _ | .latch _ | .zero | .tid | .abc => 0#32),
      base := w.u.getPair bp, a := opA c w l a, b := 0#32, d, latch := 7, cap := 120, since := c.tick, fault := none }
  | some e =>
    { seq, word, lit := e.lit, base := e.base, a := opA c w l a, b := e.b, d := e.d, latch := e.latch, cap := 120, since := c.tick,
      fault := none }

/-- The latch effect of issuing a word whose result comes later (R28, R30): the shift, with L0 awaiting the result, or the
loss of all four. A re-issued word shifts nothing. -/
def Thread.launch (t : Thread) (c : Cur) (f : Flight) (y : Yields) : Thread :=
  match y, c.replay with
  | .one, none => let t := t.shift none; { t with flights := t.flights ++ [{ f with latch := 0 }] }
  | .many, none => let t := t.dropLatches; { t with flights := t.flights ++ [f] }
  | .none, none | .one, some _ | .many, some _ | .none, some _ => { t with flights := t.flights ++ [f] }

/-- Whether a store or atomic must wait before it can issue, because its page is being copied (R219), or an access made at
once because its home is not ready (R307) or its bank makes it back off (R339), or one made or checked at once because its walk has to
wait so. A buffered or logged write reaches no memory. A store that finds the page being copied only once it is in flight waits there,
and its group goes on (log 131). -/
def State.mustWait (s : State) (w : Warp) (f : Flight) (now logged : Bool) : Bool :=
  let kd := memKind (wordOp f.word)
  match ((if now && !logged then s.permit else s.check) w.part (s.asid w) w.slice f.va kd.size kd.writes).2 with
  | .ok x =>
    (kd.writes && x.sn && !logged) || (now && match (s.part w.part).locate x.pa with
      | some l => !(s.lineReady l.key (x.pol == 2))
      | none => false)
  | .wait => now || logged
  | .trap _ | .nonres => false

/-- The lanes outside regions whose access violates the firewall (R304). -/
def State.violators (s : State) (w : Warp) (fs : List (Nat × Flight)) : List (Nat × DWord × Bool × Nat) :=
  fs.filterMap fun p =>
    let kd := memKind (wordOp p.2.word)
    match (s.check w.part (s.asid w) w.slice p.2.va kd.size kd.writes).2 with
    | .ok x => if ((s.part w.part).locate x.pa).isNone then some (p.1, p.2.va, x.wr kd.writes, x.pa) else none
    | .trap _ | .nonres | .wait => none

/-- What a global word has come to over its acting lanes: the state, the lanes to abort with their codes, and the stores that TRY
lanes are to buffer. -/
structure GlobRun where
  s : State
  aborts : List (Nat × Nat)
  bufs : List (Nat × BufStore)

/-- One lane's access at issue inside a region. -/
def GlobRun.inside (r : GlobRun) (word : Word) (act : Word) (buffers : Bool) (l : Nat) (f : Flight) : GlobRun :=
  let c := r.s.cur
  let kd := memKind (wordOp word)
  if buffers then
    match r.s.regionAccess c.u l f with
    | (s, .abort code) => { r with s, aborts := r.aborts ++ [(l, code)] }
    | (s, .frozen wr pa) => { r with s := s.freeze c.u act [(l, f.va)] wr pa }
    | (s, .values _) =>
      { r with s, bufs := r.bufs ++ [(l, { isLocal := false, addr := f.va.toNat, bytes := storeBytes kd.size f.d })] }
  else
    match r.s.regionAccess c.u l f with
    | (s, .abort code) => { r with s, aborts := r.aborts ++ [(l, code)] }
    | (s, .frozen wr pa) => { r with s := s.freeze c.u act [(l, f.va)] wr pa }
    | (s, .values ws) =>
      { r with s := s.modLanes c.u (laneBit l) fun _ t => (t.deliverWords c kd.yields (wordD word) ws).setP7 true }

/-- One lane's access, issued a moment ago, is performed with the word. -/
def GlobRun.outside (r : GlobRun) (l : Nat) (f : Flight) : GlobRun :=
  match ((r.s.unit r.s.cur.u).lane l).flight f.seq with
  | none => r
  | some g => match r.s.performFlight r.s.cur.u l g with
    | some s => { r with s }
    | none => r

/-- The body of a global memory word. Lanes outside regions issue it, to be performed later; lanes in regions perform,
buffer or log it now, once every older access of the warp lets them (R228, R254), and the other lanes of the word are then performed
with them, in ascending lane order, where a lane performs it or the word loads a whole line (R224, R225). The lanes that abort with one
CODE are one abort event (R203, log 128), and what they had logged or buffered is free only once every lane has been tried (log 128). -/
def globalBody (word : Word) (a : Src) (bp : Nat) (dw : Cur → Warp → Nat → List Word) (s0 s : State) (act : Word) :
    Out State :=
  let c := s.cur
  let w := s.unit c.u
  let kd := memKind (wordOp word)
  let fs := (lanesOf act).map fun l => (l, flightOf c w l w.seq word a bp (dw c w l))
  let out := fs.filter fun p => !((w.lane p.1).inRegion)
  let inn := fs.filter fun p => (w.lane p.1).inRegion
  let buffers := fun (p : Nat × Flight) => (w.lane p.1).inTry && match kd with
    | .store _ => true
    | .load _ | .atomic _ | .reduce _ => false
  let logged := fun (p : Nat × Flight) => (w.lane p.1).inTx && !((w.lane p.1).serial)
  let now := inn.filter fun p => !(buffers p)
  let joint := (now.any fun p => !(logged p)) || (!now.isEmpty && !kd.writes && wholeLine (fs.map (·.2)))
  if out.any fun p => s.mustWait w p.2 joint false then .next s0
  else if inn.any fun p => s.mustWait w p.2 (!(buffers p)) (buffers p || logged p) then .next s0
  else if (now.any fun p => !(s.inOrder w p.2) || ((w.lane p.1).serial && w.busy allLanes)) ||
      (joint && out.any fun p => !(s.inOrder w p.2)) then .next s0
  else
    let s := s.modUnit c.u fun w => { w with seq := w.seq + 1 }
    let s := out.foldl (fun s p => s.modLanes c.u (laneBit p.1) fun _ t => t.launch c p.2 kd.yields) s
    let bad := s.violators w out
    let s := match bad with
      | [] => s
      | b :: _ => s.freeze c.u act (bad.map fun x => (x.1, x.2.1)) b.2.2.1 b.2.2.2
    let r := fs.foldl (fun (r : GlobRun) p =>
      if (w.lane p.1).inRegion then r.inside word act (buffers p) p.1 p.2
      else if joint && !(bad.any fun x => x.1 == p.1) then r.outside p.1 p.2
      else r) { s, aborts := [], bufs := [] }
    let s := (r.aborts.map (·.2)).eraseDups.foldl (fun s code =>
      s.abortLanes c.u (maskOf fun l => r.aborts.contains (l, code)) code 0) r.s
    .next (s.bufferStores c.u r.bufs)

/-- A global word issues: `regs` are the registers it names or implies, `dw` its captured data. -/
def issueGlobal (i : Instr) (g : BitVec 3) (regs lat : List Nat) (a : Src) (bp : Fin 8) (dw : Cur → Warp → Nat → List Word)
    (s : State) : Out State :=
  issueL g true (regs ++ srcRegs a) (lat ++ srcLatches a) (globalBody ((encode i).headD 0#32) a bp.val dw s) s

/-- No captured data. -/
def noData : Cur → Warp → Nat → List Word := fun _ _ _ => []

/-- n registers from d captured as data. -/
def regData (d n : Nat) : Cur → Warp → Nat → List Word := fun c w l => (List.range n).map fun i => opD c w l d i

/-- LDG8 (R252). -/
def execLdg8 (g : BitVec 3) (d : Dest) (a : Src) (bp : Fin 8) (hint : BitVec 2) (acq : Bool) (s : State) : Out State :=
  issueGlobal (.ldg8 g d a bp hint acq) g (destRegs d) [] a bp noData s

/-- LDG16 (R252). -/
def execLdg16 (g : BitVec 3) (d : Dest) (a : Src) (bp : Fin 8) (hint : BitVec 2) (acq : Bool) (s : State) : Out State :=
  issueGlobal (.ldg16 g d a bp hint acq) g (destRegs d) [] a bp noData s

/-- LDG32 (R252). -/
def execLdg32 (g : BitVec 3) (d : Dest) (a : Src) (bp : Fin 8) (hint : BitVec 2) (acq : Bool) (s : State) : Out State :=
  issueGlobal (.ldg32 g d a bp hint acq) g (destRegs d) [] a bp noData s

/-- LDG64 (R252). -/
def execLdg64 (g : BitVec 3) (d : Fin 119) (a : Src) (bp : Fin 8) (hint : BitVec 2) (acq : Bool) (s : State) : Out State :=
  issueGlobal (.ldg64 g d a bp hint acq) g (regSpan d.val 2) [] a bp noData s

/-- LDG128 (R252). -/
def execLdg128 (g : BitVec 3) (d : Fin 117) (a : Src) (bp : Fin 8) (hint : BitVec 2) (acq : Bool) (s : State) : Out State :=
  issueGlobal (.ldg128 g d a bp hint acq) g (regSpan d.val 4) [] a bp noData s

/-- STG8 (R253). -/
def execStg8 (g : BitVec 3) (d : Data) (a : Src) (bp : Fin 8) (hint : BitVec 2) (rel : Bool) (s : State) : Out State :=
  issueGlobal (.stg8 g d a bp hint rel) g (dataRegs d) (dataLatches d) a bp (fun c w l => [opData c w l d]) s

/-- STG16 (R253). -/
def execStg16 (g : BitVec 3) (d : Data) (a : Src) (bp : Fin 8) (hint : BitVec 2) (rel : Bool) (s : State) : Out State :=
  issueGlobal (.stg16 g d a bp hint rel) g (dataRegs d) (dataLatches d) a bp (fun c w l => [opData c w l d]) s

/-- STG32 (R253). -/
def execStg32 (g : BitVec 3) (d : Data) (a : Src) (bp : Fin 8) (hint : BitVec 2) (rel : Bool) (s : State) : Out State :=
  issueGlobal (.stg32 g d a bp hint rel) g (dataRegs d) (dataLatches d) a bp (fun c w l => [opData c w l d]) s

/-- STG64 (R253). -/
def execStg64 (g : BitVec 3) (d : Fin 119) (a : Src) (bp : Fin 8) (hint : BitVec 2) (rel : Bool) (s : State) : Out State :=
  issueGlobal (.stg64 g d a bp hint rel) g (regSpan d.val 2) [] a bp (regData d.val 2) s

/-- STG128 (R253). -/
def execStg128 (g : BitVec 3) (d : Fin 117) (a : Src) (bp : Fin 8) (hint : BitVec 2) (rel : Bool) (s : State) : Out State :=
  issueGlobal (.stg128 g d a bp hint rel) g (regSpan d.val 4) [] a bp (regData d.val 4) s

/-- AADD (R258). -/
def execAadd (g : BitVec 3) (d : Fin 120) (a : Src) (bp : Fin 8) (scope order : BitVec 2) (s : State) : Out State :=
  issueGlobal (.aadd g d a bp scope order) g [d.val] [] a bp (regData d.val 1) s

/-- AADD64 (R258). -/
def execAadd64 (g : BitVec 3) (d : Fin 119) (a : Src) (bp : Fin 8) (scope order : BitVec 2) (s : State) : Out State :=
  issueGlobal (.aadd64 g d a bp scope order) g (regSpan d.val 2) [] a bp (regData d.val 2) s

/-- AMIN (R258). -/
def execAmin (g : BitVec 3) (d : Fin 120) (a : Src) (bp : Fin 8) (scope order : BitVec 2) (s : State) : Out State :=
  issueGlobal (.amin g d a bp scope order) g [d.val] [] a bp (regData d.val 1) s

/-- AMAX (R258). -/
def execAmax (g : BitVec 3) (d : Fin 120) (a : Src) (bp : Fin 8) (scope order : BitVec 2) (s : State) : Out State :=
  issueGlobal (.amax g d a bp scope order) g [d.val] [] a bp (regData d.val 1) s

/-- AAND (R258). -/
def execAand (g : BitVec 3) (d : Fin 120) (a : Src) (bp : Fin 8) (scope order : BitVec 2) (s : State) : Out State :=
  issueGlobal (.aand g d a bp scope order) g [d.val] [] a bp (regData d.val 1) s

/-- AOR (R258). -/
def execAor (g : BitVec 3) (d : Fin 120) (a : Src) (bp : Fin 8) (scope order : BitVec 2) (s : State) : Out State :=
  issueGlobal (.aor g d a bp scope order) g [d.val] [] a bp (regData d.val 1) s

/-- AXCHG (R258). -/
def execAxchg (g : BitVec 3) (d : Fin 120) (a : Src) (bp : Fin 8) (scope order : BitVec 2) (s : State) : Out State :=
  issueGlobal (.axchg g d a bp scope order) g [d.val] [] a bp (regData d.val 1) s

/-- ACAS (R258): compare in v[d], new value in v[d+1], old value out to v[d] alone. -/
def execAcas (g : BitVec 3) (d : Fin 119) (a : Src) (bp : Fin 8) (scope order : BitVec 2) (s : State) : Out State :=
  issueGlobal (.acas g d a bp scope order) g (regSpan d.val 2) [] a bp (regData d.val 2) s

/-- RADD (R259). -/
def execRadd (g : BitVec 3) (d : Data) (a : Src) (bp : Fin 8) (scope : BitVec 2) (rel : Bool) (s : State) : Out State :=
  issueGlobal (.radd g d a bp scope rel) g (dataRegs d) (dataLatches d) a bp (fun c w l => [opData c w l d]) s

/-- RADDF (R259). -/
def execRaddf (g : BitVec 3) (d : Data) (a : Src) (bp : Fin 8) (scope : BitVec 2) (rel : Bool) (s : State) : Out State :=
  issueGlobal (.raddf g d a bp scope rel) g (dataRegs d) (dataLatches d) a bp (fun c w l => [opData c w l d]) s

/-- RMAX (R259). -/
def execRmax (g : BitVec 3) (d : Data) (a : Src) (bp : Fin 8) (scope : BitVec 2) (rel : Bool) (s : State) : Out State :=
  issueGlobal (.rmax g d a bp scope rel) g (dataRegs d) (dataLatches d) a bp (fun c w l => [opData c w l d]) s

/-! ### Local words (R255, R256) and the frame aperture (R289) -/

/-- The size and direction of a local word (R255). -/
def localSize (op : Nat) : Nat × Bool :=
  match op with
  | 0x5C => (4, false)
  | 0x5D => (8, false)
  | 0x5E => (16, false)
  | 0x5F => (4, true)
  | 0x60 => (8, true)
  | _ => (16, true)

/-- A write of one word of a frame (R289, R290): CONF and the zero fields keep their values, SLOT keeps one bit (none on a
Reckoner), COUNT holds at 8, LVALID and FLAGS keep four bits. -/
def frameWrite (f : Tab Word) (i : Nat) (x : Word) : Tab Word :=
  if i = 1 ∨ i = 7 ∨ (13 ≤ i ∧ i < 16) ∨ 144 ≤ i then f
  else if i = 5 then Tab.set 0#32 f i (x &&& 1#32)
  else if i = 6 then Tab.set 0#32 f i (if x.toNat ≤ 8 then x else 8#32)
  else if i = 12 then Tab.set 0#32 f i (x &&& 15#32)
  else if i < 16 then Tab.set 0#32 f i x
  else
    let j := i % 16
    if j = 2 then Tab.set 0#32 f i (x &&& 15#32)
    else if j = 3 ∨ 12 ≤ j then f
    else Tab.set 0#32 f i x

/-- Whether a local address lies in the frame aperture (R289). -/
def inAperture (la : Word) : Bool := decide (0xFFFFF000 ≤ la.toNat) && decide (la.toNat < 0xFFFFF240)

/-- How one lane's local access ends: values, or a trap record. -/
abbrev LocalEnd := Except TrapRec (List Word)

/-- One lane's local access at issue: the frame aperture in trap mode, the store buffer in a TRY region, byte by byte where the
buffer holds part of a load (R241), else the window (R128, R256, R289). -/
def State.localLane (s : State) (u l : Nat) (la : Word) (op : Nat) (d : List Word) :
    State × LocalEnd × Option BufStore :=
  let w := s.unit u
  let t := w.lane l
  let (n, st) := localSize op
  let va : DWord := la.setWidth 64
  if la.toNat % n ≠ 0 then (s, .error (trapRec Config.causeMisaligned va), none)
  else if t.trapMode && inAperture la then
    let i := (la.toNat - 0xFFFFF000) / 4
    if st then
      (s.modLanes u (laneBit l) fun _ t =>
        { t with frame := (List.range (n / 4)).foldl (fun f k => frameWrite f (i + k) (d.getD k 0#32)) t.frame }, .ok [], none)
    else (s, .ok ((List.range (n / 4)).map fun k => t.frameWord (i + k)), none)
  else if t.inTry then
    if (s.team w.team).win < la.toNat + n then (s, .error (trapRec Config.causeProtection va), none)
    else if st then (s, .ok [], some { isLocal := true, addr := la.toNat, bytes := storeBytes n d })
    else
      let own := (List.range n).map fun i => bufByte t.sp.buf true (la.toNat + i)
      if own.all Option.isNone then
        match s.localAccess u w.team la n none with
        | (s, .error r) => (s, .error r, none)
        | (s, .ok bs) => (s, .ok (loadWords bs), none)
      else
        match (List.range n).foldl (fun (p : State × Except TrapRec (List Byte)) i =>
          match p, own.getD i none with
          | (s, .error r), _ => (s, .error r)
          | (s, .ok bs), some b => (s, .ok (bs ++ [b]))
          | (s, .ok bs), none => match s.localAccess u w.team (la + BitVec.ofNat 32 i) 1 none with
            | (s, .ok b1) => (s, .ok (bs ++ b1))
            | (s, .error r) => (s, .error r)) (s, .ok []) with
        | (s, .error r) => (s, .error r, none)
        | (s, .ok bs) => (s, .ok (loadWords bs), none)
  else
    match s.localAccess u w.team la n (if st then some (storeBytes n d) else none) with
    | (s, .error r) => (s, .error r, none)
    | (s, .ok bs) => (s, .ok (if st then [] else loadWords bs), none)

/-- Whether an acquire or a release of the warp is still to be performed: later accesses of whatever class come after it (R232, R254,
R257). -/
def Warp.ordering (w : Warp) : Bool := (lanesOf allLanes).any fun l => (w.lane l).flights.any Flight.ordered

/-- The body of a local word: every acting lane's access is performed at issue, in ascending lane order, once no older acquire or
release is in flight. A lane that faults holds the word as issued and not finished, with its fault, until its trap is entered (R287, R288). -/
def localBody (word : Word) (a : Src) (imm : BitVec 7) (y : Yields) (dw : Cur → Warp → Nat → List Word) (s0 s : State)
    (act : Word) : Out State :=
  let c := s.cur
  let w := s.unit c.u
  let op := wordOp word
  if w.ordering then .next s0
  else
    let s := s.modUnit c.u fun w => { w with seq := w.seq + 1 }
    let (s, ab, bf) := (lanesOf act).foldl (fun (r : State × Word × List (Nat × BufStore)) l =>
      let (s, ab, bf) := r
      let f := flightOf c w l w.seq word a 0 (dw c w l)
      let la := f.a + BitVec.ofNat 32 (4 * imm.toNat)
      match s.localLane c.u l la op f.d with
      | (s, .ok ws, b) =>
        (s.modLanes c.u (laneBit l) fun _ t => t.deliverWords c y (wordD word) ws, ab,
         bf ++ b.toList.map fun x => (l, x))
      | (s, .error r, _) =>
        if (w.lane l).inRegion then (s, ab ||| laneBit l, bf)
        else (s.modLanes c.u (laneBit l) fun _ t => t.launch c { f with base := 0#64, fault := some r } y, ab, bf))
      (s, 0#32, [])
    let s := s.abortLanes c.u ab Config.abFault 0
    .next (s.bufferStores c.u bf)

/-- A local word issues. -/
def issueLocal (i : Instr) (g : BitVec 3) (regs lat : List Nat) (a : Src) (imm : BitVec 7) (y : Yields)
    (dw : Cur → Warp → Nat → List Word) (s : State) : Out State :=
  issueL g true (regs ++ srcRegs a) (lat ++ srcLatches a) (localBody ((encode i).headD 0#32) a imm y dw s) s

/-- LDL32 (R255). -/
def execLdl32 (g : BitVec 3) (d : Dest) (a : Src) (imm : BitVec 7) (s : State) : Out State :=
  issueLocal (.ldl32 g d a imm) g (destRegs d) [] a imm .one noData s

/-- LDL64 (R255). -/
def execLdl64 (g : BitVec 3) (d : Fin 119) (a : Src) (imm : BitVec 7) (s : State) : Out State :=
  issueLocal (.ldl64 g d a imm) g (regSpan d.val 2) [] a imm .many noData s

/-- LDL128 (R255). -/
def execLdl128 (g : BitVec 3) (d : Fin 117) (a : Src) (imm : BitVec 7) (s : State) : Out State :=
  issueLocal (.ldl128 g d a imm) g (regSpan d.val 4) [] a imm .many noData s

/-- STL32 (R255). -/
def execStl32 (g : BitVec 3) (d : Data) (a : Src) (imm : BitVec 7) (s : State) : Out State :=
  issueLocal (.stl32 g d a imm) g (dataRegs d) (dataLatches d) a imm .none (fun c w l => [opData c w l d]) s

/-- STL64 (R255). -/
def execStl64 (g : BitVec 3) (d : Fin 119) (a : Src) (imm : BitVec 7) (s : State) : Out State :=
  issueLocal (.stl64 g d a imm) g (regSpan d.val 2) [] a imm .none (regData d.val 2) s

/-- STL128 (R255). -/
def execStl128 (g : BitVec 3) (d : Fin 117) (a : Src) (imm : BitVec 7) (s : State) : Out State :=
  issueLocal (.stl128 g d a imm) g (regSpan d.val 4) [] a imm .none (regData d.val 4) s

end Sys2Proof.Machine
end

