-- ==== Sys2Proof/Machine/ThreadEvents.lean ====
section
/-!
DEFINITION. What befalls threads apart from the words they issue: accesses performed (R30, R217, R223 to R225, R254), trap
entry (R286, R288), the ends of waits (R164, R172, R274), register grows (R35), overlay copies (R162) and user interrupts
(R170).
-/

namespace Sys2Proof.Machine

/-! ### Accesses performed -/

/-- Accesses of one word are performed in the lanes of a mask, if they may be. -/
def performLanes (u seq : Nat) (m : Word) (want : MemKind → Bool) (s : State) : Out State :=
  let w := s.unit u
  let ok := !(m == 0#32) && (m &&& ~~~(w.flying seq)) == 0#32 && s.closedLanes w seq m &&
    (lanesOf m).all fun l => match (w.lane l).flight seq with
      | some f => want f.kind && s.inOrder w f
      | none => false
  if !ok then .fault .notPossible
  else
    let fs := (lanesOf m).filterMap fun l => (w.lane l).flight seq
    match (s.coverLine w fs).performAll u seq (wholeLine fs) false (lanesOf m) with
    | some s => .next s
    | none => .fault .notPossible

/-- LOAD_DATA_RETURN (R30, R217): loads and atomics are performed, and their results arrive. -/
def execLoadDataReturn (u seq : Nat) (lanes : Word) (s : State) : Out State :=
  performLanes u seq lanes (fun k => match k with
    | .load _ | .atomic _ => true
    | .store _ | .reduce _ => false) s

/-- STORE_PERFORMED (R217, R223): stores and reductions are performed. -/
def execStorePerformed (u seq : Nat) (lanes : Word) (s : State) : Out State :=
  performLanes u seq lanes (fun k => match k with
    | .store _ | .reduce _ => true
    | .load _ | .atomic _ => false) s

/-! ### Trap entry (R286 to R288) -/

/-- The queue entry that captures a flight (R288, R290). -/
def Flight.entry (f : Flight) : Entry :=
  { word := f.word, lit := f.lit, latch := f.latch, base := f.base, a := f.a, b := f.b, d := f.d }

/-- TRAP_ENTRY (R286, R288): the thread's oldest unfinished word has faulted; the thread takes that trap, with it and every
younger unfinished word in the queue and TPC its first word not issued. The firewall's freeze and a stall hold it (R298,
R306). -/
def execTrapEntry (u l : Nat) (s : State) : Out State :=
  let w := s.unit u
  let t := w.lane l
  if w.frozen.isSome || (s.part w.part).stalled || !(t.status == .live) then .fault .notPossible
  else match t.flights with
    | [] => .fault .notPossible
    | f :: _ => match f.fault with
      | none => .fault .notPossible
      | some r => .next (s.takeTrap u l t.pc (t.flights.map Flight.entry) r)

/-! ### The ends of waits -/

/-- The lanes that wait as a lane does: the group that blocked together. -/
def Warp.sameWait (w : Warp) (l : Nat) : Word := w.lanesWhere allLanes fun t => t.status == .live && t.wait == (w.lane l).wait

/-- The counter that a wait names; none where its checks fail or its home is not ready. -/
def State.waitRef (s : State) (w : Warp) (va : DWord) : State × Option CtrRef :=
  match s.counterAt w.part (s.asid w) w.slice va with
  | (s, .ok (.ok r)) => (s, if r.ready then some r else none)
  | (s, .ok (.error _)) => (s, none)
  | (s, .error _) => (s, none)

/-- A group that waits finds the line of its counter poisoned (R282, R283): its threads take Memory-Error, with TPC at the word. -/
def State.waitPoison (s : State) (u : Nat) (m : Word) (va : DWord) : State :=
  (lanesOf m).foldl (fun s l => (s.modLanes u (laneBit l) fun _ t => { t with wait := .none }).takeTrap u l ((s.unit u).lane l).pc []
    (trapRec Config.causeMemoryError va)) s

/-- WAIT_SATISFIED (R274): the counter has reached the threshold; the group acquires and goes on, a WAITTO with q0 := 1. The wait reads
the counter's line, and a group that finds it poisoned takes Memory-Error (log 45). -/
def execWaitSatisfied (u l : Nat) (s : State) : Out State :=
  let w := s.unit u
  if !(s.wakeable u) then .fault .notPossible
  else match (w.lane l).wait with
    | .counter va thr scope dl _ =>
      match s.waitRef w va with
      | (s, some r) => match s.reachCtr r with
        | (s, true) => .next (s.waitPoison u (w.sameWait l) va)
        | (s, false) =>
          if (s.counterVal r.key).toNat < thr.toNat then .fault .notPossible
          else
            let s := (acquireCtr s (.unit u) scope r.loc).modLanes u (w.sameWait l) fun _ t => t.wake
            .next (if dl.isSome then s.modUni u fun x => x.setQ 0 true else s)
      | (_, none) => .fault .notPossible
    | .none | .barrier _ | .sleep _ _ | .grow _ _ | .tile _ => .fault .notPossible

/-- Whether the wait of a lane has passed its deadline short of its value (R274). -/
def State.waitLapsed (s : State) (u l : Nat) : Bool :=
  let w := s.unit u
  match (w.lane l).wait with
  | .counter va thr _ (some d) _ =>
    s.wakeable u && decide (d.toNat ≤ (s.clk w).toNat) && match s.waitRef w va with
      | (s, some r) => decide ((s.counterVal r.key).toNat < thr.toNat)
      | (_, none) => true
  | .counter _ _ _ none _ | .none | .barrier _ | .sleep _ _ | .grow _ _ | .tile _ => false

/-- WAITTO_TIMEOUT (R274): the deadline has come before the value; q0 := 0, and nothing is ordered. -/
def execWaittoTimeout (u l : Nat) (s : State) : Out State :=
  if !(s.waitLapsed u l) then .fault .notPossible
  else .next ((s.modLanes u ((s.unit u).sameWait l) fun _ t => t.wake).modUni u fun x => x.setQ 0 false)

/-- A lane whose WAITTO has passed its deadline short of its value: it times out before anything else moves, so that no later add ends
the wait (R274). -/
def State.lapsed (s : State) : Option (Nat × Nat) :=
  s.units.findSome? fun p =>
    if p.2.live then ((lanesOf p.2.liveMask).find? fun l => s.waitLapsed p.1 l).map fun l => (p.1, l) else none

/-- SLEEP_WAKE (R164): CLK has reached the sleep's end. -/
def execSleepWake (u l : Nat) (s : State) : Out State :=
  let w := s.unit u
  if !(s.wakeable u) then .fault .notPossible
  else match (w.lane l).wait with
    | .sleep till _ =>
      if (s.clk w).toNat < till.toNat then .fault .notPossible
      else .next (s.modLanes u (w.sameWait l) fun _ t => t.wake)
    | .none | .counter _ _ _ _ _ | .barrier _ | .grow _ _ | .tile _ => .fault .notPossible

/-- SYSC_REPLY (R172): the replying hart has acquired what the request released; the reply is written, and what the hart did before it
is ordered before the members' later accesses. -/
def execSyscReply (u : Nat) (reply : Word) (hart : Nat) (s : State) : Out State :=
  let w := s.unit u
  match w.sysc with
  | none => .fault .notPossible
  | some c =>
    if !(s.wakeable u) || !((s.part w.part).slices.contains (hart / 8)) then .fault .notPossible
    else
      let o := s.order.acquireVC (.hart (hart / 8) (hart % 8)) c.vc
      let (o, v) := o.endRegion (.hart (hart / 8) (hart % 8))
      let o := ((o.acquireVC (.unit u) v).endRegion (.unit u)).1
      let s := ({ s with order := o } : State).modUnit u fun w => { w with sysc := none, u := w.u.setS c.dest reply }
      .next (s.modLanes u c.members fun _ t => { t with pc := t.pc + 4#32 })

/-! ### Register grows (R35) -/

/-- REGQ_GRANT (R35): the team's next grant. -/
def execRegqGrant (tm : Nat) (s : State) : Out State :=
  match s.growStep tm with
  | some s => .next s
  | none => .fault .notPossible

/-- Whether every live thread of a warp is blocked in one pending grow (R35). -/
def State.growBlocked (s : State) (t : Team) (u : Nat) : Bool :=
  t.grows.any fun g => g.u == u && !g.waiting && (lanesOf (s.unit u).liveMask).all fun l =>
    g.members.getLsbD l && match ((s.unit u).lane l).wait with
      | .grow _ _ => true
      | .none | .counter _ _ _ _ _ | .barrier _ | .sleep _ _ | .tile _ => false

/-- REGQ_REFUSE (R35): every live warp of the team is blocked in a grow and the next in order does not fit: all are refused,
each warp with q0 := 0. A warp that something holds still keeps its wait, and so do all the others with it (R293, R298). -/
def execRegqRefuse (tm : Nat) (s : State) : Out State :=
  let t := s.team tm
  let live := t.warps.filter fun u => (s.unit u).live
  match t.firstGrow with
  | none => .fault .notPossible
  | some g =>
    if g.n - (s.unit g.u).quota ≤ t.pool || !(live.all fun u => s.growBlocked t u && s.wakeable u) then .fault .notPossible
    else
      let out := t.grows.filter fun g => !g.waiting
      let s := s.modTeam tm fun t => { t with grows := t.grows.filter fun g => g.waiting }
      .next (out.foldl (fun s g => (s.growWake g).modUni g.u fun x => x.setQ 0 false) s)

/-! ### Overlay copies (R162) -/

/-- OVERLAY_SLOT_COPY (R162): no warp executes from the target slot and no other copy into it is under way, and the image is read; its
checks are made again, and one that fails is the trap of the OVLOAD, taken once the members' older words have finished (R288). The tag
is not set until the copy is done. -/
def execOverlaySlotCopy (u : Nat) (s : State) : Out State :=
  let w := s.unit u
  match w.ovw with
  | none => .fault .notPossible
  | some o =>
    if o.copying || !(s.wakeable u) || s.slotBusy w.coreKey o.slot || s.loadPending w.coreKey o.slot then .fault .notPossible
    else
      let stop := fun (s : State) => s.modUnit u fun w => { w with ovw := none }
      let pc := (w.lane ((lanesOf o.members).headD 0)).pc
      match s.loadImage w.part (s.asid w) w.slice o.va.toNat with
      | (_, .error .wait) => .fault .notPossible
      | (s, .error (.trap cause)) =>
        if w.busy o.members then .fault .notPossible
        else .next ((stop s).raiseLanes u o.members pc [] fun _ => trapRec cause o.va)
      | (s, .error (.fire pa)) =>
        .next ((stop s).freeze u o.members ((lanesOf o.members).map fun l => (l, o.va)) false pa)
      | (s, .ok code) =>
        .next ((s.setOvl w.coreKey o.slot { tag := none, code }).modUnit u fun w =>
          { w with ovw := some { o with copying := true } })

/-- OVERLAY_COPY_DONE (R162): the tag is set, and the warp is runnable past the OVLOAD. -/
def execOverlayCopyDone (u : Nat) (s : State) : Out State :=
  let w := s.unit u
  match w.ovw with
  | none => .fault .notPossible
  | some o =>
    if !o.copying || !(s.wakeable u) then .fault .notPossible
    else
      let code := (s.ovl w o.slot).code
      let s := (s.setOvl w.coreKey o.slot { tag := some o.va.toNat, code }).modUnit u fun w => { w with ovw := none }
      .next (s.modLanes u o.members fun _ t => { t with pc := t.pc + 4#32 })

/-! ### User interrupts (R170) -/

/-- The blocked threads of a warp that would take an interrupt: those in SLEEP, WAITGE, WAITTO or TBAR with the lowest PC. -/
def Warp.blockedGroup (w : Warp) : Word :=
  let b := w.lanesWhere w.liveMask fun t => match t.wait with
    | .counter _ _ _ _ _ | .barrier _ | .sleep _ _ => true
    | .none | .grow _ _ | .tile _ => false
  let pc := (lanesOf b).foldl (fun (p : Nat) l => Nat.min p (w.lane l).pc.toNat) (2 ^ 32)
  let m := w.lanesWhere b fun t => t.pc.toNat == pc
  match (lanesOf m).head? with
  | none => 0#32
  | some l => w.lanesWhere m fun t => t.slot == (w.lane l).slot

/-- UINT_DELIVERY (R170): a blocked warp takes its pending interrupt, in the group with the lowest PC; a Reckoner takes its own
at the boundary where it stands. A warp counts as blocked where every live thread of it waits: DEDUCED, log 114. An arrival at the barrier
is withdrawn (R275). -/
def execUintDelivery (u : Nat) (s : State) : Out State :=
  let w := s.unit u
  if w.reck then
    if s.reckUint u then .next (s.deliverUint u 1#32 (w.lane 0).pc (w.lane 0).slot) else .fault .notPossible
  else
    let m := w.blockedGroup
    if !w.uintReady || !(s.mayIssue u) || !(w.wd == .no) || m == 0#32 ||
        (lanesOf w.liveMask).any (fun l => (w.lane l).wait == .none) then .fault .notPossible
    else
      let t := w.lane ((lanesOf m).headD 0)
      .next (s.deliverUint u m t.pc t.slot)

end Sys2Proof.Machine
end

