-- ==== Sys2Proof/Machine/Regs.lean ====
section
/-!
DEFINITION. The register block of a slice (R7, R216, R279 to R281, R300, R305 to R308, R324, R336 to R338, R343): what its
registers read as, and what a write does.
-/

namespace Sys2Proof.Machine

/-- An entry that is disabled. -/
def rangeZero : RangeWords := { base := 0#64, size := 0#64, stk := 0#64, ctl := 0#64 }

/-- The partition that owns a slice; partition 24, which does not exist, where none does. -/
def State.owner (s : State) (sl : Nat) : Part := match (s.slice sl).part with
  | some p => s.part p
  | none => Part.init

/-- Changes the partition that owns a slice. -/
def State.modOwner (s : State) (sl : Nat) (f : Part → Part) : State := match (s.slice sl).part with
  | some p => s.modPart p f
  | none => s

/-! ### Reading (R305) -/

/-- A word of an address-range entry. -/
def rangeWord (r : RangeWords) (i : Nat) : DWord := if i = 0 then r.base else if i = 1 then r.size else if i = 2 then r.stk else r.ctl

/-- What a register reads as, by its offset; an offset that no register has reads as zero. -/
def State.regRead (s : State) (sl off : Nat) : DWord :=
  let x := s.slice sl
  let p := s.owner sl
  if 0x100 ≤ off ∧ off < 0x300 then rangeWord (p.ranges.getD ((off - 0x100) / 32) rangeZero) (off % 32 / 8)
  else match off with
    | 0x000 => x.fwviol
    | 0x008 => BitVec.ofNat 64 x.vcnt
    | 0x010 => if x.srBusy then 2#64 else 0#64
    | 0x018 => x.srdy.setWidth 64
    | 0x020 => x.irqroute.setWidth 64
    | 0x040 => x.mevstat.setWidth 64
    | 0x048 => x.mevcnt
    | 0x050 => x.mevaddr
    | 0x060 => p.pmctl.setWidth 64
    | 0x068 => p.pmstat.setWidth 64
    | 0x070 => p.pmbuf
    | 0x080 => x.actctl.setWidth 64
    | 0x088 => x.actaddr
    | 0x0A0 => p.sccmd
    | 0x0A8 => p.scstat.setWidth 64
    | 0x0B0 => p.sccons
    | 0x0C0 => p.tlbinv
    | _ => 0#64

/-! ### Registers with no behaviour of their own (R7) -/

/-- A word written into its writable bits. -/
def keep32 (mask v : Word) : Word := v &&& mask

/-- The bits of an entry that hold something (R343); the others read 0. -/
def rangeBits (r : RangeWords) : RangeWords :=
  { base := r.base &&& 0x000FFFFFFFFF0000#64, size := r.size &&& 0x000FFFFFFFFF0000#64, stk := r.stk &&& 0xFFFFFFFFFFFF#64,
    ctl := r.ctl &&& 0xFFFFF00EF#64 }

/-- A write of a word of an address-range entry (R343): a SET that names a stack outside the partition is ignored. -/
def Part.writeRange (p : Part) (i k : Nat) (v : DWord) : Part :=
  let r := p.ranges.getD i rangeZero
  let r' := rangeBits (if k = 0 then { r with base := v } else if k = 1 then { r with size := v } else if k = 2 then { r with stk := v }
    else { r with ctl := v })
  let new := if k = 2 && !(rangeWithin r' p.slices) then r else r'
  { p with ranges := p.ranges.set i new }

/-- A write of a register that holds only what is written, by its offset (R7): a write of a read-only register or of an offset
that no register has is ignored. -/
def State.regPlain (s : State) (sl off : Nat) (v : DWord) : State :=
  let w := v.lo
  match off with
  | 0x000 => if v.getLsbD 63 then s.modSlice sl fun y => { y with fwviol := y.fwviol &&& 0x7FFFFFFFFFFFFFFF#64 } else s
  | 0x020 => if (s.owner sl).slices.contains (w.toNat / 8 % 32) then s.modSlice sl fun y => { y with irqroute := keep32 0x800000FF#32 w } else s
  | 0x040 => s.modSlice sl fun y => { y with mevstat := y.mevstat &&& ~~~w }
  | 0x048 => s.modSlice sl fun y => { y with mevcnt := v &&& 0xFFFFFFFFFFFF#64 }
  | 0x050 => if v.getLsbD 63 then s.modSlice sl fun y => { y with mevaddr := y.mevaddr &&& 0x7FFFFFFFFFFFFFFF#64 } else s
  | 0x060 => s.modOwner sl fun p => { p with pmctl := keep32 0x80FFFFFF#32 w }
  | 0x068 => s.modOwner sl fun p => { p with pmstat := p.pmstat &&& ~~~w }
  | 0x070 => s.modOwner sl fun p => { p with pmbuf := v &&& 0xFFFFFFFFFFFFF#64 }
  | 0x088 => if v.getLsbD 63 then s.modSlice sl fun y => { y with actaddr := y.actaddr &&& 0x7FFFFFFFFFFFFFFF#64 } else s
  | 0x0B0 => s.modOwner sl fun p => { p with sccons := v }
  | _ => s

/-- Whether a register block can be written: its slice is owned, and FW is 1; till then what is sent to it waits (R307, R308). -/
def State.regUp (s : State) (sl : Nat) : Bool := (s.slice sl).part.isSome && (s.slice sl).srdy.getLsbD 2

/-- ADDRESS_RANGE_WRITE (R343): entry i of every slice of the partition. -/
def execAddressRangeWrite (sl off : Nat) (value : BitVec 64) (s : State) : Out State :=
  if !(s.regUp sl) || decide (off < 0x100) || decide (0x300 ≤ off) || off % 8 != 0 then .fault .notPossible
  else .next (s.modOwner sl fun p => p.writeRange ((off - 0x100) / 32) (off % 32 / 8) value)

/-! ### ACTCTL and PMCTL (R300, R336) -/

/-- A write of ACTCTL (R336): the thresholds, every count of the slice's stacks cleared, and both windows restarted. -/
def State.writeActctl (s : State) (sl : Nat) (v : Word) : State :=
  let s := s.modSlice sl fun y => { y with actctl := keep32 0x0FFFFFFF#32 v }
  let clear := fun (t : Stack) => { t with counts := [], base := [], win := (s.slice sl).clk }
  (s.modStack (2 * sl) clear).modStack (2 * sl + 1) clear

/-- ACTCTL_WRITE (R336). -/
def execActctlWrite (sl : Nat) (value : Word) (s : State) : Out State :=
  if !(s.regUp sl) then .fault .notPossible else .next (s.writeActctl sl value)

/-! ### The end of a firewall freeze (R306) -/

/-- One violating lane of a unit at RELALL: an access that has issued becomes a Protection fault; at a word that did not act,
the lane takes the trap there. -/
def State.protectLane (s : State) (u l : Nat) (va : DWord) : State :=
  let t := (s.unit u).lane l
  let r := trapRec Config.causeProtection va
  match t.flights.reverse.find? fun f => f.va == va && f.fault.isNone && f.isGlobal with
  | some f => s.modLanes u (laneBit l) fun _ t =>
      { t with flights := t.flights.map fun g => if g.seq = f.seq then { g with fault := some r } else g }
  | none => s.takeTrap u l t.pc [] r

/-- A unit's freeze ends: lanes in a region abort with CODE 0x05, the others take Protection (R249, R306). -/
def State.unfreeze (s : State) (u : Nat) : State :=
  match (s.unit u).frozen with
  | none => s
  | some z =>
    let s := s.modUnit u fun w => { w with frozen := none }
    let hit := maskOf fun l => z.lanes.any fun p => p.1 == l
    let inR := (s.unit u).lanesWhere hit Thread.inRegion
    let s := s.abortLanes u inR Config.abFault 0
    (z.lanes.filter fun p => !(inR.getLsbD p.1)).foldl (fun s p => s.protectLane u p.1 p.2) s

/-- A command that the firewall holds faults at RELALL: one held at its completion add has that add failed (R158, R306). -/
def State.releaseCmd (s : State) (sl : Nat) (c : Cmd) : State :=
  if (s.unit c.u).slice ≠ sl then s
  else match c.st with
    | .held va _ => s.modCmd c.id fun k => { k with st := .failing va }
    | .addHeld _ => s.failCmdAdd c
    | .queued | .running | .failing _ => s

/-- Releases the frozen warps, Reckoners and engines of a slice (R306). -/
def State.releaseUnits (s : State) (sl : Nat) : State :=
  let us := (s.units.filter fun p => p.2.live && p.2.slice == sl).map (·.1)
  let s := us.foldl (fun s u => s.unfreeze u) s
  (s.cmds.foldl (fun s c => s.releaseCmd sl c) s).modSlice sl fun y => { y with relPend := false }

/-- Releases every frozen master of a slice (R306): warps and Reckoners, engines, harts and the port. A Stall freeze of the partition
holds what reaches its warps and engines back until thaw (R298). -/
def State.releaseAll (s : State) (sl : Nat) : State :=
  let s : State := { s with
    harts := s.harts.map fun p =>
      (p.1, if p.1 / 8 = sl ∧ p.2.frozen = true then { p.2 with frozen := false, frozenPa := 0, fault := true } else p.2) }
  let s := s.modSlice sl fun y => { y with portFrozen := false, portPa := 0 }
  if (s.owner sl).stalled then s.modSlice sl fun y => { y with relPend := true } else s.releaseUnits sl

/-- FIREWALL_RELEASE_ALL (R306). -/
def execFirewallReleaseAll (sl : Nat) (s : State) : Out State :=
  if !(s.regUp sl) then .fault .notPossible else .next (s.releaseAll sl)

/-- A write of PMCTL (R300): EN and WINDOW, and with THAW the freeze ends and the window restarts; a RELALL that the freeze held back
follows (R298). -/
def State.writePmctl (s : State) (sl : Nat) (v : Word) : State :=
  let s := s.regPlain sl 0x060 (v.setWidth 64)
  if v.getLsbD 30 then
    let s := s.modOwner sl fun p => { p with stalled := false, activity := false, pmAt := (s.slice p.corner).clk }
    (s.owner sl).slices.foldl (fun s i => if (s.slice i).relPend then s.releaseUnits i else s) s
  else s

/-- PMCTL_THAW (R300): a write of PMCTL with THAW. -/
def execPmctlThaw (sl : Nat) (value : Word) (s : State) : Out State :=
  if !(s.regUp sl) || !(value.getLsbD 30) then .fault .notPossible else .next (s.writePmctl sl value)

/-! ### TLBINV (R214 to R216) -/

/-- A field of frames or pages in the layout of R209, whose other bits read as zero: bits [top:16] of 8 bytes. -/
def frameAt (b : List Byte) (o top : Nat) : Nat := fieldAt b o 8 / 65536 % 2 ^ (top - 15) * 65536

/-- A context's window and table base from its descriptor (R209, R215). -/
def ctxWindow (b : List Byte) (c : Ctx) : Ctx :=
  { c with hbase := frameAt b 0 54, hlimit := frameAt b 8 54, hoff := frameAt b 0x10 51, ptbase := frameAt b 0x18 51 }

/-- A context's fields from its descriptor (R215). -/
def ctxAt (desc : Nat) (b : List Byte) (old : Ctx) : Ctx :=
  { ctxWindow b old with
             asid := fieldAt b 0x20 2, desc, cpbase := fieldAt b 0x28 8, cpsize := fieldAt b 0x30 8, dpbase := fieldAt b 0x38 8,
             dpsize := fieldAt b 0x40 8, save := fieldAt b 0x48 8, savesz := fieldAt b 0x50 8 }

/-- Whether the bytes at a physical address can be reached now (R307, R339): those that lie in no range of the partition keep nothing
waiting. -/
def State.physReady (s : State) (pn pa n : Nat) : Bool :=
  (lineChunks pa n).all fun c => ((s.part pn).locate c.1).all fun l => s.lineReady l.key false

/-- The bytes that the slot controller or the monitor reads at a physical address of a partition; none where some lie in none of its
ranges, or on a poisoned line. -/
def State.physRead (s : State) (pn pa n : Nat) : State × Option (List Byte) :=
  (lineChunks pa n).foldl (fun (r : State × Option (List Byte)) c => match r with
    | (s, none) => (s, none)
    | (s, some bs) => match (s.part pn).locate c.1 with
      | none => (s, none)
      | some l => match s.reachLine l.key [0, 1] false l.cls with
        | (s, true) => (s, none)
        | (s, false) => (s, some (bs ++ s.bytes l.key c.2))) (s, some [])

/-- Writes bytes of one line. -/
def State.linePut (s : State) (l : Loc) (bs : List Byte) : State :=
  let (s, _) := s.reachLine l.key (s.readFirst l.key bs.length) false l.cls
  ((s.coverHalves l.key bs.length).writeBytes l.key bs).setPacked (l.key / 128) l.comp

/-- Writes bytes at a physical address of a partition, as far as they lie in its ranges. -/
def State.physWrite (s : State) (pn pa : Nat) (bs : List Byte) : State :=
  (lineChunks pa bs.length).foldl (fun s c => match (s.part pn).locate c.1 with
    | some l => s.linePut l ((bs.drop (c.1 - pa)).take c.2)
    | none => s) s

/-- Reloads the window and the table base of a context from its descriptor (R216). -/
def State.reloadCtx (s : State) (pn asid : Nat) : State :=
  match s.physRead pn ((s.part pn).ctx asid).desc 128 with
  | (s, none) => s
  | (s, some b) => s.modCtx pn asid (ctxWindow b)

/-- Whether a held translation falls under an operation (R216): a page of a contiguous group, or of a 512 MiB leaf, goes with
the whole group. -/
def tlbHit (op asid page : Nat) (t : TlbEnt) : Bool :=
  if op = 3 then true
  else if op = 0 then
    t.asid == asid &&
    (let n := if t.big then (if t.leaf.getLsbD 6 then 65536 else 8192) else if t.leaf.getLsbD 6 then 32 else 1
     t.page / n == page / n)
  else t.asid == asid

/-- A write of TLBINV starts an operation (R216); a write while BUSY is 1 waits. With OP 2 the new window and table base may be
in use before the operation has completed. -/
def State.writeTlbinv (s : State) (sl : Nat) (v : DWord) : Option State :=
  match (s.slice sl).part with
  | none => none
  | some pn =>
    if (s.part pn).tlbinv.getLsbD 63 then none
    else
      let s := s.modPart pn fun p => { p with tlbinv := (v &&& 0x607FFFFFFFFFFFFF#64) ||| 0x8000000000000000#64 }
      some (if v.toNat / 2 ^ 61 % 4 = 2 ∧ Config.oldTranslation s.tick % 2 = 0 ∧
          s.physReady pn ((s.part pn).ctx (v.toNat % 65536)).desc 128 then s.reloadCtx pn (v.toNat % 65536) else s)

/-- A write of TLBINV with one OP, as a step. -/
def tlbinvStep (op sl : Nat) (v : DWord) (s : State) : Out State :=
  if !(s.regUp sl) || v.toNat / 2 ^ 61 % 4 != op then .fault .notPossible
  else match s.writeTlbinv sl v with
    | some s => .next s
    | none => .fault .notPossible

/-- TLBINV_PAGE (R216). -/
def execTlbinvPage (sl : Nat) (value : BitVec 64) (s : State) : Out State := tlbinvStep 0 sl value s
/-- TLBINV_CONTEXT (R216). -/
def execTlbinvContext (sl : Nat) (value : BitVec 64) (s : State) : Out State := tlbinvStep 1 sl value s
/-- TLBINV_RELOAD (R216). -/
def execTlbinvReload (sl : Nat) (value : BitVec 64) (s : State) : Out State := tlbinvStep 2 sl value s
/-- TLBINV_ALL (R216). -/
def execTlbinvAll (sl : Nat) (value : BitVec 64) (s : State) : Out State := tlbinvStep 3 sl value s

/-- TLBINV_DONE (R216): no translation made from an old entry is used any more, on any slice of the partition. -/
def execTlbinvDone (pn : Nat) (s : State) : Out State :=
  let p := s.part pn
  let v := p.tlbinv.toNat
  let op := v / 2 ^ 61 % 4
  let asid := v % 65536
  if !(p.tlbinv.getLsbD 63) || (op == 2 && !(s.physReady pn (p.ctx asid).desc 128)) then .fault .notPossible
  else
    let s := if op = 2 then s.reloadCtx pn asid else s
    let s := p.slices.foldl (fun s sl => s.modSlice sl fun y => { y with tlb := y.tlb.filter fun t => !(tlbHit op asid (v / 2 ^ 16 % 2 ^ 39) t) }) s
    .next (s.modPart pn fun p => { p with tlbinv := p.tlbinv &&& 0x7FFFFFFFFFFFFFFF#64 })

/-! ### The slot controller's commands (R215, R312, R324) -/

/-- Whether a queue descriptor keeps R312. -/
def queueOk (b : List Byte) : Bool :=
  fieldAt b 0 8 % 128 == 0 && decide (4 ≤ fieldAt b 8 1) && decide (fieldAt b 8 1 ≤ 16) && decide (fieldAt b 9 1 ≤ 47) &&
  zeroAt b 10 6 && zeroAt b 32 32

/-- Whether a context descriptor keeps R209 and R215: the bits that the layouts call zero are zero too. -/
def ctxOk (b : List Byte) : Bool :=
  let c := ctxAt 0 b Ctx.init
  c.hbase == fieldAt b 0 8 && c.hlimit == fieldAt b 8 8 && c.hoff == fieldAt b 0x10 8 && c.ptbase == fieldAt b 0x18 8 &&
  decide (c.hbase + c.hlimit ≤ 2 ^ 55) && decide (c.hoff + c.hlimit ≤ 2 ^ 52) && decide (1 ≤ c.asid) &&
  zeroAt b 0x22 6 && c.cpbase % 65536 == 0 && c.cpsize % 65536 == 0 && c.dpbase % 128 == 0 && c.dpsize % 128 == 0 &&
  (c.dpsize == 0 || (decide (c.hbase ≤ c.dpbase) && decide (c.dpbase + c.dpsize ≤ c.hbase + c.hlimit))) &&
  c.save % 4096 == 0 && c.savesz % 4096 == 0 && zeroAt b 0x58 40

/-- The physical address, of those from `lo` to `lo + n` of a partition, at which a byte of the stacks lies, if there is one. -/
def Part.keyAt (p : Part) (lo n key : Nat) : Option Nat :=
  (p.ranges.map fun r => rangeUnmap r (key / 2 ^ 36) (key % 2 ^ 36)).find? fun pa =>
    decide (lo ≤ pa) && decide (pa < lo + n) && (p.locate pa).any fun l => l.key == key

/-- The part of a context's device pool that was not its pool before holds zeros (R226). -/
def State.zeroPool (s : State) (pn : Nat) (old c : Ctx) : State :=
  if c.dpsize = 0 then s
  else
    let has := fun (c : Ctx) (k : Nat) => ((s.part pn).keyAt (c.dpbase - c.hbase + c.hoff) c.dpsize k).isSome
    let gone := s.mem.filter fun x => has c x.1 && !(has old x.1)
    gone.foldl (fun s x => (s.writeByte x.1 0#8).setPacked (x.1 / 128) (s.homeComp x.1)) s

/-- The context that a descriptor's address names, brought in if it is not known; none where the descriptor cannot be read, R215 is
broken or another context has its number. -/
def State.bringCtx (s : State) (pn desc : Nat) : State × Option Nat :=
  match s.physRead pn desc 128 with
  | (s, none) => (s, none)
  | (s, some b) =>
    let asid := fieldAt b 0x20 2
    let c := (s.part pn).ctx asid
    if !(ctxOk b) || desc % 128 != 0 then (s, none)
    else if c.asid = asid then (s, if c.desc = desc then some asid else none)
    else
      let c := ctxAt desc b Ctx.init
      ((s.zeroPool pn Ctx.init c).modPart pn fun p => { p with ctxs := p.ctxs ++ [c] }, some asid)

/-- The value of a counter that the slot controller reads through a context. -/
def State.ctlCounter (s : State) (pn asid va : Nat) : State × Option CtrRef :=
  match s.counterAt pn asid (s.part pn).corner (BitVec.ofNat 64 va) with
  | (s, .ok (.ok r)) => (s, some r)
  | (s, .ok (.error _)) => (s, none)
  | (s, .error _) => (s, none)

/-- A result in SCSTAT, whose BUSY ends (R324). -/
def State.scResult (s : State) (pn r : Nat) : State := s.modPart pn fun p => { p with scstat := BitVec.ofNat 32 (256 * r) }

/-- OP 1: registers a queue; none while memory that it needs must be waited for. -/
def State.registerQueue (s : State) (pn block : Nat) (b : List Byte) : Option State :=
  if !(s.physReady pn (fieldAt b 8 8) 64 && s.physReady pn (fieldAt b 16 8) 128) then none
  else match s.physRead pn (fieldAt b 8 8) 64 with
    | (s, none) => some (s.scResult pn 1)
    | (s, some q) =>
      if !(queueOk q) then some (s.scResult pn 1)
      else match s.bringCtx pn (fieldAt b 16 8) with
        | (s, none) => some (s.scResult pn 1)
        | (t, some asid) =>
          if 1024 ≤ (s.part pn).queues.length then some (s.scResult pn 2)
          else match t.ctlCounter pn asid (fieldAt q 24 8) with
            | (_, none) => some (s.scResult pn 1)
            | (t, some r) =>
              let (t, bad) := t.reachCtr r
              if !r.ready then none
              else if bad then some (s.scResult pn 1)
              else
                let qid := ((List.range 1024).map (· + 1)).find? fun i => !((t.part pn).queues.any fun k => k.qid == i)
                let k : Queue := { qid := qid.getD 1, asid, ring := fieldAt q 0 8, logsz := fieldAt q 8 1, primax := fieldAt q 9 1,
                                   tail := fieldAt q 16 8, head := fieldAt q 24 8, n := (t.counterVal r.key).toNat }
                let t := t.physWrite pn (block + 4) (leBytes 4 k.qid)
                some ((t.modPart pn fun p => { p with queues := p.queues ++ [k] }).scResult pn 0)

/-- OP 2: stops watching a queue. -/
def State.removeQueue (s : State) (pn : Nat) (b : List Byte) : State :=
  let qid := fieldAt b 4 4
  if (s.part pn).queues.any fun k => k.qid == qid then
    (s.modPart pn fun p => { p with queues := p.queues.filter fun k => !(k.qid == qid) }).scResult pn 0
  else s.scResult pn 3

/-- OP 3: sets the event ring; the producer count goes on. -/
def State.setRing (s : State) (pn : Nat) (b : List Byte) : State :=
  if fieldAt b 8 8 % 4096 ≠ 0 ∨ fieldAt b 24 1 < 4 ∨ 16 < fieldAt b 24 1 ∨ fieldAt b 32 8 % 8 ≠ 0 then s.scResult pn 1
  else (s.modPart pn fun p => { p with ring := some { addr := fieldAt b 8 8, logsz := fieldAt b 24 1, prod := fieldAt b 32 8 } }).scResult pn 0

/-- Whether a command of the slot controller has been written and not ended (R324). -/
def Part.scBusy (p : Part) : Bool := p.scstat.getLsbD 0

/-- The bits of SCCMD that hold BLOCK. -/
def blockBits (v : DWord) : DWord := v &&& 0x000FFFFFFFFFFFC0#64

/-- A write of SCCMD starts a command and sets BUSY, while which it is ignored (R324). -/
def State.writeSccmd (s : State) (sl : Nat) (v : DWord) : State :=
  s.modOwner sl fun p => if p.scBusy then p else { p with sccmd := blockBits v, scstat := p.scstat ||| 1#32 }

/-- The command block that SCCMD names. -/
def State.scBlock (s : State) (pn : Nat) : State × Option (List Byte) := s.physRead pn (s.part pn).sccmd.toNat 64

/-- Whether a command block keeps its limits, for one of the three OPs. -/
def scBlockOk (b : List Byte) : Bool :=
  zeroAt b 1 3 && zeroAt b 25 7 && zeroAt b 40 24 && decide (1 ≤ fieldAt b 0 1) && decide (fieldAt b 0 1 ≤ 3)

/-- Whether the partition's slot controller is ready (R307). -/
def State.slotUp (s : State) (pn : Nat) : Bool := (s.slice (s.part pn).corner).srdy.getLsbD 4

/-- The command in SCCMD acts and ends, where its OP is `op`; a block that cannot be read, or that breaks a limit, gives RESULT 1
whatever `op`. None where it has to wait, or has another OP. -/
def State.scRun (s : State) (op pn : Nat) : Option State :=
  let block := (s.part pn).sccmd.toNat
  if !(s.slotUp pn) || !(s.physReady pn block 64) then none
  else match s.scBlock pn with
    | (s, none) => some (s.scResult pn 1)
    | (s, some b) =>
      if !(scBlockOk b) then some (s.scResult pn 1)
      else if fieldAt b 0 1 ≠ op then none
      else if op = 1 then s.registerQueue pn block b
      else if op = 2 then some (s.removeQueue pn b)
      else some (s.setRing pn b)

/-- A command of the slot controller with one OP, as a step: the write of SCCMD, unless it has been made, and what the command does. -/
def scStep (op sl : Nat) (v : DWord) (s : State) : Out State :=
  match (s.slice sl).part with
  | none => .fault .notPossible
  | some pn =>
    if !(s.regUp sl) || (s.part pn).scBusy && (s.part pn).sccmd != blockBits v then .fault .notPossible
    else match (s.writeSccmd sl v).scRun op pn with
      | some s => .next s
      | none => .fault .notPossible

/-- SC_REGISTER_QUEUE (R324). -/
def execScRegisterQueue (sl : Nat) (value : BitVec 64) (s : State) : Out State := scStep 1 sl value s
/-- SC_REMOVE_QUEUE (R324). -/
def execScRemoveQueue (sl : Nat) (value : BitVec 64) (s : State) : Out State := scStep 2 sl value s
/-- SC_SET_EVENT_RING (R324). -/
def execScSetEventRing (sl : Nat) (value : BitVec 64) (s : State) : Out State := scStep 3 sl value s

/-! ### Slice reset and readiness (R307, R308) -/

/-- The IRQROUTE value that a reset gives (R306): EN = 1, the corner slice, hart 0. -/
def resetRoute (corner : Nat) : Word := BitVec.ofNat 32 (2 ^ 31 + 8 * corner)

/-- The slice's own registers at the Reset values of their maps; those that act for the whole partition keep theirs (R308). -/
def Slice.resetRegs (x : Slice) (corner : Nat) : Slice :=
  { x with srdy := 0#32, srWait := x.srdy, srBusy := !(x.srdy == 0#32), fwviol := 0#64, vcnt := 0, irqroute := resetRoute corner,
           mevstat := 0#32, mevcnt := 0#64, mevaddr := 0#64, actctl := 0x01E3C78F#32, actaddr := 0#64, binds := [],
           portFrozen := false, portPa := 0, upAt := x.clk, relPend := false }

/-- Clears what stands on a slice's cores, clusters and harts, the harts' reservations with them. -/
def State.clearSlice (s : State) (sl : Nat) : State :=
  { s with cores := s.cores.filter fun p => !(p.1 / 64 == sl), rovl := s.rovl.filter fun p => !(p.1 / 16 == sl),
           harts := s.harts.filter fun p => !(p.1 / 8 == sl), resv := s.resv.filter fun r => !(r.1 / 8 == sl) }

/-- The SEALUs of an open context that its void must still absorb: those before any other seal command of the unit, and not held by
the firewall (R190). -/
def State.absorbs (s : State) (c : Cmd) : Bool :=
  let mine := (s.cmds.filter fun k => k.u == c.u && k.cls == 5).takeWhile fun k => k.op == .sealu
  (s.unit c.u).sealCtx.isSome && (mine.any fun k => k.id == c.id) && match c.st with
    | .held _ _ | .addHeld _ => false
    | .queued | .running | .failing _ => true

/-- Ends commands without effect, but for the SEALUs that a void must still absorb (R190, R308). -/
def State.endCmds (s : State) (us : List Nat) : State :=
  let out := s.cmds.filter fun c => us.contains c.u && !(s.absorbs c)
  let s := out.foldl (fun s c => (s.unmarkAll c).leaveChain c) s
  { s with cores := s.cores.map fun p => (p.1, { p.2 with mq := p.2.mq.filter fun o => !(us.contains o.u) }) }

/-- Ends every team, Reckoner thread and engine command of a slice (R308): each team as a fatal team fault with cause 0x00, open
seal contexts to be voided with reason 3. -/
def State.endSlice (s : State) (sl : Nat) : State :=
  let us := (s.units.filter fun p => p.2.slice == sl && !(p.2.wd == .saved)).map (·.1)
  let tms := (Tab.keys s.teams).filter fun t => (s.team t).slice == sl && (s.team t).st == .placed
  let s := s.endCmds us
  let s := us.foldl (fun s u => if (s.unit u).reck then s.stopUnit u 3 else s) s
  tms.foldl (fun s t => s.faultTeam t 3 0 0 0 0#32 0#64) s

/-- The slot table of a slice is cleared (R308): teams that a place record named and that are not placed are to be placed anew. -/
def State.dropBinds (s : State) (sl : Nat) : State :=
  (s.slice sl).binds.foldl (fun s p =>
    if p.2.v && p.2.op == 1 then s.modGrid p.2.grid fun g => { g with holes := g.holes ++ [(p.2.team0, p.2.nteam)] } else s) s

/-- Whether a resize step is moving a slice, which a reset waits for (R308, R310). -/
def State.moving (s : State) (sl : Nat) : Bool :=
  !((s.slice sl).placing) && (s.owner sl).resize.any fun r => r.todo.contains sl

/-- A write of SRCTL.RESET (R308); ignored while BUSY is 1. -/
def State.resetSlice (s : State) (sl : Nat) : State :=
  let x := s.slice sl
  if x.srBusy then s
  else
    let s := ((s.endSlice sl).clearSlice sl).dropBinds sl
    let s := s.modSlice sl fun y => y.resetRegs (s.owner sl).corner
    if x.srdy = 0#32 then s.sliceIrq sl (.resetEnd sl) else s

/-- SLICE_RESET (R308). -/
def execSliceReset (sl : Nat) (s : State) : Out State :=
  if !(s.regUp sl) || (s.slice sl).srBusy || s.moving sl then .fault .notPossible else .next (s.resetSlice sl)

/-- The bits of SRDY that a slice has (R307): ROT on slice 0, and on slice 23 while the standby is active. -/
def State.srdyBit (s : State) (sl bit : Nat) : Bool :=
  (decide (2 ≤ bit) && decide (bit ≤ 12)) || (decide (16 ≤ bit) && decide (bit ≤ 31)) ||
  (bit == 0 && (sl == 0 || (sl == 23 && s.rot.standby)))

/-- FUNCTION_READY (R307, R308): a function sets its bit, FW first; with the last bit that a reset waits for, BUSY clears and the
end of the reset is signalled. -/
def execFunctionReady (sl bit : Nat) (s : State) : Out State :=
  let x := s.slice sl
  if !s.powered || decide (24 ≤ sl) || !(s.srdyBit sl bit) || x.srdy.getLsbD bit || (bit != 2 && !(x.srdy.getLsbD 2)) then
    .fault .notPossible
  else
    let r := x.srdy ||| (1#32 <<< bit)
    let ends := x.srBusy && (x.srWait &&& ~~~r) == 0#32
    let s := s.modSlice sl fun y => { y with srdy := r, srBusy := y.srBusy && !ends }
    .next (if ends then s.sliceIrq sl (.resetEnd sl) else s)

/-! ### Writing any register (R305) -/

/-- A write of a register by its offset; none where it waits. -/
def State.regWrite (s : State) (sl off : Nat) (v : DWord) : Option State :=
  if 0x100 ≤ off ∧ off < 0x300 then some (s.modOwner sl fun p => p.writeRange ((off - 0x100) / 32) (off % 32 / 8) v)
  else match off with
    | 0x008 => some (if v.getLsbD 31 then s.releaseAll sl else s)
    | 0x010 => if v.getLsbD 0 then (if s.moving sl then none else some (s.resetSlice sl)) else some s
    | 0x060 => some (s.writePmctl sl v.lo)
    | 0x080 => some (s.writeActctl sl v.lo)
    | 0x0A0 => some (s.writeSccmd sl v)
    | 0x0C0 => s.writeTlbinv sl v
    | _ => some (s.regPlain sl off v)

/-- Whether an offset is that of a register (R305). -/
def regKnown (off : Nat) : Bool :=
  [0x000, 0x008, 0x010, 0x018, 0x020, 0x040, 0x048, 0x050, 0x060, 0x068, 0x070, 0x080, 0x088, 0x0A0, 0x0A8, 0x0B0, 0x0C0].contains off ||
  (decide (0x100 ≤ off) && decide (off < 0x300) && off % 8 == 0)

/-- REGISTER_WRITE (R7): a host core of the owning partition writes a register of the slice's block. -/
def execRegisterWrite (sl off : Nat) (value : BitVec 64) (s : State) : Out State :=
  if !(s.regUp sl) || !(regKnown off) then .fault .notPossible
  else match s.regWrite sl off value with
    | some s => .next s
    | none => .fault .notPossible

end Sys2Proof.Machine
end

