-- ==== Sys2Proof/Machine/Monitor.lean ====
section
/-!
DEFINITION. The progress monitor and its snapshot (R299 to R301), the debugger (R293), and a grid that the kernel ends (R301).
-/

namespace Sys2Proof.Machine

/-! ### Waiters (R301) -/

/-- An entry of the snapshot. -/
structure Waiter where
  agent : Word
  kind : Nat
  tile : Nat
  addr : Nat
  thresh : Nat
  value : Nat
deriving DecidableEq, Repr

/-- An entry that names no tile and no counter. -/
def plainWaiter (agent : Word) (kind addr : Nat) : Waiter := { agent, kind, tile := 0xFFFF, addr, thresh := 0, value := 0 }

/-- The entry of a blocked wait. -/
def State.waitEntry (s : State) (w : Warp) (ag : Word) : Wait → List Waiter
  | .none => []
  | .counter va thr _ _ _ =>
    [{ agent := ag, kind := 1, tile := 0xFFFF, addr := va.toNat, thresh := thr.toNat,
       value := match (s.counterAt w.part (s.asid w) w.slice va).2 with
         | .ok (.ok r) => (s.counterVal r.key).toNat
         | .ok (.error _) => 0
         | .error _ => 0 }]
  | .barrier _ => [plainWaiter ag 2 0]
  | .sleep _ _ => []
  | .grow _ _ => [plainWaiter ag 4 0]
  | .tile t => [{ agent := ag, kind := 3, tile := t, addr := 0, thresh := 0, value := 0 }]

/-- The engine class of an engine word's opcode; 0 for another word (R182). -/
def opClass (op : Nat) : Nat :=
  if 0x4D ≤ op ∧ op ≤ 0x4F then 1 else if op = 0x50 ∨ op = 0x51 then 2 else if op = 0x52 then 4
  else if 0x53 ≤ op ∧ op ≤ 0x55 then 5 else if op = 0x56 then 6 else 0

/-- The page that a write waits for (R219). -/
def State.snapWait (s : State) (w : Warp) (va : DWord) (n : Nat) : List Nat :=
  match (s.check w.part (s.asid w) w.slice va n true).2 with
  | .ok x => if x.sn then [va.toNat / 65536 * 65536] else []
  | .trap _ | .nonres | .wait => []

/-- The pages for whose copies the L-set store or atomic that a group is to issue waits (R219): those of its acting lanes that would
write memory. -/
def State.laneWaits (s : State) (u : Nat) (m x lit : Word) : List Nat :=
  let w := s.unit u
  let kd := memKind (wordOp x)
  let c := (s.atWord u m (wordLen x)).cur
  let act := w.lanesWhere m fun t => lguard t ((x >>> 21).setWidth 3) && !(t.inTx && !t.serial) && !(t.inTry && match kd with
    | .store _ => true
    | .load _ | .atomic _ | .reduce _ => false)
  match srcField (x.toNat / 2 ^ 7 % 128) lit with
  | none => []
  | some a => ((lanesOf act).flatMap fun l => s.snapWait w (flightOf c w l 0 x a (x.toNat / 16 % 8) []).va kd.size).eraseDups

/-- Whether an L-set word is a store or an atomic to global memory (R54). -/
def writesGlobal (x : Word) : Bool :=
  !(x.getLsbD 31) && ((decide (0x57 ≤ wordOp x) && decide (wordOp x ≤ 0x5B)) || (decide (0x62 ≤ wordOp x) && decide (wordOp x ≤ 0x6C)))

/-- The pages for whose copies a COMMIT or a TXCLOSE of some members waits (R219): of their buffered stores, or their logged writes. -/
def State.closeWaits (s : State) (w : Warp) (m : Word) (commit : Bool) : List Nat :=
  (lanesOf m).flatMap fun l =>
    let t := w.lane l
    if commit then (if t.inTry then t.sp.buf.flatMap fun b => if b.isLocal then [] else s.snapWait w (BitVec.ofNat 64 b.addr) b.bytes.length
      else [])
    else if t.inTx && !t.serial then t.sp.wvas.flatMap fun sec => s.snapWait w (BitVec.ofNat 64 (32 * sec)) 1
    else []

/-- The page for whose copy the next entry of a thread's replay queue waits (R219, R291). -/
def State.replayWaits (s : State) (w : Warp) (l : Nat) : List Nat :=
  match (w.lane l).replay with
  | [] => []
  | e :: _ =>
    if !(writesGlobal e.word) then []
    else s.snapWait w (flightOf { s.cur with replay := some e } w l 0 e.word .zero 0 []).va (memKind (wordOp e.word)).size

/-- What the word that a unit's group is to issue waits for: a full chain, matrix queue or child queue, or a page being copied. -/
def State.wordEntry (s : State) (u : Nat) (ag : Word) : List Waiter :=
  let w := s.unit u
  let m := s.groupOf u
  let t := w.lane ((lanesOf m).headD 0)
  let ws := (s.ovl w t.slot).wordsAt t.pc
  let x := ws.headD 0#32
  let op := x.toNat / 2 ^ 24 % 128
  let g : BitVec 3 := (x >>> 21).setWidth 3
  if m = 0#32 then []
  else if writesGlobal x then (s.laneWaits u m x (ws.getD 1 0#32)).map fun a => plainWaiter ag 10 a
  else if !(x.getLsbD 31) || !(qguard w.u g) then []
  else if opClass op ≠ 0 then
    (match s.tileTeam w with
     | some tm => if s.chainFull tm (opClass op) then [plainWaiter ag 5 0] else []
     | none => [])
  else if 0x58 ≤ op ∧ op ≤ 0x5C ∧ w.reck = true then
    (if s.matFull u (64 * w.slice + w.core / 4 * 4 + x.toNat % 4) then [plainWaiter ag 8 0] else [])
  else if op = 0x2D then (if 256 ≤ (s.slice w.slice).childQ.length then [plainWaiter ag 9 0] else [])
  else if op = 0x45 ∨ op = 0x47 then ((s.closeWaits w m (op == 0x45)).eraseDups).map fun a => plainWaiter ag 10 a
  else if 0x32 ≤ op ∧ op ≤ 0x35 then
    let b := if x.getLsbD 14 then (w.u.getS (x.toNat / 8 % 64)).setWidth 64 else 0#64
    (s.snapWait w (w.u.getPair (x.toNat / 512 % 8) + b) (if op = 0x33 then 8 else 4)).map fun a => plainWaiter ag 10 a
  else []

/-- The entries of a unit, one for each thing that threads of it wait for. -/
def State.unitWaiters (s : State) (u : Nat) : List Waiter :=
  let w := s.unit u
  let ag := tconf s (.unit u)
  let p := s.part w.part
  (match w.frozen with
   | some z => [plainWaiter ag 0 z.pa]
   | none => []) ++
  (((lanesOf w.liveMask).map fun l => (w.lane l).wait).eraseDups.flatMap fun x => s.waitEntry w ag x) ++
  (if p.tokenQ.any fun q => q.1 == u then [plainWaiter ag 6 0] else []) ++
  (if w.ovw.isSome then [plainWaiter ag 7 0] else []) ++
  (if w.sysc.isSome then [plainWaiter ag 11 0] else []) ++
  ((((lanesOf w.liveMask).flatMap fun l => ((w.lane l).flights.filter fun f => f.isGlobal && f.kind.writes && f.fault.isNone).flatMap fun f =>
      s.snapWait w f.va f.kind.size).eraseDups).map fun a => plainWaiter ag 10 a) ++
  (((lanesOf w.liveMask).flatMap fun l => s.replayWaits w l).eraseDups.map fun a => plainWaiter ag 10 a) ++
  s.wordEntry u ag

/-- The bytes that an operation writes, a copy's from memory to memory too. -/
def EOp.writes : EOp → List (Nat × Nat)
  | .move _ dst n => [(dst.toNat, n)]
  | .refuse va => (EOp.refuse va).dst
  | .fill ta n => (EOp.fill ta n).dst
  | .load va n ta => (EOp.load va n ta).dst
  | .store ta n va => (EOp.store ta n va).dst
  | .loadBits row va sh ta => (EOp.loadBits row va sh ta).dst
  | .storeBits ta row va sh => (EOp.storeBits ta row va sh).dst
  | .block va code valid ta => (EOp.block va code valid ta).dst
  | .rmw ta va op => (EOp.rmw ta va op).dst
  | .put va bs => (EOp.put va bs).dst

/-- The bytes of memory that a running command has still to write. -/
def State.engWrites (s : State) (c : Cmd) : List (Nat × Nat) :=
  (match (s.planOf c).2 with
   | .ok p => (c.left p).ops.flatMap EOp.writes
   | .error _ => []) ++
  (if c.op = .ckpt ∧ c.marked = [] then [(fieldAt c.recb 32 8, 8)] else []) ++
  (match c.op, (s.unit c.u).sealCtx with
   | .sealb, some k => [(k.area.toNat, 256)]
   | .sealb, none | .cpyin, _ | .cpyout, _ | .cpygg, _ | .gather, _ | .scatter, _ | .coll, _ | .sealu, _ | .sealf, _ | .ckpt, _ => [])

/-- The engines of a partition that write to pages being copied (R219). -/
def State.engWaiters (s : State) (pn : Nat) : List Waiter :=
  s.cmds.flatMap fun c =>
    let w := s.unit c.u
    if !(w.part == pn) || !(c.st == .running) then []
    else (((s.engWrites c).flatMap fun p => (pagesOf p.1 p.2).flatMap fun g => s.snapWait w (BitVec.ofNat 64 (Nat.max g p.1)) 1).eraseDups).map
      fun a => plainWaiter (tconf s c.agent) 10 a

/-- The engines, harts and ports of a partition that the firewall holds (R306). -/
def State.frozenWaiters (s : State) (pn : Nat) : List Waiter :=
  (s.cmds.flatMap fun c => if (s.unit c.u).part = pn then (match c.st with
      | .held _ pa | .addHeld pa => [plainWaiter (tconf s c.agent) 0 pa]
      | .queued | .running | .failing _ => []) else []) ++
  (s.harts.flatMap fun h => if h.2.frozen && (s.part pn).slices.contains (h.1 / 8) then
      [plainWaiter (tconf s (.hart (h.1 / 8) (h.1 % 8))) 0 h.2.frozenPa] else []) ++
  ((s.part pn).slices.flatMap fun sl => if (s.slice sl).portFrozen then [plainWaiter (tconf s (.port sl)) 0 (s.slice sl).portPa] else [])

/-- The waiters of a partition. -/
def State.waiters (s : State) (pn : Nat) : List Waiter :=
  (((s.units.filter fun p => p.2.live && p.2.part == pn && !(p.2.wd == .saved)).map (·.1)).flatMap fun u => s.unitWaiters u) ++
  s.engWaiters pn ++ s.frozenWaiters pn

/-- An entry's 32 bytes. -/
def Waiter.bytes (x : Waiter) : List Byte :=
  leBytes 4 x.agent.toNat ++ leBytes 2 x.kind ++ leBytes 2 x.tile ++ leBytes 8 x.addr ++ leBytes 8 x.thresh ++ leBytes 8 x.value

/-- Writes the snapshot into PMBUF; TRUNC says whether it did not take every waiter (R300, R301). -/
def State.snapshot (s : State) (pn : Nat) : State :=
  let p := s.part pn
  let ws := s.waiters pn
  let pages := p.pmbuf.toNat % 4096
  if pages = 0 then s
  else
    let n := Nat.min ws.length (128 * pages - 1)
    let low := p.slices.foldl Nat.min 23
    let head := leBytes 4 ws.length ++ leBytes 4 n ++ leBytes 8 (s.slice low).clk.toNat ++ List.replicate 16 0#8
    let s := s.physWrite pn (p.pmbuf.toNat / 4096 * 4096) (head ++ (ws.take n).flatMap Waiter.bytes)
    s.modPart pn fun p => { p with pmstat := if n < ws.length then p.pmstat ||| 2#32 else p.pmstat &&& ~~~2#32 }

/-- Whether the lines of PMBUF that a snapshot would be written to can be written now (R307, R339). -/
def State.snapReady (s : State) (pn : Nat) : Bool :=
  let p := s.part pn
  let pages := p.pmbuf.toNat % 4096
  pages == 0 || s.physReady pn (p.pmbuf.toNat / 4096 * 4096) (32 + 32 * Nat.min (s.waiters pn).length (128 * pages - 1))

/-- Whether a grid of the partition is placed or saved (R299). -/
def State.monitored (s : State) (pn : Nat) : Bool :=
  (s.teams.any fun p => (p.2.st == .placed || p.2.st == .saved) && (s.grid p.2.grid).part == pn) ||
  s.units.any fun p => p.2.live && p.2.reck && p.2.part == pn

/-- PROGRESS_WINDOW_END (R299, R300): WINDOW µs, 3,000 cycles each, have passed. A window without activity sets STALL, writes the snapshot, freezes the partition and interrupts
its kernel; any other window is followed by the next. -/
def execProgressWindowEnd (pn : Nat) (s : State) : Out State :=
  let p := s.part pn
  let now := (s.slice p.corner).clk
  if !p.live || !(p.pmctl.getLsbD 31) || p.stalled || !(s.monitored pn) ||
      decide (now.toNat < p.pmAt.toNat + 3000 * Nat.max 1 (p.pmctl.toNat % 2 ^ 24)) then .fault .notPossible
  else if p.activity then .next (s.modPart pn fun p => { p with activity := false, pmAt := now })
  else if !(s.snapReady pn) then .fault .notPossible
  else
    let s := s.snapshot pn
    let s := s.modPart pn fun p => { p with stalled := true, pmstat := p.pmstat ||| 1#32 }
    .next (s.sliceIrq p.corner .stall)

/-! ### The debugger (R293) -/

/-- DEBUG_HALT (R293): the warp's threads are not runnable any more, and open regions of it end with CODE 0x07; a warp that holds
the serial token is halted after the release (R248). A debugger is attached to the grid from then on. -/
def execDebugHalt (u : Nat) (s : State) : Out State :=
  let w := s.unit u
  if !w.live || w.halted || (s.part w.part).stalled || s.holdsToken u then .fault .notPossible
  else
    let s := s.abortLanes u allLanes Config.abPreempted 0
    .next ((s.modUnit u fun w => { w with halted := true }).modGrid w.grid fun g => { g with debug := true })

/-- A thread's pending Breakpoint is delivered to TVEC, whose handler it stands at already; fatal where its trap would be
(R292, R293). -/
def State.deliverBreak (s : State) (u l : Nat) (mask : Bool) : State :=
  let w := s.unit u
  let t := w.lane l
  let s := s.modLanes u (laneBit l) fun _ t => { t with pend := none }
  let tpc := t.frameWord 4
  if mask then s.fatal u Config.causeDouble Config.causeBreakpoint tpc 0#64
  else if w.u.tvec = 0xFFFFFFFF#32 then s.fatal u Config.causeBreakpoint 0 tpc 0#64
  else s.modUnit u fun w => { w with sched := { w.sched with hold := 0 } }

/-- A thread's pending Breakpoint is dropped, its CAUSE written to 0: it continues at TPC after its queue, as TRET does, with the trap
mode and the mask it had (R293). -/
def Thread.skipBreak (t : Thread) (oneSlot : Bool) (tag : Nat → Option Nat) (was : Bool × Bool) : Thread :=
  { t.tret oneSlot tag with trapMode := was.1, mask := was.2, pend := none, frame := Tab.set 0#32 t.frame 0 0#32 }

/-- DEBUG_RESUME (R293): the debugger lets a halted warp, or a thread that a Breakpoint holds, go on; the grace window of a withdrawal
that met the halt runs from then (R298); `skip` is a CAUSE it has
written to 0. -/
def execDebugResume (u lane : Nat) (skip : Bool) (s : State) : Out State :=
  let w := s.unit u
  let t := w.lane lane
  if !w.live || !((s.grid w.grid).debug) || (!w.halted && t.pend.isNone) || (s.part w.part).stalled then .fault .notPossible
  else
    let s := s.modUnit u fun x => { x with halted := false, wdAt := if x.wd == .preparing then s.clk w else x.wdAt }
    match t.pend with
    | none => .next s
    | some was =>
      if skip then .next (s.modLanes u (laneBit lane) fun _ t => t.skipBreak w.reck (fun k => (s.ovl w k).tag) was)
      else .next (s.deliverBreak u lane was.2)

/-! ### A grid that the kernel ends (R190, R301) -/

/-- The teams a grid has in all (R314). -/
def Grid.teams (g : Grid) : Nat := fieldAt g.recb 0x10 4 * fieldAt g.recb 0x14 4 * fieldAt g.recb 0x18 4

/-- GRID_END_BY_KERNEL (R301): after a Stall freeze the kernel ends a grid: its threads stop, its seal contexts are voided with
reason 3, a serial token it holds passes on, and its commands end. No team of it is placed any more. -/
def execGridEndByKernel (grid : Nat) (s : State) : Out State :=
  let g := s.grid grid
  if !(g.st == .accepted || g.st == .eligible) || !((s.part g.part).stalled) then .fault .notPossible
  else
    let us := (s.units.filter fun p => p.2.grid == grid).map (·.1)
    let tms := (Tab.keys s.teams).filter fun t => (s.team t).grid == grid && (s.team t).st == .saved
    let s := s.endCmds us
    let s := tms.foldl (fun s t => s.modTeam t fun t => { t with st := .placed }) s
    let s := us.foldl (fun s u => s.stopUnit u 3) s
    .next ((s.active g.part).modGrid grid fun g => { g with st := .eligible, placed := g.teams, ended := g.teams, holes := [] })

end Sys2Proof.Machine
end

