-- ==== Sys2Proof/Machine/Launch.lean ====
section
/-!
DEFINITION. From the ring to an eligible grid (R127, R173, R218, R267, R312 to R317), how a grid retires (R40), and the event
ring (R323, R324).
-/

namespace Sys2Proof.Machine

/-! ### The launch record (R127, R139, R314) -/

/-- Threads of a team. -/
def recThreads (b : List Byte) : Nat := fieldAt b 0x1C 2 * fieldAt b 0x1E 1 * fieldAt b 0x1F 1

/-- Warps of a team (R20). -/
def recWarps (b : List Byte) : Nat := (recThreads b + 31) / 32

/-- Whether a record names a Reckoner entry (R36). -/
def recReck (b : List Byte) : Bool := fieldAt b 0x0C 4 != 0xFFFFFFFF

/-- Flag bit 0: all teams are resident at once (R320). -/
def recWhole (b : List Byte) : Bool := fieldAt b 0x26 1 % 2 == 1

/-- T, the teams that a core holds (R127). -/
def recT (b : List Byte) : Nat :=
  let w := recWarps b
  let t := Nat.min 32 (Nat.min (64 / w) (512 * fieldAt b 0x22 1 / (fieldAt b 0x20 1 * w)))
  let t := if 0 < fieldAt b 0x23 1 then Nat.min t 4 else t
  if recReck b then Nat.min t 1 else t

/-- Bytes of a team's local window (R128). -/
def recWindow (b : List Byte) : Nat := fieldAt b 0x23 1 * 65536 / recT b / 256 * 256

/-- Whether a record places its teams on a board (R120). -/
def recBoard (b : List Byte) : Bool := recReck b && recWhole b

/-- Teams of the grid (R19). -/
def recTeams (b : List Byte) : Nat := fieldAt b 0x10 4 * fieldAt b 0x14 4 * fieldAt b 0x18 4

/-- The reasons that the record itself shows, in ascending order (R314): the first that holds. -/
def recReason (b : List Byte) (primax : Nat) : Option Nat :=
  let f := fun (o n : Nat) => fieldAt b o n
  let dim := fun (o : Nat) => decide (1 ≤ f o 4) && decide (f o 4 ≤ 2 ^ 31)
  let (r, c) := boardShape b
  if 2 ≤ f 0x26 1 ∨ f 0x78 8 ≠ 0 then some 2
  else if !(dim 0x10 && dim 0x14 && dim 0x18) || recThreads b == 0 || decide (1024 < recThreads b) then some 3
  else if f 0x20 1 % 8 ≠ 0 ∨ f 0x20 1 < 16 ∨ 120 < f 0x20 1 then some 4
  else if primax < f 0x21 1 then some 5
  else if f 0x22 1 < 4 ∨ f 0x24 1 < 2 ∨ 24 < f 0x22 1 + f 0x23 1 + f 0x24 1 ∨ recT b = 0 then some 6
  else if 4 < r ∨ 4 < c ∨ (1 < r * c ∧ (recReck b = false ∨ recWhole b = false)) ∨ (recBoard b = true ∧ r * c < recTeams b) then some 7
  else if (List.range 8).any fun i => !(slotValid (BitVec.ofNat 32 (f (0x50 + 4 * i) 4))) then some 8
  else if 3 < f 0x27 1 then some 9
  else none

/-- Why the slot controller does not have what it reads beyond a record: a limit is broken, for this reason, or it has to wait (R283,
R307, R339). -/
inductive CtlErr where
  | refused (reason : Nat)
  | wait
deriving DecidableEq, Repr

/-- Whether the entries of a record lie in an image's code (R314). -/
def entriesOk (b : List Byte) (code : List Word) : Bool :=
  let inside := fun (o : Nat) (none : Bool) =>
    let x := fieldAt b o 4
    (x % 4 == 0 && decide (x < 4 * code.length)) || (none && x == 0xFFFFFFFF)
  inside 0x08 false && inside 0x0C true && inside 0x70 true && inside 0x74 true

/-- Whether the image of a record and its entries keep their limits (R161, R314): reason 11. -/
def State.recImage (s : State) (pn asid : Nat) (b : List Byte) : State × Except CtlErr Unit :=
  match s.loadImage pn asid (s.part pn).corner (fieldAt b 0 8) with
  | (s, .error .wait) => (s, .error .wait)
  | (s, .error (.trap _)) | (s, .error (.fire _)) => (s, .error (.refused 11))
  | (s, .ok code) => (s, if entriesOk b code then .ok () else .error (.refused 11))

/-- Whether a counter field is 0 or names an aligned word of a counter page (R314): reason 13. -/
def State.recCounter (s : State) (pn asid va : Nat) : State × Except CtlErr Unit :=
  if va = 0 then (s, .ok ())
  else if va % 8 ≠ 0 then (s, .error (.refused 13))
  else if s.walkWaits pn asid (s.part pn).corner (BitVec.ofNat 64 va) then (s, .error .wait)
  else match s.translate pn asid (s.part pn).corner (BitVec.ofNat 64 va) with
    | (s, .ok x) => (s, if x.k then .ok () else .error (.refused 13))
    | (s, .error _) => (s, .error (.refused 13))

/-- Bytes of a range list, which the slot controller reads through a context, line by line: reason 12 where a page does not translate,
is not resident or lies in no range of the partition, or a line is poisoned. -/
def State.ctlBytes (s : State) (pn asid va n : Nat) : State × Except CtlErr (List Byte) :=
  (lineChunks va n).foldl (fun (r : State × Except CtlErr (List Byte)) c => match r with
    | (s, .error e) => (s, .error e)
    | (s, .ok bs) => match s.check pn asid (s.part pn).corner (BitVec.ofNat 64 c.1) 1 false with
      | (s, .wait) => (s, .error .wait)
      | (s, .trap _) | (s, .nonres) => (s, .error (.refused 12))
      | (s, .ok x) => match (s.part pn).locate x.pa with
        | none => (s, .error (.refused 12))
        | some l =>
          if !(s.lineReady l.key (x.pol == 2)) then (s, .error .wait)
          else match s.reachLine l.key [0, 1] (x.pol == 2) l.cls with
            | (s, true) => (s, .error (.refused 12))
            | (s, false) => (s, .ok (bs ++ s.bytes l.key c.2))) (s, .ok [])

/-- The ranges that the entries of a list give, VA and length, where they keep R316: alignment and zero bits. -/
def listEntries (n : Nat) (b : List Byte) : Option (List (Nat × Nat)) :=
  if (List.range n).all fun i =>
      fieldAt b (16 * i) 8 % 65536 == 0 && fieldAt b (16 * i + 8) 4 % 65536 == 0 && fieldAt b (16 * i + 8) 4 != 0 &&
      decide (fieldAt b (16 * i + 12) 1 < 4) && zeroAt b (16 * i + 13) 3
  then some ((List.range n).map fun i => (fieldAt b (16 * i) 8, fieldAt b (16 * i + 8) 4)) else none

/-- The ranges of a range list, VA and length, where the list keeps R316: COUNT, alignment, zero bits, and valid pages. -/
def State.rangeList (s : State) (pn asid va : Nat) : State × Except CtlErr (List (Nat × Nat)) :=
  if va = 0 then (s, .ok [])
  else if va % 8 ≠ 0 then (s, .error (.refused 12))
  else match s.ctlBytes pn asid va 8 with
    | (s, .error e) => (s, .error e)
    | (s, .ok h) =>
      let n := fieldAt h 0 4
      if n = 0 ∨ 256 < n ∨ fieldAt h 4 4 ≠ 0 then (s, .error (.refused 12))
      else match s.ctlBytes pn asid (va + 8) (16 * n) with
        | (s, .error e) => (s, .error e)
        | (s, .ok b) => match listEntries n b with
          | none => (s, .error (.refused 12))
          | some es =>
            (s, if es.all fun e => (s.firstInvalid (s.part pn) ((s.part pn).ctx asid) e.1 e.2).isNone then .ok es
              else .error (.refused 12))

/-- The clusters of a partition whose CLUS bit is 1, as slice and cluster, in order (R307, R314). -/
def State.readyClusters (s : State) (pn : Nat) : List (Nat × Nat) :=
  ((List.range 24).filter fun sl => (s.part pn).slices.contains sl).flatMap fun sl =>
    ((List.range 16).filter fun c => (s.slice sl).srdy.getLsbD (16 + c)).map fun c => (sl, c)

/-- Whether all teams of a record can be resident at once on the partition's ready cores (R127, R314). -/
def State.recFits (s : State) (pn : Nat) (b : List Byte) : Bool :=
  let n := (s.readyClusters pn).length
  let c := (boardShape b).2
  if recBoard b then decide ((recTeams b + c - 1) / c ≤ n) else decide (recTeams b ≤ 4 * n * recT b)

/-- The checks of a record, in the order of R314: the reason for which it is refused, or its ranges. -/
def State.checkRecord (s : State) (pn asid primax : Nat) (b : List Byte) : State × Except CtlErr (List (Nat × Nat)) :=
  match recReason b primax with
  | some r => (s, .error (.refused r))
  | none => match s.recImage pn asid b with
    | (s, .error e) => (s, .error e)
    | (s, .ok _) => match s.recCounter pn asid (fieldAt b 0x30 8) with
      | (s, .error e) => (s, .error e)
      | (s, .ok _) => match s.recCounter pn asid (fieldAt b 0x38 8) with
        | (s, .error e) => (s, .error e)
        | (s, .ok _) => match s.rangeList pn asid (fieldAt b 0x48 8) with
          | (s, .error e) => (s, .error e)
          | (s, .ok rs) => (s, if recWhole b && !(s.recFits pn b) then .error (.refused 10) else .ok rs)

/-- A grid is accepted (R313, R314). -/
def State.acceptGrid (s : State) (pn asid qid ix : Nat) (parent : Option Nat) (depth prio : Nat) (b : List Byte) (v : VC)
    (ranges : List (Nat × Nat)) : State :=
  let g : Grid := { Grid.init with
    st := .accepted, part := pn, num := (s.part pn).nextGrid, asid, qid, ix, parent, depth, prio, recb := b, order := s.nextId, vc := v,
    ranges }
  let s := s.modPart pn fun p => { p with nextGrid := p.nextGrid + 1 }
  { s with nextId := s.nextId + 1, grids := Tab.put s.grids s.nextId g }

/-! ### RECORD_TAKE (R313, R315) and CHILD_QUEUE_TAKE (R173) -/

/-- The slot controller copies 128 bytes as one partition-scope agent (R313); none where the copy fails. -/
def State.copyRecord (s : State) (pn asid va : Nat) : State × Option (List Byte) :=
  match s.check pn asid (s.part pn).corner (BitVec.ofNat 64 va) 128 false with
  | (s, .ok x) =>
    (match (s.part pn).locate x.pa with
     | none => (s, none)
     | some l =>
       let ag := Agent.slotCtl pn
       match s.perfLoad (x.acc ag (s.order.clock ag) pn l 128) none with
       | (s, .ok bs) => (s, some bs)
       | (s, .error _) => (s, none))
  | (s, .trap _) | (s, .nonres) | (s, .wait) => (s, none)

/-- Whether the copy of a record has to wait (R283, R307, R339). -/
def State.copyWaits (s : State) (pn asid va : Nat) : Bool :=
  match (s.check pn asid (s.part pn).corner (BitVec.ofNat 64 va) 128 false).2 with
  | .wait => true
  | .ok x => ((s.part pn).locate x.pa).any fun l => !(s.lineReady l.key (x.pol == 2))
  | .trap _ | .nonres => false

/-- A record whose copy is `b`, if it could be copied, is accepted, or refused with an event (R314, R323); none while a check has to
wait. `accept` takes the ranges, `refuse` the reason. -/
def State.judge (s : State) (pn asid primax : Nat) (b : List Byte) (accept : State → List (Nat × Nat) → State)
    (refuse : State → Nat → State) : Option State :=
  match s.checkRecord pn asid primax b with
  | (_, .error .wait) => none
  | (s, .error (.refused r)) => some (refuse s r)
  | (s, .ok rs) => some (accept s rs)

/-- Changes a queue of a partition. -/
def State.modQueue (s : State) (pn qid : Nat) (f : Queue → Queue) : State :=
  s.modPart pn fun p => { p with queues := p.queues.map fun q => if q.qid = qid then f q else q }

/-- RECORD_TAKE (R313): the next record of a queue is acquired, copied, checked, and accepted or refused; HEAD gains 1. -/
def execRecordTake (pn qid : Nat) (s : State) : Out State :=
  match (s.part pn).queues.find? fun q => q.qid == qid with
  | none => .fault .notPossible
  | some q =>
    match s.ctlCounter pn q.asid q.tail with
    | (_, none) => .fault .notPossible
    | (s, some tail) =>
      let (s, bad) := s.reachCtr tail
      let slot := q.ring + 128 * (q.n % 2 ^ q.logsz)
      if !(s.slotUp pn) || !tail.ready || bad || decide ((s.counterVal tail.key).toNat ≤ q.n) || s.copyWaits pn q.asid slot ||
          (s.ctlCounter pn q.asid q.head).2.any fun h => !h.ready then .fault .notPossible
      else
        let ag := Agent.slotCtl pn
        let v := relClock s ag 2#2 tail.loc
        let s := acquireAt s ag 2#2 tail.loc
        let (s, b) := s.copyRecord pn q.asid slot
        let s := match s.ctlCounter pn q.asid q.head with
          | (s, some h) => releaseAt (s.counterAdd pn (s.part pn).corner h 1#64) ag 2#2 h.loc
          | (s, none) => s
        let s := s.modQueue pn qid fun q => { q with n := q.n + 1 }
        let refuse := fun (s : State) (r : Nat) => s.raiseEvent pn (eventRec 1 r 0 0 qid q.n 0 0)
        match b with
        | none => .next (refuse s 1)
        | some b => match s.judge pn q.asid q.primax b (fun s rs => s.acceptGrid pn q.asid qid q.n none 0 (fieldAt b 0x21 1) b v rs) refuse with
          | some s => .next s
          | none => .fault .notPossible

/-- CHILD_QUEUE_TAKE (R173, R315): the oldest child record of a slice is checked, and accepted or refused. -/
def execChildQueueTake (sl : Nat) (s : State) : Out State :=
  match (s.slice sl).part, (s.slice sl).childQ with
  | some pn, c :: r =>
    if !(s.slotUp pn) then .fault .notPossible
    else
      let s := s.modSlice sl fun y => { y with childQ := r }
      let g := s.grid c.parent
      match s.judge pn g.asid (if 40 ≤ g.prio then 47 else 39) c.recb
          (fun s rs => s.acceptGrid pn g.asid g.qid g.ix (some c.parent) c.depth c.prio c.recb c.vc rs)
          (fun s x => s.raiseEvent pn (eventRec 2 x 0 0 (s.grid c.parent).num 0 0 0)) with
      | some s => .next s
      | none => .fault .notPossible
  | some _, [] | none, _ => .fault .notPossible

/-! ### Residency (R218, R267, R316, R317) -/

/-- Sets or clears P in the leaf that maps a page (R212), and drops what the partition's slices hold of it. -/
def State.setResident (s : State) (pn asid page : Nat) (on : Bool) : State :=
  match s.pageAt (s.part pn) ((s.part pn).ctx asid) page with
  | some (some x) =>
    (match x.ent with
     | none => s
     | some k =>
       let e : DWord := BitVec.ofNat 64 (leNat (s.bytes k 8))
       let s := s.putEntry k (if on then e ||| 2#64 else e &&& ~~~2#64).toNat
       (s.part pn).slices.foldl (fun s sl => s.modSlice sl fun y =>
         { y with tlb := y.tlb.filter fun t =>
             !(t.asid == asid && (if x.big then t.page / 8192 == page / 65536 / 8192 else t.page == page / 65536)) }) s)
  | some none | none => s

/-- Makes a range resident, page by page (R267). -/
def State.makeResident (s : State) (pn asid va n : Nat) : State :=
  (pagesOf va n).foldl (fun s g => s.setResident pn asid g true) s

/-- Whether the tables of a range's pages can be reached now (R283, R307, R339). -/
def State.tablesReady (s : State) (pn asid va n : Nat) : Bool :=
  (pagesOf va n).all fun g => (s.walkLocs (s.part pn) ((s.part pn).ctx asid) g).all fun l => s.lineReady l.key false

/-- PGREQ_RESIDENT_ADD (R267): the last page of the range has become resident, and the counter gains 1. A page that is not valid
any more is refused residency, and the kernel is told (R323). A range that PGADV.will named has no counter, and its invalid pages are
skipped (R268). -/
def execPgreqResidentAdd (pn req : Nat) (s : State) : Out State :=
  match (s.part pn).pgreqs.find? fun r => r.id == req with
  | none => .fault .notPossible
  | some r =>
    let drop := fun (s : State) => s.modPart pn fun p => { p with pgreqs := p.pgreqs.filter fun x => !(x.id == req) }
    if !(s.tablesReady pn r.asid r.va r.len) then .fault .notPossible
    else match r.ctr with
    | none => .next (drop (s.makeResident pn r.asid r.va r.len))
    | some ctr => match s.firstInvalid (s.part pn) ((s.part pn).ctx r.asid) r.va r.len with
      | some _ => .next ((drop s).raiseEvent pn (eventRec 6 0 0 0 (s.grid r.grid).num 0 r.va 0))
      | none =>
        let s := s.makeResident pn r.asid r.va r.len
        match s.ctlCounter pn r.asid ctr with
        | (s, none) => .next (drop s)
        | (s, some c) => if c.ready then .next ((drop s).slotCtlAdd pn c) else .fault .notPossible

/-- Puts a number into a list that is in order. -/
def insertBy (le : Nat → Nat → Bool) (x : Nat) : List Nat → List Nat
  | [] => [x]
  | y :: r => if le x y then x :: y :: r else y :: insertBy le x r

/-- A list in order. -/
def sortBy (le : Nat → Nat → Bool) (l : List Nat) : List Nat := l.foldr (insertBy le) []

/-- The grids of a partition that wait for cores or to become eligible, in the order of R320. -/
def State.gridOrder (s : State) (pn : Nat) (f : Grid → Bool) : List Nat :=
  let gs := (s.grids.filter fun p => p.2.part == pn && f p.2).map (·.1)
  sortBy (fun a b =>
    let x := s.grid a
    let y := s.grid b
    decide (y.prio < x.prio) || (x.prio == y.prio && decide (x.order ≤ y.order))) gs

/-- The pages of a range with what shares their leaves: a 512 MiB leaf counts whole. -/
def State.leafSpan (s : State) (pn asid va n : Nat) : List (Nat × Nat) :=
  (pagesOf va n).map fun g => match s.pageAt (s.part pn) ((s.part pn).ctx asid) g with
    | some (some x) => if x.big then (g / 2 ^ 29 * 2 ^ 29, 2 ^ 29) else (g, 65536)
    | some none | none => (g, 65536)

/-- Whether a placed or saved grid of the context names a range that an eviction would touch (R317): one counts from when teams of it
have been given cores until it retires. -/
def State.rangeHeld (s : State) (pn asid va n : Nat) : Bool :=
  let held := s.grids.filter fun g => g.2.part == pn && g.2.asid == asid && ((g.2.st == .eligible && decide (0 < g.2.placed)) ||
    s.teams.any fun t => t.2.grid == g.1 && (t.2.st == .placed || t.2.st == .saved))
  (s.leafSpan pn asid va n).any fun x => held.any fun g => g.2.ranges.any fun r => rangesMeet x.1 x.2 r.1 r.2

/-- The queued grids: accepted, with no team placed yet. -/
def Grid.queued (g : Grid) : Bool := (g.st == .accepted || g.st == .eligible) && g.placed == 0

/-- The position of a range's next use in the dispatch order of queued grids; the number of them where none names it (R317). -/
def State.nextUse (s : State) (pn asid va n : Nat) : Nat :=
  let gs := s.gridOrder pn Grid.queued
  (gs.takeWhile fun i => !((s.grid i).asid == asid && (s.grid i).ranges.any fun r => rangesMeet r.1 r.2 va n)).length

/-- Whether some page of a range is mapped by tables and resident, so that evicting it frees memory. -/
def State.canFree (s : State) (pn asid va n : Nat) : Bool :=
  (pagesOf va n).any fun g => match s.pageAt (s.part pn) ((s.part pn).ctx asid) g with
    | some (some x) => x.p && !x.k
    | some none | none => false

/-- The valid entries of a table, by index (R211): those of its 65536 bytes that are listed, V being 1. -/
def State.validEntries (s : State) (p : Part) (base : Nat) : List (Nat × DWord) :=
  s.mem.filterMap fun x =>
    if x.1 % 8 = 0 ∧ x.2.getLsbD 0 then
      (p.keyAt base 65536 x.1).map fun pa => ((pa - base) / 8, BitVec.ofNat 64 (leNat (s.bytes x.1 8)))
    else none

/-- The leaves of a context's tables, as the VA and the length that each maps (R211). -/
def State.leaves (s : State) (p : Part) (c : Ctx) : List (Nat × Nat) :=
  (s.validEntries p c.ptbase).flatMap fun e0 =>
    if !(entPointer e0.2 && entPointerOk e0.2) then []
    else (s.validEntries p (entFrame e0.2)).flatMap fun e1 =>
      let va := e0.1 * 2 ^ 42 + e1.1 * 2 ^ 29
      if !(entPointer e1.2) then [(va, 2 ^ 29)]
      else if !(entPointerOk e1.2) then []
      else (s.validEntries p (entFrame e1.2)).map fun e2 => (va + e2.1 * 65536, 65536)

/-- Whether R317 may choose a range as the victim now: the lowest cold range while there is one, else, of all that is resident in the
partition, what is used next the farthest away, the higher VA first among equals. A range that PGADV `.evict` or `.free` names may go
at any time (R268). -/
def State.mayEvict (s : State) (pn asid va n : Nat) : Bool :=
  let adv := (s.part pn).advice
  let open_ := fun (a v l : Nat) => s.canFree pn a v l && !(s.rangeHeld pn a v l)
  let cold := adv.filter fun a => a.kind == 3 && open_ a.asid a.va a.len
  open_ asid va n &&
  ((adv.any fun a => (a.kind == 1 || a.kind == 2) && a.asid == asid && a.va == va && a.len == n) ||
   (match cold with
    | [] =>
      let pos := s.nextUse pn asid va n
      (s.part pn).ctxs.all fun c => (s.leaves (s.part pn) c).all fun r =>
        !(open_ c.asid r.1 r.2) || (c.asid == asid && rangesMeet r.1 r.2 va n) ||
        (let q := s.nextUse pn c.asid r.1 r.2
         decide (q < pos) || (q == pos && decide (r.1 ≤ va)))
    | c :: r =>
      let low := r.foldl (fun m (a : Advice) => if a.va < m.va then a else m) c
      low.asid == asid && low.va == va && low.len == n))

/-- Where the bytes of a range lie that `.free` gave up, page by page: physical address and length. -/
def State.freedSpans (s : State) (pn asid va n : Nat) : List (Nat × Nat) :=
  (pagesOf va n).filterMap fun g => match s.pageAt (s.part pn) ((s.part pn).ctx asid) g with
    | some (some x) =>
      let lo := Nat.max va g
      some (x.pa / 65536 * 65536 + (lo - g), Nat.min (va + n) (g + 65536) - lo)
    | some none | none => none

/-- Writes zeros over the bytes of a range that `.free` gave up (R268). -/
def State.zeroRange (s : State) (pn asid va n : Nat) : State :=
  (s.freedSpans pn asid va n).foldl (fun s x => s.physWrite pn x.1 (List.replicate x.2 0#8)) s

/-- RANGE_EVICT (R317): a range becomes non-resident, with its contents kept, or discarded where PGADV `.free` named it (R268). -/
def execRangeEvict (pn asid va n : Nat) (s : State) : Out State :=
  let free := (s.part pn).advice.any fun a => a.kind == 2 && a.asid == asid && a.va == va && a.len == n
  if !(s.slotUp pn) || !(s.mayEvict pn asid va n) || !(s.tablesReady pn asid va n) ||
      (free && (s.freedSpans pn asid va n).any fun x => !(s.physReady pn x.1 x.2)) then .fault .notPossible
  else
    let s := if free then s.zeroRange pn asid va n else s
    let s := (pagesOf va n).foldl (fun s g => s.setResident pn asid g false) s
    .next (s.modPart pn fun p => { p with advice := p.advice.filter fun a => !(a.asid == asid && a.va == va && a.len == n) })

/-! ### GRID_ELIGIBLE (R316) -/

/-- GRID_ELIGIBLE (R316): the dependence counter has reached the threshold, which the grid's start acquires, and the ranges of the
list are resident. A range with a page that is not valid any more is refused residency, and the grid goes on waiting. -/
def execGridEligible (grid : Nat) (s : State) : Out State :=
  let g := s.grid grid
  let pn := g.part
  if !(g.st == .accepted) || !(s.slotUp pn) then .fault .notPossible
  else
    let dep := fieldAt g.recb 0x38 8
    let met : State × Option VC :=
      if dep = 0 then (s, some [])
      else match s.ctlCounter pn g.asid dep with
        | (s, none) => (s, none)
        | (s, some c) =>
          let (s, bad) := s.reachCtr c
          if c.ready && !bad && decide (fieldAt g.recb 0x40 8 ≤ (s.counterVal c.key).toNat) then
            (acquireAt s (.slotCtl pn) 2#2 c.loc, some (relClock s (.slotCtl pn) 2#2 c.loc))
          else (s, none)
    match met with
    | (_, none) => .fault .notPossible
    | (s, some v) =>
      let c := (s.part pn).ctx g.asid
      if g.ranges.any fun r => !(s.tablesReady pn g.asid r.1 r.2) then .fault .notPossible
      else match g.ranges.find? fun r => (s.firstInvalid (s.part pn) c r.1 r.2).isSome with
      | some r => .next (s.raiseEvent pn (eventRec 6 0 0 0 g.num 0 r.1 0))
      | none =>
        let s := g.ranges.foldl (fun s r => s.makeResident pn g.asid r.1 r.2) s
        .next (s.modGrid grid fun g => { g with st := .eligible, vc := VC.join g.vc v })

/-! ### GRID_RETIRE (R40) -/

/-- Whether a grid may retire (R40): its teams and Reckoner threads have exited, its engine commands and matrix instructions have
ended, and every child has retired. -/
def State.gridOver (s : State) (grid : Nat) : Bool :=
  let g := s.grid grid
  g.st == .eligible && g.ended == g.teams && g.placed == g.teams && g.holes.isEmpty &&
  !(s.units.any fun p => p.2.live && p.2.grid == grid) && !(s.cmds.any fun c => c.grid == grid) &&
  !(s.cores.any fun p => p.2.mq.any fun o => (s.unit o.u).grid == grid) &&
  !(s.grids.any fun p => p.2.parent == some grid && (p.2.st == .accepted || p.2.st == .eligible)) &&
  !(s.slices.any fun p => p.2.childQ.any fun c => c.parent == grid)

/-- GRID_RETIRE (R40): the completion add with release at partition scope, or an allocation event where no live counter is there;
everything the grid did is ordered before what follows in the partition (R232). -/
def execGridRetire (grid : Nat) (s : State) : Out State :=
  let g := s.grid grid
  let pn := g.part
  if !(s.gridOver grid) || !(s.slotUp pn) then .fault .notPossible
  else
    let us := g.agents
    let v := us.foldl (fun v u => VC.join v (s.order.clock (.unit u))) []
    let retired := fun (s : State) => (retireOrder (s.active pn) us v).modGrid grid fun g => { g with st := .retired }
    let ctr := fieldAt g.recb 0x30 8
    if ctr = 0 then .next (retired s)
    else match s.ctlCounter pn g.asid ctr with
      | (s, none) => .next ((retired s).raiseEvent pn (eventRec 5 0 0 0 g.num 0 ctr 0))
      | (s, some c) =>
        if !c.ready then .fault .notPossible
        else
          let s := s.counterAdd pn (s.part pn).corner c 1#64
          let s : State := { s with order := s.order.acquireVC (.slotCtl pn) v }
          .next (retired (releaseAt s (.slotCtl pn) 2#2 c.loc))

/-! ### EVENT_RECORD_WRITE (R323, R324) -/

/-- EVENT_RECORD_WRITE (R324): the oldest event becomes record n of the ring, PROD becomes n + 1 with release, and the kernel is
interrupted. -/
def execEventRecordWrite (pn : Nat) (s : State) : Out State :=
  let p := s.part pn
  match p.ring, p.events with
  | some r, e :: rest =>
    if !(s.slotUp pn) || (p.prod + 2 ^ 64 - p.sccons.toNat) % 2 ^ 64 == 2 ^ r.logsz ||
        !(s.physReady pn (r.addr + 32 * (p.prod % 2 ^ r.logsz)) 32 && s.physReady pn r.prod 8) then .fault .notPossible
    else
      let s := s.physWrite pn (r.addr + 32 * (p.prod % 2 ^ r.logsz)) e
      let s := s.physWrite pn r.prod (leBytes 8 (p.prod + 1))
      let s := releaseAt s (.slotCtl pn) 2#2 (locOf pn r.prod)
      let s := s.modPart pn fun p => { p with events := rest, prod := p.prod + 1 }
      .next (s.sliceIrq p.corner .slotCtl)
  | some _, [] | none, _ => .fault .notPossible

end Sys2Proof.Machine
end

