-- ==== Sys2Proof/Machine/Sched.lean ====
section
/-!
DEFINITION. Where grids are placed, and the slot table that dispatch carries out (R22, R36, R120, R127, R133, R161, R294 to R298,
R318 to R322): rooms, plans, bind records, how a team starts, is withdrawn, saved and returned.
-/

namespace Sys2Proof.Machine

/-! ### Room on a core (R36, R127, R161, R307) -/

/-- The teams that meet a test. -/
def State.teamsWhere (s : State) (f : Team → Bool) : List Nat := (s.teams.filter fun p => f p.2).map (·.1)

/-- The teams that take up a core: placed, or ended with a window that engine commands still use (R133). -/
def State.onCore (s : State) (sl core : Nat) : List Nat :=
  s.teamsWhere fun t => t.slice == sl && t.core == core && (t.st == .placed || (t.st == .ended && decide (0 < t.win)))

/-- Whether teams of two launches may be on one core at once (R127). -/
def shareCore (a b : List Byte) : Bool :=
  !(recReck a) && !(recReck b) && fieldAt a 0x22 3 == fieldAt b 0x22 3 && recT a == recT b

/-- Whether another launch that names a Reckoner is placed or saved on a cluster (R36), or, though it has ended there, still has matrix
instructions in the cluster's queues, whose accumulators they write. The last is a DESIGN CHOICE (log 111): R38 lets them run on. -/
def State.otherReck (s : State) (grid sl cl : Nat) : Bool :=
  (s.teams.any fun p => p.2.grid != grid && p.2.slice == sl && p.2.core / 4 == cl && (p.2.st == .placed || p.2.st == .saved) &&
    (s.grid p.2.grid).part == (s.grid grid).part && recReck (s.grid p.2.grid).recb) ||
  (s.units.any fun p => p.2.live && p.2.reck && p.2.grid != grid && p.2.slice == sl && p.2.core / 4 == cl) ||
  ((List.range 4).any fun j => (s.core (64 * sl + 4 * cl + j)).mq.any fun o => (s.unit o.u).grid != grid)

/-- Whether an image may be put into a slot of a core (R161): no warp executes from it and no OVLOAD into it is under way, the
warps of `victims` apart. -/
def State.slotFree (s : State) (key slot : Nat) (victims : List Nat) : Bool :=
  !(s.units.any fun p =>
    let w := p.2
    w.live && !w.reck && w.coreKey == key && !(w.wd == .saved) && !(victims.contains w.grid) &&
    ((lanesOf w.liveMask).any (fun l => (w.lane l).slot == slot) || (match w.ovw with
      | some o => o.slot == slot
      | none => false)))

/-- The slot that dispatch chooses for an image on a core (R161); none where the core is not free for it. -/
def State.pickSlot (s : State) (key va : Nat) (victims : List Nat) : Option Nat :=
  let c := s.core key
  if c.ov0.tag = some va then some 0
  else if c.ov1.tag = some va then some 1
  else if s.slotFree key 0 victims then some 0
  else if s.slotFree key 1 victims then some 1
  else none

/-- The teams of a grid that a core has space for, once the teams of `victims` have left it; overlay slots apart. -/
def State.coreSpace (s : State) (grid : Nat) (victims : List Nat) (sl core : Nat) : Nat :=
  let b := (s.grid grid).recb
  let ts := (s.onCore sl core).filter fun t => !(victims.contains (s.team t).grid)
  if !((s.slice sl).srdy.getLsbD (16 + core / 4)) || !((s.slice sl).placing) || (recReck b && s.otherReck grid sl (core / 4)) ||
      !(ts.all fun t => shareCore b (s.grid (s.team t).grid).recb) then 0
  else recT b - ts.length

/-- The same for teams that are to start there. -/
def State.coreRoom (s : State) (grid : Nat) (victims : List Nat) (sl core : Nat) : Nat :=
  match s.pickSlot (64 * sl + core) (fieldAt (s.grid grid).recb 0 8) victims with
  | some _ => s.coreSpace grid victims sl core
  | none => 0

/-- Whether a pending bind record names a core. -/
def Slice.named (x : Slice) (core : Nat) : Bool := x.binds.any fun p => p.2.v && p.2.cores.getLsbD core

/-- The overlay slots that a team's threads stand in or return to. -/
def State.usesSlot (s : State) (tm slot : Nat) : Bool :=
  (s.team tm).warps.any fun u =>
    let w := s.unit u
    (lanesOf w.liveMask).any fun l =>
      let t := w.lane l
      t.slot == slot || (t.stack.any fun r => r.slot == slot) || (t.trapMode && (t.frameWord 5).toNat % 2 == slot)

/-- The core's overlay slots as a saved team left them. -/
def State.keptOvl (s : State) (tm slot : Nat) : Ovl :=
  let c := ((s.unit ((s.team tm).warps.headD 0)).kept).headD Core.init
  if slot = 0 then c.ov0 else c.ov1

/-- Whether a saved team's images can stand in a core's slots again. -/
def State.canRestore (s : State) (tm key : Nat) (victims : List Nat) : Bool :=
  (List.range 2).all fun k =>
    !(s.usesSlot tm k) || s.slotFree key k victims ||
    (let c := s.core key
     (if k = 0 then c.ov0 else c.ov1).tag == (s.keptOvl tm k).tag)

/-! ### Plans (R120, R296, R318, R320) -/

/-- A core that has room once the first `need` of some victims have left it. -/
structure Spot where
  sl : Nat
  core : Nat
  room : Nat
  need : Nat
deriving DecidableEq, Repr

/-- Where some teams of a grid are to go: the cores, the records that send them there, and how many of them are new. -/
structure Placing where
  spots : List Spot
  binds : List (Nat × Bind)
  fresh : Nat
deriving DecidableEq, Repr

/-- CORES of a bind record. -/
def coresMask (cs : List Nat) : DWord := cs.foldl (fun m c => m ||| (1#64 <<< c)) 0#64

/-- A record for a grid, whose context's descriptor lies at `desc` (R215, R318). -/
def Grid.bind (g : Grid) (grid desc op : Nat) (cs : List Nat) (team0 nteam : Nat) : Bind :=
  { op, prio := g.prio, qcls := fieldAt g.recb 0x27 1, v := true, grid, cores := coresMask cs, team0, nteam,
    record := Config.recordAt grid, context := BitVec.ofNat 64 desc }

/-- The context of a grid. -/
def State.ctxOf (s : State) (g : Grid) : Ctx := (s.part g.part).ctx g.asid

/-- The saved teams of a grid, in ascending index. -/
def State.savedTeams (s : State) (grid : Nat) : List Nat :=
  sortBy (fun a b => decide ((s.team a).idx ≤ (s.team b).idx)) (s.teamsWhere fun t => t.grid == grid && t.st == .saved)

/-- The Reckoners of a grid whose clusters are saved (R133). -/
def State.savedRecks (s : State) (grid : Nat) : List Nat :=
  (s.units.filter fun p => p.2.reck && p.2.grid == grid && p.2.wd == .saved).map (·.1)

/-- The next run of teams that have never been placed: first index and count. -/
def Grid.nextRun (g : Grid) : Nat × Nat := g.holes.headD (g.placed, g.teams - g.placed)

/-- Takes `n` teams off the next run. -/
def Grid.takeRun (g : Grid) (n : Nat) : Grid :=
  match g.holes with
  | [] => { g with placed := g.placed + n }
  | h :: r => { g with holes := if n < h.2 then (h.1 + n, h.2 - n) :: r else r }

/-- Whether a grid waits for cores: it is eligible, and some of its teams are saved or have never been placed. -/
def State.wants (s : State) (grid : Nat) : Bool :=
  let g := s.grid grid
  g.st == .eligible && (decide (0 < g.nextRun.2) || !((s.savedTeams grid).isEmpty) || !((s.savedRecks grid).isEmpty))

/-- Shares `n` teams out over cores with room. -/
def shareOut : List Spot → Nat → List Spot
  | [], _ => []
  | x :: rest, n => if n = 0 then [] else { x with room := Nat.min x.room n } :: shareOut rest (n - Nat.min x.room n)

/-- The teams that cores have been given. -/
def teamsOf (l : List Spot) : Nat := (l.map (·.room)).sum

/-- The cores of the partition that pending records leave alone and that have room by a measure: those that have it as things stand,
then those that have it once the first victim has left, then the second, and so on (R320). -/
def State.candidates (s : State) (pn : Nat) (victims : List Nat) (f : List Nat → Nat → Nat → Nat) : List Spot :=
  let cores := ((s.readyClusters pn).filter fun p => (s.slice p.1).placing).flatMap fun p => ((List.range 4).map fun j => (p.1, 4 * p.2 + j))
  let spots := (cores.filter fun p => !((s.slice p.1).named p.2)).filterMap fun p =>
    ((List.range (victims.length + 1)).find? fun k => f (victims.take k) p.1 p.2 != 0).map fun k =>
      ({ sl := p.1, core := p.2, room := f (victims.take k) p.1 p.2, need := k } : Spot)
  (List.range (victims.length + 1)).flatMap fun k => spots.filter fun x => x.need == k

/-- The records of one kind for a shared-out list of cores, one for each slice, teams in ascending index. -/
def sliceBinds (g : Grid) (grid desc op team0 : Nat) (l : List Spot) : List (Nat × Bind) :=
  ((List.range 24).foldl (fun (acc : List (Nat × Bind) × Nat) sl =>
    let mine := l.filter fun x => x.sl == sl
    if mine.isEmpty then acc
    else (acc.1 ++ [(sl, g.bind grid desc op (mine.map (·.core)) acc.2 (teamsOf mine))], acc.2 + teamsOf mine)) ([], team0)).1

/-- New teams on cores, filled in ascending core number up to T (R318); all of them where flag bit 0 is set. -/
def State.fillPlan (s : State) (grid : Nat) (victims : List Nat) : Option Placing :=
  let g := s.grid grid
  let (team0, n) := g.nextRun
  let l := shareOut (s.candidates g.part victims fun v sl c => s.coreRoom grid v sl c) n
  if teamsOf l = 0 ∨ (recWhole g.recb = true ∧ teamsOf l < n) then none
  else some { spots := l, binds := sliceBinds g grid (s.ctxOf g).desc 1 team0 l, fresh := teamsOf l }

/-- The clusters whose first `c` cores all have room, each as those cores; the ones that need the fewest victims to leave come first. -/
def roomyClusters (c : Nat) (l : List Spot) : List (List Spot) :=
  let cls := (l.filter fun x => x.core % 4 == 0).filterMap fun x =>
    let row := (List.range c).filterMap fun j => l.find? fun y => y.sl == x.sl && y.core == x.core + j
    if row.length = c then some row else none
  let need := fun (row : List Spot) => row.foldl (fun m x => Nat.max m x.need) 0
  (List.range (l.foldl (fun m x => Nat.max m (x.need + 1)) 0)).flatMap fun k => cls.filter fun row => need row == k

/-- A board (R120): row i on the i-th cluster, its teams on cores 0, 1, … of it. -/
def State.boardPlan (s : State) (grid : Nat) (victims : List Nat) : Option Placing :=
  let g := s.grid grid
  let (team0, n) := g.nextRun
  let c := (boardShape g.recb).2
  let cl := roomyClusters c (s.candidates g.part victims fun v sl k => s.coreRoom grid v sl k)
  let rows := (n + c - 1) / c
  if cl.length < rows then none
  else
    let put := (List.range rows).zip cl |>.map fun p => (p.2.take (Nat.min c (n - p.1 * c)), team0 + p.1 * c)
    some { spots := put.flatMap (·.1),
           binds := put.flatMap fun x => sliceBinds g grid (s.ctxOf g).desc 1 x.2 (x.1.map fun y => { y with room := 1 }), fresh := n }

/-- Saved teams back on cores (R296). -/
def State.returnPlan (s : State) (grid : Nat) (victims : List Nat) : Option Placing :=
  let g := s.grid grid
  let ts := s.savedTeams grid
  let l := shareOut (s.candidates g.part victims fun v sl c =>
    if ts.any fun t => s.canRestore t (64 * sl + c) v then s.coreSpace grid v sl c else 0) ts.length
  if teamsOf l = 0 ∨ (recWhole g.recb = true ∧ teamsOf l < ts.length) then none
  else some { spots := l, binds := sliceBinds g grid (s.ctxOf g).desc 3 0 l, fresh := 0 }

/-- A core of a cluster that is free for a launch with its Reckoner (R133): 1, else 0. -/
def State.clusterSpace (s : State) (grid : Nat) (victims : List Nat) (sl core : Nat) : Nat :=
  if s.coreSpace grid victims sl core = 0 ∨
     s.units.any (fun p => p.2.reck && p.2.grid == grid && !(p.2.wd == .saved) && p.2.slice == sl && p.2.core / 4 == core / 4) = true then 0
  else 1

/-- Saved clusters back on free clusters (R133). -/
def State.reckPlan (s : State) (grid : Nat) (victims : List Nat) : Option Placing :=
  let g := s.grid grid
  let us := s.savedRecks grid
  let cl := (roomyClusters 4 (s.candidates g.part victims fun v sl c => s.clusterSpace grid v sl c)).take us.length
  if cl.isEmpty || (recWhole g.recb && decide (cl.length < us.length)) then none
  else some { spots := cl.flatten,
              binds := cl.flatMap fun x => sliceBinds g grid (s.ctxOf g).desc 3 0 (x.map fun y => { y with room := 0 }), fresh := 0 }

/-- What a grid can have once `victims` have left the cores it takes: saved teams first. -/
def State.plan (s : State) (grid : Nat) (victims : List Nat) : Option Placing :=
  let g := s.grid grid
  if !((s.savedRecks grid).isEmpty) then s.reckPlan grid victims
  else if !((s.savedTeams grid).isEmpty) then s.returnPlan grid victims
  else if g.nextRun.2 = 0 then none
  else if recBoard g.recb then s.boardPlan grid victims
  else s.fillPlan grid victims

/-- The cores on which a grid has placed teams. -/
def State.gridCores (s : State) (grid : Nat) : List (Nat × Nat) :=
  ((s.teams.filter fun p => p.2.grid == grid && p.2.st == .placed).map fun p => (p.2.slice, p.2.core)).eraseDups

/-- The records that withdraw victims from the cores of a plan that need it (R294): a grid with flag bit 0 from all its cores, one with
a Reckoner from whole clusters (R133). -/
def State.victimBinds (s : State) (victims : List Nat) (p : Placing) : List (Nat × Bind) :=
  (victims.zip (List.range victims.length)).flatMap fun v =>
    let g := s.grid v.1
    let mine := s.gridCores v.1
    let hit := mine.filter fun c => p.spots.any fun x => x.sl == c.1 && x.core == c.2 && decide (v.2 < x.need)
    let out := if hit.isEmpty then []
      else if recWhole g.recb then mine
      else if recReck g.recb then mine.filter fun c => hit.any fun d => d.1 == c.1 && d.2 / 4 == c.2 / 4
      else hit
    sliceBinds g v.1 (s.ctxOf g).desc 2 0 (out.map fun c => { sl := c.1, core := c.2, room := 0, need := 0 })

/-- Lists a record in a slice's slot table after every record that is still to be carried out; none where the table is full. -/
def State.addBind (s : State) (sl : Nat) (b : Bind) : Option State :=
  let i := (s.slice sl).binds.foldl (fun m p => if p.2.v then Nat.max m (p.1 + 1) else m) 0
  if 256 ≤ i then none else some (s.modSlice sl fun y => { y with binds := Tab.put y.binds i b })

/-- Lists records in order. -/
def State.addBinds (s : State) (l : List (Nat × Bind)) : Option State :=
  l.foldl (fun (r : Option State) x => r.bind fun s => s.addBind x.1 x.2) (some s)

/-- The first bind of a grid of a context reads the descriptor again (R215); one that cannot be read, or that breaks R215 by now,
leaves the context as it was. -/
def State.bindCtx (s : State) (pn asid : Nat) : State :=
  let c := (s.part pn).ctx asid
  if c.bound then s
  else match s.physRead pn c.desc 128 with
    | (s, none) => s.modCtx pn asid fun c => { c with bound := true }
    | (s, some b) =>
      let new := if ctxOk b && fieldAt b 0x20 2 == asid then ctxAt c.desc b c else c
      (s.zeroPool pn c new).modCtx pn asid fun _ => { new with bound := true }

/-- The slot controller writes a plan into the slot tables: the withdrawals first. None where a table is full, or the context's
descriptor has to be waited for. -/
def State.writePlan (s : State) (grid : Nat) (victims : List Nat) (p : Placing) : Option State :=
  let g := s.grid grid
  let c := s.ctxOf g
  if !c.bound && !(s.physReady g.part c.desc 128) then none
  else ((s.bindCtx g.part g.asid).addBinds (s.victimBinds victims p ++ p.binds)).map fun s => s.modGrid grid fun g => g.takeRun p.fresh

/-- The ranges of a chosen grid are made resident in list order, as PGREQ does (R316): what is done where a page is not valid any more,
of which the kernel is told (R267, R323), or where all are resident. None where the tables have to be waited for. -/
def State.bringRanges (s : State) (grid : Nat) : Option (State × Bool) :=
  let g := s.grid grid
  if g.ranges.any fun r => !(s.tablesReady g.part g.asid r.1 r.2) then none
  else match g.ranges.find? fun r => (s.firstInvalid (s.part g.part) (s.ctxOf g) r.1 r.2).isSome with
    | some r => some (s.raiseEvent g.part (eventRec 6 0 0 0 g.num 0 r.1 0), false)
    | none => some (g.ranges.foldl (fun s r => s.makeResident g.part g.asid r.1 r.2) s, true)

/-- The running grids of lower priority, the lowest first, the latest accepted first within a level. -/
def State.lowerGrids (s : State) (grid : Nat) : List Nat :=
  let g := s.grid grid
  (s.gridOrder g.part fun h => h.st == .eligible && decide (h.prio < g.prio)).reverse.filter fun i => !((s.gridCores i).isEmpty)

/-- What the slot controller would do for a grid now (R320): place it where there is room, else take cores from the lowest grids
that must give some. -/
def State.bestPlan (s : State) (grid : Nat) : Option (List Nat × Placing) :=
  let lower := s.lowerGrids grid
  (List.range (lower.length + 1)).findSome? fun k => (s.plan grid (lower.take k)).map fun p => (lower.take k, p)

/-- A grid is chosen: its ranges are made resident, and the plan is written (R316, R318). -/
def State.dispatch (s : State) (grid : Nat) (victims : List Nat) (p : Placing) : Option State :=
  match s.bringRanges grid with
  | none => none
  | some (s, false) => some s
  | some (s, true) => s.writePlan grid victims p

/-- What comes of choosing a grid with some victims, where its ranges can be made resident (R316); a grid that waits for them, or for
memory or room in the slot tables, holds back no other. -/
def State.chosen (s : State) (grid : Nat) (victims : List Nat) (p : Placing) : Option State :=
  match s.bringRanges grid with
  | some (s, true) => s.writePlan grid victims p
  | some (_, false) | none => none

/-- GRID_PLACE (R316, R320): of the grids that wait, the first in the order of base priority and acceptance for which something can be
done gets its bind records. -/
def execGridPlace (grid : Nat) (s : State) : Out State :=
  let g := s.grid grid
  if !(s.slotUp g.part) || (s.part g.part).stalled || !(s.wants grid) then .fault .notPossible
  else
    let ahead := ((s.gridOrder g.part fun h => h.st == .eligible).takeWhile fun i => i != grid).filter fun i => s.wants i
    if ahead.any fun i => (s.bestPlan i).any fun x => (s.chosen i x.1 x.2).isSome then .fault .notPossible
    else match s.bestPlan grid with
      | none => .fault .notPossible
      | some (victims, p) => match s.dispatch grid victims p with
        | some s => .next s
        | none => .fault .notPossible

/-- The length of a quantum class's slice in arithmetic cycles (R322); none for class 3. -/
def quantum (cls : Nat) : Option Nat := if cls = 0 then some 3000000 else if cls = 1 then some 12000000 else if cls = 2 then some 48000000 else none

/-- CLK of a partition's corner slice, by which time slices are measured. -/
def State.cornerClk (s : State) (pn : Nat) : DWord := (s.slice (s.part pn).corner).clk

/-- TIME_SLICE_EXPIRY (R322): an equal waiter takes the cores it needs, or all of a grid with flag bit 0; the slice restarts. -/
def execTimeSliceExpiry (grid : Nat) (s : State) : Out State :=
  let g := s.grid grid
  match quantum (fieldAt g.recb 0x27 1) with
  | none => .fault .notPossible
  | some n =>
    if !(g.st == .eligible) || !(s.slotUp g.part) || (s.part g.part).stalled || (s.gridCores grid).isEmpty ||
        decide ((s.cornerClk g.part).toNat < g.since.toNat + n) then .fault .notPossible
    else
      let again := fun (s : State) => s.modGrid grid fun g => { g with since := s.cornerClk g.part }
      let waiters := (s.gridOrder g.part fun h => h.st == .eligible && h.prio == g.prio).filter fun i => i != grid && s.wants i
      match waiters.findSome? fun i => if (s.plan i []).isSome then none else (s.plan i [grid]).bind fun p => s.chosen i [grid] p with
      | none => .next (again s)
      | some s => .next (again s)

/-! ### How a team starts (R22, R36, R161) -/

/-- The uniform state that a unit of a launch starts with (R22). -/
def startUni (b : List Byte) : Uni :=
  { Uni.init.setPair 0 (BitVec.ofNat 64 (fieldAt b 0x28 8)) with
    tvec := BitVec.ofNat 32 (fieldAt b 0x70 4), uivec := BitVec.ofNat 32 (fieldAt b 0x74 4) }

/-- A thread that starts at an offset. -/
def startThread (off slot : Nat) : Thread := { Thread.init with status := .live, pc := BitVec.ofNat 32 off, slot }

/-- A unit that starts: its place, its scheduling state and its uniform state. -/
def startWarp (g : Grid) (grid tm sl core k cw : Nat) (th : Tab Thread) : Warp :=
  { Warp.init with
    live := true, grid, team := tm, part := g.part, slice := sl, core, k, cw, quota := fieldAt g.recb 0x20 1, u := startUni g.recb, th,
    sched := { base := g.prio, eff := g.prio, age := 0, hold := 0, yielded := false, trapped := false } }

/-- The lowest core-wide warp number that is free on a core. -/
def State.freeCw (s : State) (sl core : Nat) : Nat :=
  ((List.range 64).find? fun n => !(s.units.any fun p =>
    p.2.live && !p.2.reck && !(p.2.wd == .saved) && p.2.slice == sl && p.2.core == core && p.2.cw == n)).getD 63

/-- A unit joins the machine: its start acquires what the grid's start acquires (R238, R313), a LAUNCH's release as a counter value is
acquired, so that the unit's engine commands start from it too. DESIGN CHOICE, log 135. -/
def State.addUnit (s : State) (u : Nat) (w : Warp) : State :=
  let s := s.setUnit u w
  let s : State := { s with order := s.order.acquirePath (.unit u) (s.grid w.grid).vc }
  s.modGrid w.grid fun g => { g with agents := g.agents ++ [u] }

/-- A team of a grid starts on a core, its warps in an overlay slot (R20, R22, R33). -/
def State.newTeam (s : State) (grid sl core idx slot : Nat) : State × Nat :=
  let g := s.grid grid
  let n := recThreads g.recb
  let tm := s.nextId
  let ks := List.range (recWarps g.recb)
  let s : State := { s with nextId := tm + 1 + ks.length }
  let s := s.modTeam tm fun _ =>
    { Team.init with st := .placed, grid, idx, slice := sl, core, warps := ks.map fun k => tm + 1 + k, win := recWindow g.recb }
  (ks.foldl (fun s k =>
    let th := (List.range (Nat.min 32 (n - 32 * k))).map fun l => (l, startThread (fieldAt g.recb 8 4) slot)
    s.addUnit (tm + 1 + k) (startWarp g grid tm sl core k (s.freeCw sl core) th)) s, tm)

/-- The Reckoner of a launch starts on a cluster with the launch's image (R36, R138): the accumulators hold +0, nothing is held or
bound. -/
def State.newReck (s : State) (grid tm sl cl : Nat) (o : Ovl) : State :=
  let g := s.grid grid
  let u := s.nextId
  let s : State := { s with nextId := u + 1 }
  let s := (List.range 4).foldl (fun s j => s.modCore (64 * sl + 4 * cl + j) fun c => { c with acc := [], hold := none, bind := none }) s
  let s := s.setRovl (16 * sl + cl) o
  s.addUnit u { startWarp g grid tm sl (4 * cl) 0 0 [(0, startThread (fieldAt g.recb 0x0C 4) 0)] with reck := true, quota := 0 }

/-- Whether a launch has had its Reckoner on a cluster, saved ones apart (R36). -/
def State.hadReck (s : State) (grid sl cl : Nat) : Bool :=
  s.units.any fun p => p.2.reck && p.2.grid == grid && !(p.2.wd == .saved) && p.2.slice == sl && p.2.core / 4 == cl

/-- Consecutive teams of a grid start on a core (R161, R318): the image is loaded unless the slot has its tag; teams whose image
fails its checks end as team faults. None where memory that the load needs has to be waited for. R161 has the slot chosen for the first
team of a launch on a core; a later team whose image the slots no longer hold chooses and loads anew. DESIGN CHOICE, log 127. -/
def State.placeOn (s : State) (grid sl core idx n : Nat) : Option State :=
  let g := s.grid grid
  let va := fieldAt g.recb 0 8
  let key := 64 * sl + core
  match s.pickSlot key va [] with
  | none => some s
  | some k =>
    let start := fun (s : State) (ok : Bool) =>
      let (s, tms) := (List.range n).foldl (fun (acc : State × List Nat) i =>
        let (s, tm) := acc.1.newTeam grid sl core (idx + i) k
        (s, acc.2 ++ [tm])) (s, [])
      if !ok then tms.foldl (fun s tm => s.faultTeam tm 1 Config.causeOverlayTag 0 0 0#32 (BitVec.ofNat 64 va)) s
      else if recReck g.recb && !(s.hadReck grid sl (core / 4)) then
        s.newReck grid (tms.headD 0) sl (core / 4) (if k = 0 then (s.core key).ov0 else (s.core key).ov1)
      else s
    if (if k = 0 then (s.core key).ov0 else (s.core key).ov1).tag = some va then some (start s true)
    else match s.loadImage g.part g.asid sl va with
      | (s, .ok code) => some (start (s.setOvl key k { tag := some va, code }) true)
      | (_, .error .wait) => none
      | (s, .error (.trap _)) | (s, .error (.fire _)) => some (start s false)

/-- A grid that comes to hold a core starts its time slice (R322); the first in its partition starts the window of the progress
monitor (R299). -/
def State.startSlice (s : State) (grid : Nat) : State :=
  let pn := (s.grid grid).part
  let s := if s.monitored pn then s else s.modPart pn fun p => { p with activity := false, pmAt := s.cornerClk pn }
  if (s.gridCores grid).isEmpty then s.modGrid grid fun g => { g with since := s.cornerClk g.part } else s

/-! ### Carrying out bind records (R318) -/

/-- The record that dispatch may carry out at an index: V is 1, OP is the one asked for, and no earlier record of the table names one
of its cores. -/
def State.bindAt (s : State) (sl ix op : Nat) : Option Bind :=
  let x := s.slice sl
  match Tab.find? x.binds ix with
  | none => none
  | some b =>
    let before := x.binds.any fun p => p.2.v && decide (p.1 < ix) && !((p.2.cores &&& b.cores) == 0#64)
    if b.v && b.op == op && !before && !((s.owner sl).stalled) then some b else none

/-- A record has been carried out: V becomes 0. -/
def State.bindDone (s : State) (sl ix : Nat) : State :=
  s.modSlice sl fun y => { y with binds := match Tab.find? y.binds ix with
    | some b => Tab.put y.binds ix { b with v := false }
    | none => y.binds }

/-- The cores that a record names, in ascending order. -/
def Bind.coreList (b : Bind) : List Nat := (List.range 64).filter fun c => b.cores.getLsbD c

/-- Whether a grid takes no more teams: it has retired, or the kernel has ended it. -/
def Grid.closed (g : Grid) : Bool := !(g.st == .eligible) || g.ended == g.teams

/-- BIND_PLACE (R318): teams TEAM0 to TEAM0 + NTEAM − 1 start on the cores named, each filled up to T in ascending order. -/
def execBindPlace (sl ix : Nat) (s : State) : Out State :=
  match s.bindAt sl ix 1 with
  | none => .fault .notPossible
  | some b =>
    if (s.grid b.grid).closed then .next (s.bindDone sl ix)
    else
      let l := shareOut (b.coreList.map fun c => { sl, core := c, room := s.coreRoom b.grid [] sl c, need := 0 }) b.nteam
      if teamsOf l < b.nteam then .fault .notPossible
      else
        let s := (s.startSlice b.grid).bindDone sl ix
        match l.foldl (fun (acc : Option (State × Nat)) x => acc.bind fun a =>
            (a.1.placeOn b.grid sl x.core a.2 x.room).map fun s => (s, a.2 + x.room)) (some (s, b.team0)) with
        | some (s, _) => .next s
        | none => .fault .notPossible

/-- A unit is withdrawn (R294): it issues no more, and its open regions end with CODE 0x07, unless a lane holds the serial token,
which it releases first (R248), or a handler runs masked (R297). -/
def State.withdraw (s : State) (u : Nat) : State :=
  let w := s.unit u
  if !w.live || !(w.wd == .no) then s
  else
    let s := s.modUnit u fun w => { w with wd := .preparing, wdAt := s.clk w }
    if s.lingers u then s else s.abortLanes u allLanes Config.abPreempted 0

/-- The teams that a withdrawal record names (R294, R318): those on the cores named, or the last NTEAM of the slice; all teams of a
grid with flag bit 0, and whole clusters of a launch with a Reckoner (R133). -/
def State.withdrawn (s : State) (sl : Nat) (b : Bind) : List Nat :=
  let g := s.grid b.grid
  let all := s.teamsWhere fun t => t.grid == b.grid && t.st == .placed
  let here := all.filter fun t => (s.team t).slice == sl
  let hit := if b.cores = 0#64 then (sortBy (fun x y => decide ((s.team y).idx ≤ (s.team x).idx)) here).take b.nteam
    else here.filter fun t => b.cores.getLsbD (s.team t).core
  if recWhole g.recb then all
  else if recReck g.recb then here.filter fun t => hit.any fun h => (s.team h).core / 4 == (s.team t).core / 4
  else hit

/-- The Reckoners that go with withdrawn teams or stand on cores that the record names (R133). -/
def State.withdrawnRecks (s : State) (sl : Nat) (b : Bind) (tms : List Nat) : List Nat :=
  (s.units.filter fun p => p.2.live && p.2.reck && p.2.grid == b.grid &&
    ((tms.any fun t => (s.team t).slice == p.2.slice && (s.team t).core / 4 == p.2.core / 4) ||
     (p.2.slice == sl && b.coreList.any fun c => c / 4 == p.2.core / 4))).map (·.1)

/-- The bytes that teams of a grid take in the save area of their context (R215, R295). -/
def State.saveSize (s : State) (tms : List Nat) : Nat :=
  (tms.map fun tm =>
    let t := s.team tm
    Config.savedBytes t.warps.length (fieldAt (s.grid t.grid).recb 0x20 1) t.win).sum

/-- The teams of a context that are saved, or that are being withdrawn. -/
def State.savedOf (s : State) (pn asid : Nat) : List Nat :=
  s.teamsWhere fun t => (s.grid t.grid).part == pn && (s.grid t.grid).asid == asid &&
    (t.st == .saved || (t.st == .placed && t.warps.any fun u => (s.unit u).live && !((s.unit u).wd == .no)))

/-- Whether the save area has room for teams of a grid besides (R215). -/
def State.saveRoom (s : State) (g : Grid) (tms : List Nat) : Bool :=
  let old := s.savedOf g.part g.asid
  decide (s.saveSize (old ++ tms.filter fun t => !(old.contains t)) ≤ (s.ctxOf g).savesz)

/-- BIND_WITHDRAW (R215, R294): once the save area has room, issue stops on the cores named for the grid's warps, which are prepared to
be saved. -/
def execBindWithdraw (sl ix : Nat) (s : State) : Out State :=
  match s.bindAt sl ix 2 with
  | none => .fault .notPossible
  | some b =>
    let tms := s.withdrawn sl b
    if !(s.saveRoom (s.grid b.grid) tms) then .fault .notPossible
    else
    let us := (tms.flatMap fun t => (s.team t).warps) ++ s.withdrawnRecks sl b tms
    .next ((us.foldl State.withdraw s).bindDone sl ix)

/-! ### Saving a team (R294, R295, R297) -/

/-- Whether a unit has been prepared (R294, R297): every issued instruction has finished and nothing holds it where it is. -/
def State.prepared (s : State) (u : Nat) : Bool :=
  let w := s.unit u
  !w.live || ((w.wd == .preparing || w.wd == .graceOver) && !(s.lingers u) && !(w.busy allLanes) && !w.halted && w.frozen.isNone &&
    w.lanesWhere allLanes (fun t => t.pend.isSome) == 0#32 &&
    (match w.ovw with
     | some o => !o.copying
     | none => true))

/-- A unit leaves its core: what is left of its regions ends with CODE 0x07, and an OVLOAD that waits is to be issued anew. -/
def State.saveUnit (s : State) (u : Nat) : State :=
  let w := s.unit u
  if !w.live then s
  else
    let s := s.abortLanes u allLanes Config.abPreempted 0
    let s := if !w.reck && Tab.find? (s.core w.coreKey).cur (w.k % 4) == some u then s.leaveSlot w.coreKey (w.k % 4) else s
    s.modUnit u fun w => { w with wd := .saved, ovw := none }

/-- A team is saved with its core's overlay slots, and with its Reckoner where it has one (R133). -/
def State.saveTeam (s : State) (group : Option Nat) (tm : Nat) : State :=
  let t := s.team tm
  let c := s.core (64 * t.slice + t.core)
  let s := t.warps.foldl State.saveUnit s
  let s := s.modUnit (t.warps.headD 0) fun w => { w with kept := [{ Core.init with ov0 := c.ov0, ov1 := c.ov1 }] }
  s.modTeam tm fun t => { t with st := .saved, group }

/-- The Reckoner of a launch that stands on a cluster, ended or not. -/
def State.clusterReck (s : State) (grid sl cl : Nat) : Option Nat :=
  s.findUnit fun w => w.reck && w.grid == grid && !(w.wd == .saved) && w.slice == sl && w.core / 4 == cl

/-- The teams that are saved with a team (R133): for a launch with a Reckoner those of its cluster. -/
def State.saveGroup (s : State) (tm : Nat) : List Nat :=
  let t := s.team tm
  if (s.clusterReck t.grid t.slice (t.core / 4)).isSome then
    s.teamsWhere fun x => x.grid == t.grid && x.slice == t.slice && x.core / 4 == t.core / 4 && x.st == .placed
  else if t.st = .placed then [tm] else []

/-- TEAM_SAVE (R294, R295): a withdrawn team whose warps have been prepared and whose engine commands have ended is saved, once no queued
matrix instruction is its Reckoner's, on whatever core, or reads its tiles; a launch with a Reckoner saves its whole cluster, the
accumulators and bindings with it (R133). -/
def execTeamSave (tm : Nat) (s : State) : Out State :=
  let t := s.team tm
  let cl := t.core / 4
  let rk := s.clusterReck t.grid t.slice cl
  let tms := s.saveGroup tm
  let us := (tms.flatMap fun x => (s.team x).warps) ++ rk.toList
  let keys := (List.range 4).map fun j => 64 * t.slice + 4 * cl + j
  if (s.part (s.grid t.grid).part).stalled || !(us.any fun u => (s.unit u).live) || !(us.all fun u => s.prepared u) ||
      s.cmds.any (fun c => tms.contains c.team || us.contains c.u ||
        (rk.isSome && (s.team c.team).grid == t.grid && (s.team c.team).slice == t.slice && (s.team c.team).core / 4 == cl)) ||
      (rk.isSome && keys.any fun k => !((s.core k).mq.isEmpty)) ||
      (s.cores.any fun p => p.2.mq.any fun o => us.contains o.u || tms.contains o.bTeam) then .fault .notPossible
  else
    let s := tms.foldl (fun s tm => s.saveTeam rk tm) s
    match rk with
    | none => .next s
    | some u =>
      let ro : Core := { Core.init with ov0 := Tab.get Ovl.init s.rovl (16 * t.slice + cl) }
      let kept := (keys.map fun k => s.core k) ++ [ro]
      .next ((s.saveUnit u).modUnit u fun w => { w with wd := .saved, kept })

/-- GRACE_WINDOW_END (R297): 300,000 cycles after the withdrawal a warp whose handler still runs masked is saved all the same. -/
def execGraceWindowEnd (u : Nat) (s : State) : Out State :=
  let w := s.unit u
  if !w.live || !(w.wd == .preparing) || w.halted || w.lanesWhere allLanes (fun t => t.pend.isSome) != 0#32 || (s.part w.part).stalled || !(s.lingers u) ||
      decide ((s.clk w).toNat < w.wdAt.toNat + 300000) then .fault .notPossible
  else .next (s.modUnit u fun w => { w with wd := .graceOver })

/-! ### Returning saved teams (R295, R296) -/

/-- A deadline of one slice's CLK in terms of another's. -/
def moveDeadline (old new d : DWord) : DWord := if d.toNat ≤ old.toNat then new else new + (d - old)

/-- A blocked wait on the new slice: it ends as many cycles from now as it would have. -/
def Wait.move (x : Wait) (old new : DWord) : Wait :=
  match x with
  | .counter va thr sc (some d) m => .counter va thr sc (some (moveDeadline old new d)) m
  | .sleep till m => .sleep (moveDeadline old new till) m
  | .none | .counter _ _ _ Option.none _ | .barrier _ | .grow _ _ | .tile _ => x

/-- A unit takes its new place; WARP, GRID and its issue slot stay (R296). -/
def State.returnUnit (s : State) (sl core u : Nat) : State :=
  let w := s.unit u
  let old := s.clk w
  let new := (s.slice sl).clk
  let cw := if w.reck then 0 else s.freeCw sl core
  s.setUnit u { w.mapLanes w.liveMask (fun _ t => { t with wait := t.wait.move old new }) with
    slice := sl, core, cw, wd := .no, kept := [] }

/-- A saved team is back on a core (R296), with its images in the slots where they were. -/
def State.returnTeam (s : State) (sl core tm : Nat) : State :=
  let key := 64 * sl + core
  let s := (List.range 2).foldl (fun s k =>
    let o := s.keptOvl tm k
    if o.tag.isNone || (if k = 0 then (s.core key).ov0 else (s.core key).ov1).tag == o.tag || !(s.slotFree key k []) then s
    else s.setOvl key k o) s
  let s := (s.team tm).warps.foldl (fun s u => s.returnUnit sl core u) s
  s.modTeam tm fun t => { t with st := .placed, slice := sl, core, group := none }

/-- Saved teams that fit go back to one core, in ascending index. -/
def State.returnTo (s : State) (grid sl core : Nat) : State :=
  (s.savedTeams grid).foldl (fun s tm =>
    if s.coreSpace grid [] sl core = 0 || !(s.canRestore tm (64 * sl + core) []) then s else s.returnTeam sl core tm) s

/-- A saved cluster is back on a free one: the Reckoner, the teams, both accumulators, holds and bindings (R133). -/
def State.returnCluster (s : State) (u sl cl : Nat) : State :=
  let w := s.unit u
  let kept := w.kept
  let tms := s.clusterTeams u
  let s := (List.range 4).foldl (fun s j => s.modCore (64 * sl + 4 * cl + j) fun c =>
    let k := kept.getD j Core.init
    { c with acc := k.acc, hold := k.hold, bind := k.bind }) s
  let s := s.setRovl (16 * sl + cl) (kept.getD 4 Core.init).ov0
  let s := tms.foldl (fun s tm => s.returnTeam sl (4 * cl + (s.team tm).core % 4) tm) s
  s.returnUnit sl (4 * cl) u

/-- BIND_RETURN (R296, R318): saved teams of the grid are placed again on the cores named, as far as they have room; those of a grid with
flag bit 0 once all that the record names have (R320). -/
def execBindReturn (sl ix : Nat) (s : State) : Out State :=
  match s.bindAt sl ix 3 with
  | none => .fault .notPossible
  | some b =>
    let cs := b.coreList
    match s.savedRecks b.grid with
    | u :: _ =>
      if !(cs.all fun c => s.clusterSpace b.grid [] sl c == 1) then .fault .notPossible
      else .next (((s.startSlice b.grid).returnCluster u sl (cs.headD 0 / 4)).bindDone sl ix)
    | [] =>
      let s' := cs.foldl (fun s c => s.returnTo b.grid sl c) (s.startSlice b.grid)
      let back := (s.savedTeams b.grid).length - (s'.savedTeams b.grid).length
      let need := Nat.min (if recWhole (s.grid b.grid).recb then b.nteam else 1) (s.savedTeams b.grid).length
      if back < need then .fault .notPossible
      else .next (s'.bindDone sl ix)

end Sys2Proof.Machine
end

