-- ==== Sys2Proof/Machine/Partitions.lean ====
section
/-!
DEFINITION. Partitions and power (R302, R303, R309 to R311, R329): fusing, booting, resizing, dissolving, scrubbing, and what power
and the root of trust do.
-/

namespace Sys2Proof.Machine

/-- Whether the root of trust answers: the primary on slice 0, or the standby on slice 23 (R307, R325). -/
def State.rotUp (s : State) : Bool := s.powered && ((s.slice 0).srdy.getLsbD 0 || (s.rot.standby && (s.slice 23).srdy.getLsbD 0))

/-- The slices of a rectangle (R302). -/
def rectSlices (x0 x1 y0 y1 : Nat) : List Nat :=
  (List.range 24).filter fun i => decide (x0 ≤ i % 6) && decide (i % 6 ≤ x1) && decide (y0 ≤ i / 6) && decide (i / 6 ≤ y1)

/-- The 48 bytes of a measurement. -/
def measBytes (m : BitVec 384) : List Byte := leBytes 48 m.toNat

/-- An extend (R330): M := SHA-384(M ‖ d). -/
def Part.extend (p : Part) (ix : Nat) (d : List Byte) : Part :=
  { p with meas := Tab.set 0#384 p.meas ix (Config.sha384 (measBytes (Tab.get 0#384 p.meas ix) ++ d)) }

/-- A slice that joins a partition (R303, R306, R310): its registers at reset, its route to the corner. One that a resize adds takes
teams only at the end of its step. -/
def Slice.join (x : Slice) (pn corner : Nat) (placing : Bool) : Slice :=
  { Slice.init with
    st := .owned, part := some pn, placing := placing, clk := x.clk, srdy := x.srdy, srWait := x.srWait, srBusy := x.srBusy, upAt := x.upAt,
    irqroute := resetRoute corner }

/-- A slice that leaves its partition (R311): its on-die storage is cleared, and its stacks are to be scrubbed. -/
def Slice.leave (x : Slice) : Slice :=
  { Slice.init with st := .scrubbing, clk := x.clk, srdy := x.srdy, srWait := x.srWait, srBusy := x.srBusy, upAt := x.upAt }

/-- Clears what a slice keeps on its die (R311): its cores, clusters, harts and register block, its port's associations, and what waits
in its stack controllers; and starts its scrub. -/
def State.leaveSlice (s : State) (sl : Nat) : State :=
  let s := (s.clearSlice sl).modSlice sl Slice.leave
  let s : State := { s with rot := { s.rot with assocs := s.rot.assocs.filter fun a => !(a.1 / 2 ^ 24 == sl) } }
  let clear := fun (t : Stack) => { t with late := [], held := [], replies := [] }
  (s.modStack (2 * sl) clear).modStack (2 * sl + 1) clear

/-- Whether the root of trust can have a slice for a partition (R302, R310, R311): it is FREE, and no resize under way has asked for it. -/
def State.sliceOpen (s : State) (sl : Nat) : Bool :=
  (s.slice sl).st == .free && (s.slice sl).part.isNone &&
  !(s.parts.any fun p => p.2.resize.any fun r => r.add && r.todo.contains sl)

/-- The functions of a slice whose bring-up has failed (R307): those whose bit has not risen within 20 ms, 60,000,000 cycles, of power-on
or of the last reset. -/
def State.failed (s : State) (sl : Nat) : List (Nat × Nat) :=
  let x := s.slice sl
  if x.clk.toNat < x.upAt.toNat + 60000000 then []
  else ((List.range 32).filter fun b => s.srdyBit sl b && !(x.srdy.getLsbD b)).map fun b => (sl, b)

/-- A slice is fused: the root of trust records the functions that have failed there, and reports them to the kernel (R303, R307). -/
def State.fuseSlice (s : State) (pn sl : Nat) : State :=
  let bad := s.failed sl
  let s := s.modSlice sl fun y => y.join pn (s.part pn).corner (s.part pn).resize.isNone
  let s := s.modPart pn fun p => { p with fails := p.fails ++ bad }
  { s with rot := { s.rot with fails := bad.foldr addNew s.rot.fails } }

/-- The firewall, range table and interrupt routes of a fusing, as they are measured (R330). -/
def fuseBytes (p : Part) : List Byte :=
  [p.x0, p.x1, p.y0, p.y1, if p.world then 1 else 0, p.corner].map (BitVec.ofNat 8) ++
  p.ranges.flatMap fun r => leBytes 8 r.base.toNat ++ leBytes 8 r.size.toNat ++ leBytes 8 r.stk.toNat ++ leBytes 8 r.ctl.toNat

/-- Under what a new partition is kept: its number, or where a partition that a resize has moved on is still kept under that, the first
that is not taken (log 80). -/
def State.partKey (s : State) (number : Nat) : Nat :=
  (number :: List.range 24).find? (fun i => !((s.part i).live)) |>.getD number

/-- PARTITION_FUSE (R302, R303, R309, R330): every slice of the rectangle is FREE; each is programmed, the fusing is measured, and hart 0
of the corner slice starts at the boot stub. -/
def execPartitionFuse (x0 x1 y0 y1 : Nat) (world : Bool) (ranges : List RangeWords) (s : State) : Out State :=
  let pn := s.partKey (6 * y0 + x0)
  let sls := rectSlices x0 x1 y0 y1
  if !s.rotUp || decide (x1 < x0) || decide (5 < x1) || decide (y1 < y0) || decide (3 < y1) || !(sls.all s.sliceOpen) then .fault .notPossible
  else
    let p : Part := { Part.init with
      live := true, x0, x1, y0, y1, world, slices := sls, ranges := (List.range 16).map fun i => rangeBits (ranges.getD i rangeZero) }
    let p := ((p.extend 0 Config.rotFirmware).extend 1 Config.bootStub).extend 3 (fuseBytes p)
    let s := sls.foldl (fun s i => s.fuseSlice pn i) (s.modPart pn fun _ => p)
    .next { s with harts := Tab.put s.harts (8 * p.corner) { Hart.init with halted := false } }

/-- KERNEL_BOOT (R309, R330): what the stub fetches over a port of the partition has come, under the transport key of the partition's
world; the image is measured, and hart 0 of the corner slice runs it only if its signature holds. A failed check halts the hart, and SPDM
reports it. -/
def execKernelBoot (pn : Nat) (image : List Byte) (sigOk : Bool) (s : State) : Out State :=
  let p := s.part pn
  if !s.rotUp || !p.live || p.kernelUp || p.bootFail || !((s.slice p.corner).srdy.getLsbD 3) ||
      !(p.slices.any fun i => (s.slice i).srdy.getLsbD 8 && (s.slice i).srdy.getLsbD 9 && !((s.slice i).portFrozen)) then .fault .notPossible
  else
    let s := s.modPart pn fun p => { p.extend 2 (Config.bootImage p.world image) with kernelUp := sigOk, bootFail := !sigOk }
    .next { s with harts := Tab.put s.harts (8 * p.corner) { Hart.init with halted := !sigOk } }

/-! ### Moving lines (R310) -/

/-- The physical addresses that a stack's byte has under a range table. -/
def Part.unmap (p : Part) (k : Nat) : List Nat :=
  p.ranges.filterMap fun r =>
    let stk := k / 2 ^ 36
    let off := r.ctl.toNat / 65536 % 1048576 * 65536
    let set := (List.range 48).filter fun i => r.stk.getLsbD i
    let g := 128 * 2 ^ (r.ctl.toNat % 16)
    let rel := k % 2 ^ 36 - off
    let pa := r.base.toNat + (rel / g * set.length + (set.takeWhile fun i => !(i == stk)).length) * g + rel % g
    if r.stk.getLsbD stk && decide (off ≤ k % 2 ^ 36) && (match p.locate pa with
      | some l => l.key == k
      | none => false) then some pa else none

/-- Where a byte of the partition's stacks goes when its range table becomes that of `q`. -/
def Part.moves (p q : Part) (k : Nat) : List Nat := (p.unmap k).filterMap fun pa => (q.locate pa).map fun l => l.key

/-- Whether a line that moves comes to a place when the range table becomes that of `q`. -/
def Part.lands (p q : Part) (k : Nat) : Bool := (q.unmap k).any fun pa => (p.locate pa).isSome

/-- Moves the entries of a table whose keys, times `unit`, are places in the stacks; those of slices for which `stays` holds remain
where they are as well, and so do those that no range maps, unless a line comes to their place. -/
def moveTab {β : Type} (p q : Part) (unit : Nat) (mine stays : Nat → Bool) (t : Tab β) : Tab β :=
  t.foldl (fun (acc : Tab β) e =>
    if mine (e.1 * unit / 2 ^ 37) then
      (p.moves q (e.1 * unit)).foldl (fun acc k => Tab.put acc (k / unit) e.2) acc
    else acc) (t.filter fun e =>
      let k := e.1 * unit
      !(mine (k / 2 ^ 37)) || stays (k / 2 ^ 37) || ((p.unmap k).isEmpty && !(p.lands q k)))

/-- The logs of a transaction after its partition's lines have moved. -/
def Spec.moveLogs (sp : Spec) (move : Nat → Nat) : Spec :=
  let sec := fun (x : Nat) => move (32 * x) / 32
  { sp with rlog := sp.rlog.map fun x => (sec x.1, x.2)
            wlog := sp.wlog.foldl (fun t x => Tab.put t (move x.1) x.2) []
            uncs := sp.uncs.map sec }

/-- The partition's range table becomes that of `q`: every line moves, poisoned lines still poisoned. What was found at the old places
is found at the new ones: held translations, transaction logs, and reservations, which are lost. -/
def State.relocate (s : State) (pn : Nat) (q : Part) (stays : Nat → Bool) : State :=
  let p := s.part pn
  let mine := fun (sl : Nat) => p.slices.contains sl || q.slices.contains sl
  let move := fun (k : Nat) => ((p.moves q k).head?).getD k
  { s with
    slices := s.slices.map fun x => (x.1, if mine x.1 then { x.2 with tlb := x.2.tlb.map fun t => { t with ent := move t.ent } } else x.2)
    units := s.units.map fun x => (x.1, if x.2.part = pn then
      { x.2 with th := x.2.th.map fun l => (l.1, { l.2 with sp := l.2.sp.moveLogs move }) } else x.2)
    resv := s.resv.filter fun r => !(mine (r.2.1 / 2 ^ 37))
    mem := moveTab p q 1 mine stays s.mem
    poison := moveTab p q 128 mine stays s.poison
    ecc := moveTab p q 64 mine stays s.ecc
    packed := moveTab p q 128 mine stays s.packed
    parts := Tab.put s.parts pn q }

/-- The units of 64 KiB that a range takes on each of `n` stacks. -/
def rangeUnits (r : RangeWords) (n : Nat) : Nat := (r.size.toNat + n * 65536 - 1) / (n * 65536)

/-- The stacks of a set. -/
def stacksOf (x : DWord) : List Nat := (List.range 48).filter fun i => x.getLsbD i

/-- A range table with the stack set of every enabled entry changed by `f`: an entry whose set changes takes, on each stack of its
new set, the lowest offset above what the entries before it and the unchanged ones use. None where a stack is too small. -/
def reRange (rs : List RangeWords) (f : DWord → DWord) : Option (List RangeWords) :=
  let on := fun (r : RangeWords) => !(r.size == 0#64) && decide (r.ctl.toNat % 16 ≤ 9) && !(r.stk == 0#64)
  let ends := fun (used : List Nat) (r : RangeWords) (off : Nat) =>
    used.mapIdx fun i u => if r.stk.getLsbD i then Nat.max u (off + rangeUnits r (stacksOf r.stk).length) else u
  let fixed := rs.filter fun r => on r && f r.stk == r.stk
  let used := fixed.foldl (fun used r => ends used r (r.ctl.toNat / 65536 % 1048576)) (List.replicate 48 0)
  let r := rs.foldl (fun (acc : List RangeWords × List Nat) r =>
    if !(on r) || f r.stk == r.stk then (acc.1 ++ [r], acc.2)
    else
      let off := (stacksOf (f r.stk)).foldl (fun m i => Nat.max m (acc.2.getD i 0)) 0
      let r := { r with stk := f r.stk, ctl := BitVec.ofNat 64 (r.ctl.toNat % 65536 + off * 65536) }
      (acc.1 ++ [r], ends acc.2 r off)) ([], used)
  if r.2.all fun u => decide (u ≤ 0xFFC00) then some r.1 else none

/-- The two stacks of a slice as a set. -/
def sliceStacks (sl : Nat) : DWord := 3#64 <<< (2 * sl)

/-! ### Resizing (R310) -/

/-- The rectangle that a resize goes to, where there is one. -/
def Part.resized (p : Part) (add : Bool) (e : Edge) : Option (Nat × Nat × Nat × Nat) :=
  match add, e with
  | true, .left => if 0 < p.x0 then some (p.x0 - 1, p.x1, p.y0, p.y1) else none
  | true, .right => if p.x1 < 5 then some (p.x0, p.x1 + 1, p.y0, p.y1) else none
  | true, .top => if 0 < p.y0 then some (p.x0, p.x1, p.y0 - 1, p.y1) else none
  | true, .bottom => if p.y1 < 3 then some (p.x0, p.x1, p.y0, p.y1 + 1) else none
  | false, .left => if p.x0 < p.x1 then some (p.x0 + 1, p.x1, p.y0, p.y1) else none
  | false, .right => if p.x0 < p.x1 then some (p.x0, p.x1 - 1, p.y0, p.y1) else none
  | false, .top => if p.y0 < p.y1 then some (p.x0, p.x1, p.y0 + 1, p.y1) else none
  | false, .bottom => if p.y0 < p.y1 then some (p.x0, p.x1, p.y0, p.y1 - 1) else none

/-- PARTITION_RESIZE (R310, R330): the kernel requests it; slices to be added are FREE, and a request waits while another resize
runs. The new rectangle is measured. -/
def execPartitionResize (pn : Nat) (add : Bool) (edge : Edge) (s : State) : Out State :=
  let p := s.part pn
  if !s.rotUp || !p.live || !p.kernelUp || p.resize.isSome then .fault .notPossible
  else match p.resized add edge with
    | none => .fault .notPossible
    | some (x0, x1, y0, y1) =>
      let now := rectSlices p.x0 p.x1 p.y0 p.y1
      let new := rectSlices x0 x1 y0 y1
      let todo := if add then new.filter fun i => !(now.contains i) else now.filter fun i => !(new.contains i)
      if add && !(todo.all s.sliceOpen) then .fault .notPossible
      else .next (s.modPart pn fun p =>
        { p.extend 4 ([x0, x1, y0, y1].map (BitVec.ofNat 8)) with resize := some { add, x0, x1, y0, y1, todo } })

/-- The last step of a resize: the rectangle is the new one, and slices that leave go to scrubbing. -/
def State.endResize (s : State) (pn : Nat) (r : Resize) : State :=
  let keep := rectSlices r.x0 r.x1 r.y0 r.y1
  let out := (s.part pn).slices.filter fun i => !(keep.contains i)
  let s := s.modPart pn fun p => { p with x0 := r.x0, x1 := r.x1, y0 := r.y0, y1 := r.y1, slices := keep, resize := none }
  out.foldl State.leaveSlice s

/-- A slice has been handled. -/
def State.nextResize (s : State) (pn : Nat) (r : Resize) : State :=
  if r.todo.tail.isEmpty then s.endResize pn r
  else s.modPart pn fun p => { p with resize := some { r with todo := r.todo.tail } }

/-- Placing stops on a slice and its teams are withdrawn (R294, R310), a grid with flag bit 0 wholly. -/
def State.emptySlice (s : State) (sl : Nat) : State :=
  let here := (s.units.filter fun p => p.2.live && p.2.slice == sl && !(p.2.wd == .saved)).map fun p => (p.1, p.2.grid)
  let whole := fun (g : Nat) => here.any fun h => h.2 == g && recWhole (s.grid g).recb
  let us := (s.units.filter fun p => p.2.live && (here.any (fun h => h.1 == p.1) || whole p.2.grid)).map (·.1)
  us.foldl State.withdraw (s.modSlice sl fun y => { y with placing := false })

/-- Whether nothing of the partition stands on a slice any more. -/
def State.sliceEmpty (s : State) (sl : Nat) : Bool :=
  !(s.units.any fun p => p.2.live && p.2.slice == sl && !(p.2.wd == .saved)) &&
  !(s.teams.any fun p => p.2.slice == sl && p.2.st == .placed) &&
  !(s.cmds.any fun c => (s.unit c.u).slice == sl && !((s.unit c.u).wd == .saved)) &&
  !(s.cores.any fun p => p.1 / 64 == sl && !(p.2.mq.isEmpty))

/-- Records and child launches that wait on a slice that leaves: the teams are to be placed anew, the launches wait at the corner of
the new rectangle. -/
def State.handOver (s : State) (sl dest : Nat) : State :=
  let cs := (s.slice sl).childQ
  let s := (s.dropBinds sl).modSlice sl fun y => { y with binds := [], childQ := [] }
  s.modSlice dest fun y => { y with childQ := y.childQ ++ cs }

/-- Whether the slices of a partition all serve their memory, so that lines can move between them (R307, R310). -/
def State.linesMove (s : State) (p : Part) : Bool :=
  p.slices.all fun i => homeReady s (i * 2 ^ 37) && homeReady s (i * 2 ^ 37 + 2 ^ 36)

/-- The teams that stand on a slice which leaves, those of a grid with flag bit 0 wherever they are. -/
def State.leavers (s : State) (sl : Nat) : List Nat :=
  let here := s.teamsWhere fun t => t.slice == sl && t.st == .placed
  let whole := fun (g : Nat) => here.any fun t => (s.team t).grid == g && recWhole (s.grid g).recb
  s.teamsWhere fun t => t.st == .placed && (t.slice == sl || whole t.grid)

/-- Whether the save areas of the contexts concerned have room for the teams that leave a slice (R215). -/
def State.leaveRoom (s : State) (sl : Nat) : Bool :=
  let tms := s.leavers sl
  (tms.map fun t => (s.team t).grid).all fun g =>
    s.saveRoom (s.grid g) (tms.filter fun t => (s.grid (s.team t).grid).part == (s.grid g).part && (s.grid (s.team t).grid).asid == (s.grid g).asid)

/-- Whether some unit on a slice has not been withdrawn yet. -/
def State.standing (s : State) (sl : Nat) : Bool := s.units.any fun p => p.2.live && p.2.slice == sl && p.2.wd == .no

/-- RESIZE_SLICE_STEP (R310): the next slice of a resize. A slice that leaves first gives up its teams, once their contexts' save areas
have room for them (R215), and when it is empty its lines move to the others; a slice that joins is fused, and when it is up lines are
interleaved onto it. Lines move while every slice concerned serves its memory (R307). -/
def execResizeSliceStep (pn : Nat) (s : State) : Out State :=
  let p := s.part pn
  match p.resize with
  | none => .fault .notPossible
  | some r =>
    match r.todo with
    | [] => .next (s.endResize pn r)
    | sl :: _ =>
      if !s.rotUp then .fault .notPossible
      else if r.add then
        if !(p.slices.contains sl) then
          if !((s.slice sl).st == .free) || (s.slice sl).part.isSome then .fault .notPossible
          else .next ((s.fuseSlice pn sl).modPart pn fun p => { p with slices := p.slices ++ [sl] })
        else if !(s.linesMove p) then .fault .notPossible
        else match reRange p.ranges fun x => x ||| sliceStacks sl with
        | none => .fault .notPossible
        | some rs => .next (((s.relocate pn { p with ranges := rs } fun _ => false).modSlice sl fun y => { y with placing := true }).nextResize pn r)
      else if (s.slice sl).placing && !(s.leaveRoom sl) then .next (s.modSlice sl fun y => { y with placing := false })
      else if (s.slice sl).placing || s.standing sl then
        if s.leaveRoom sl then .next (s.emptySlice sl) else .fault .notPossible
      else if !(s.sliceEmpty sl) || (s.slice sl).srBusy || !(s.linesMove p) then .fault .notPossible
      else
        let rest := rectSlices r.x0 r.x1 r.y0 r.y1
        let all : DWord := rest.foldl (fun m i => m ||| sliceStacks i) 0#64
        match reRange p.ranges fun x => if x &&& ~~~(sliceStacks sl) = 0#64 then all else x &&& ~~~(sliceStacks sl) with
        | none => .fault .notPossible
        | some rs =>
          let s := (s.handOver sl (6 * r.y0 + r.x0)).relocate pn { p with ranges := rs } fun i => i == sl
          .next (s.nextResize pn r)

/-! ### Dissolving and scrubbing (R311, R325) -/

/-- Removes everything that runs in a partition or is recorded of it. -/
def State.wipePart (s : State) (pn : Nat) : State :=
  let mine := fun (g : Nat) => (s.grid g).part == pn
  let agent := fun (a : Agent) => (agentPlace s a).1 == pn
  { s with
    units := s.units.filter fun p => !(p.2.part == pn)
    teams := s.teams.filter fun p => !(mine p.2.grid)
    cmds := s.cmds.filter fun c => !((s.unit c.u).part == pn)
    grids := s.grids.filter fun p => !(p.2.part == pn)
    order := { agents := s.order.agents.filter fun p => !(agent p.1)
               accs := s.order.accs.filter fun x => !(agent x.agent)
               rels := s.order.rels.filter fun x => !(agent x.agent) } }

/-- PARTITION_DISSOLVE (R311, R325): every key it held is destroyed, and its slices go to scrubbing. -/
def execPartitionDissolve (pn : Nat) (s : State) : Out State :=
  let p := s.part pn
  if !s.rotUp || !p.live || p.resize.isSome then .fault .notPossible
  else
    let s := s.wipePart pn
    let s := p.slices.foldl State.leaveSlice s
    let s : State := { s with
      rot := { s.rot with
        keys := s.rot.keys.map fun k => if k.part = pn then { k with dead := true } else k }
      parts := Tab.del s.parts pn }
    .next s

/-- The zero requests of a chunk have activated each of its rows once (R335, R350): a row whose count reaches the threshold of class 0,
the requests coming through no range, awaits refresh management (R338). -/
def State.scrubRows (s : State) (stk chunk : Nat) : State :=
  let t := s.stack stk
  let lim := threshold (s.slice (stk / 2)).actctl 0
  let mine := fun (k : Nat) => k % 8192 / 8 == chunk
  let all := Tab.get 0 t.base chunk + 1
  let counts := t.counts.map fun p => (p.1, if mine p.1 then p.2 + 1 else p.2)
  let own := (counts.filter fun p => mine p.1 && decide (lim ≤ p.2)).map (·.1)
  let rest := if all < lim then [] else
    ((List.range 4096).flatMap fun b => (List.range 8).map fun r => 8192 * b + 8 * chunk + r).filter fun k => (Tab.find? counts k).isNone
  s.modStack stk fun t =>
    { t with counts, base := Tab.put t.base chunk all, due := (own ++ rest).foldl (fun d k => Tab.put d k s.tick) t.due,
             openRow := [], asked := [], doneAt := [] }

/-- Whether no bank of a stack backs requests off (R339). -/
def State.banksOpen (s : State) (stk : Nat) : Bool :=
  (s.stack stk).blocked.isEmpty && !((s.stack stk).due.any fun p => decide (p.2 < s.tick))

/-- SCRUB_CHUNK (R311, R347, R350): the next 64 MiB of a slice's stacks are zeroed and committed; poison is cleared with them, and the
last chunk of a stack clears its compressed flags. After the last chunk the slice is FREE. -/
def execScrubChunk (sl : Nat) (s : State) : Out State :=
  let x := s.slice sl
  let k := x.chunk / 1024
  if !s.rotUp || !(x.st == .scrubbing || x.st == .tainted) || !(x.srdy.getLsbD (5 + k)) || !(s.banksOpen (2 * sl + k)) then
    .fault .notPossible
  else
    let stk := 2 * sl + k
    let lo := stk * 2 ^ 36 + x.chunk % 1024 * 2 ^ 26
    let out := fun (a unit : Nat) => decide (a * unit < lo) || decide (lo + 2 ^ 26 ≤ a * unit)
    let s : State := { s with
      mem := s.mem.filter fun c => out c.1 1
      poison := s.poison.filter fun c => out c.1 128
      ecc := s.ecc.filter fun c => out c.1 64
      resv := s.resv.filter fun r => out r.2.1 1
      packed := if x.chunk % 1024 = 1023 then s.packed.filter fun c => !(c.1 / 2 ^ 29 == stk) else s.packed }
    let s := s.scrubRows stk (x.chunk % 1024)
    .next (s.modSlice sl fun y => if y.chunk = 2047 then { y with st := .free, chunk := 0 } else { y with chunk := y.chunk + 1 })

/-! ### Power and the root of trust (R307, R311, R329) -/

/-- A slice that was being scrubbed is TAINTED (R311). -/
def Slice.taint (x : Slice) : Slice := if x.st = .scrubbing then { x with st := .tainted } else x

/-- A partition over a power cycle: what the root of trust has fused and measured stays. -/
def Part.repower (p : Part) : Part :=
  { Part.init with
    live := p.live, x0 := p.x0, x1 := p.x1, y0 := p.y0, y1 := p.y1, world := p.world, slices := p.slices, ranges := p.ranges,
    meas := p.meas, resize := p.resize, fails := p.fails }

/-- POWER_FAIL (R311): everything but the journal, the stacks' contents, the flash, the checkpoint store and the keys is lost. -/
def execPowerFail (s : State) : Out State :=
  if !s.powered then .fault .notPossible
  else .next { State.reset with
    powered := false
    slices := s.slices.map fun p => (p.1, { Slice.init with
      st := p.2.st, chunk := p.2.chunk, part := p.2.part, placing := p.2.placing,
      irqroute := match p.2.part with
        | some pn => resetRoute (s.part pn).corner
        | none => Slice.init.irqroute })
    parts := s.parts.map fun p => (p.1, p.2.repower)
    mem := s.mem, poison := s.poison, ecc := s.ecc, packed := s.packed
    rot := { s.rot with standby := false, assocs := [], flashOut := [] }
    nextId := s.nextId, agenda := s.agenda, tick := s.tick }

/-- POWER_ON (R307, R311): the functions of every slice come up one by one; a slice whose journal shows SCRUBBING is TAINTED. -/
def execPowerOn (s : State) : Out State :=
  if s.powered then .fault .notPossible
  else .next { s with powered := true, slices := s.slices.map fun p => (p.1, p.2.taint) }

/-- SPDM transcripts that are open restart with GET_VERSION (R329). -/
def State.restartSpdm (s : State) : State :=
  { s with parts := s.parts.map fun p => (p.1, { p.2 with spdm := Spdm.init }) }

/-- ROT_RESET (R311): a scrub that the reset interrupts leaves its slice TAINTED. -/
def execRotReset (s : State) : Out State :=
  if !s.powered then .fault .notPossible
  else .next { s.restartSpdm with slices := s.slices.map fun p => (p.1, p.2.taint) }

/-- ROT_FAILOVER (R307, R325, R329): the primary fails, and the standby on slice 23 answers with the same identity; its bit rises after
the firewall's. -/
def execRotFailover (s : State) : Out State :=
  if !s.powered || s.rot.standby then .fault .notPossible
  else
    let s := s.restartSpdm
    .next (({ s with rot := { s.rot with standby := true } } : State).modSlice 23 fun y =>
      if y.srdy.getLsbD 2 then { y with srdy := y.srdy ||| 1#32 } else y)

end Sys2Proof.Machine
end

