-- ==== Sys2Proof/Machine/RotEvents.lean ====
section
/-!
DEFINITION. The root of trust and the ports (R325 to R330): key handles, SPDM, measurements, packets and rekeys, and the flash cipher.
-/

namespace Sys2Proof.Machine

/-! ### Key handles (R325) -/

/-- The lowest key slot that has never been used. -/
def Rot.freeIndex (r : Rot) : Nat :=
  ((List.range (r.keys.length + 1)).find? fun i => !(r.keys.any fun k => k.handle.toNat % 2 ^ 24 == i)).getD r.keys.length

/-- KEY_HANDLE_ISSUE (R325): a handle of a class for a partition's kernel, or the destruction of one of its keys. -/
def execKeyHandleIssue (pn : Nat) (cls : BitVec 2) (destroy : Option Nat) (s : State) : Out State :=
  let p := s.part pn
  if !s.rotUp || !p.live then .fault .notPossible
  else
    let top := (if p.world then 2 ^ 31 else 0) + p.corner * 2 ^ 26 + cls.toNat * 2 ^ 24
    match destroy with
    | none =>
      let i := s.rot.freeIndex
      if 2 ^ 24 ≤ i then .fault .notPossible
      else
        let k : Key := { handle := BitVec.ofNat 32 (top + i), part := pn, seq := 0#64, alg := if Config.keyIsMlDsa i then 2 else 1, dead := false }
        .next { s with rot := { s.rot with keys := s.rot.keys ++ [k] } }
    | some i =>
      let mine := fun (k : Key) => k.part == pn && k.handle.toNat % 2 ^ 24 == i && k.handle.toNat / 2 ^ 24 % 4 == cls.toNat
      if s.rot.keys.any fun k => mine k && !k.dead then
        .next { s with rot := { s.rot with keys := s.rot.keys.map fun k => if mine k then { k with dead := true } else k } }
      else .fault .notPossible

/-! ### SPDM (R329, R330) -/

/-- The version byte of SPDM 1.3 and the codes of the requests answered (PRESUMED, log 12). -/
def spdmVersion : Nat := 0x13
def spdmCodes : List Nat := [0x84, 0xE1, 0xE3, 0x81, 0x82, 0x83, 0xE0]

/-- An ERROR response with its code: 0x03 Busy, 0x04 UnexpectedRequest, 0x07 UnsupportedRequest. -/
def spdmError (code : Nat) : List Byte := [spdmVersion, 0x7F, code, 0].map (BitVec.ofNat 8)

/-- The response code that answers a request code. -/
def spdmAnswer (code : Nat) : Nat := code % 128

/-- The measurement blocks 1 to 16 (R330): each its index and its 48 bytes. -/
def Part.blocks (p : Part) : List Byte :=
  (List.range 16).flatMap fun i => BitVec.ofNat 8 (i + 1) :: measBytes (Tab.get 0#384 p.meas i)

/-- The body of a response to a request, before a signature: what the spec leaves open, with the selection of ECDSA P-384 and SHA-384
in ALGORITHMS, and in MEASUREMENTS the blocks and whether the kernel's image has failed its check (R309, R329, R330). Field places are
SPDM 1.3's (PRESUMED, log 12). -/
def Part.spdmFields (p : Part) (pn code : Nat) (seen : List Byte) : List Byte :=
  let open_ := Config.spdmBody pn code seen
  if code = 0xE3 then (List.range 6).map (fun i => open_.getD i 0#8) ++ leBytes 4 4 ++ leBytes 4 0x80 ++ leBytes 4 2 ++ open_.drop 6
  else if code = 0xE0 then open_ ++ p.blocks ++ [if p.bootFail then 1#8 else 0#8]
  else open_

/-- Whether a response ends with a signature over the transcript (R329): CHALLENGE_AUTH and MEASUREMENTS. -/
def spdmSigned (code : Nat) : Bool := code == 0x83 || code == 0xE0

/-- The response to a request whose transcript, itself included, is `seen`. -/
def Part.spdmResponse (p : Part) (pn code : Nat) (seen : List Byte) : List Byte :=
  let body := [BitVec.ofNat 8 spdmVersion, BitVec.ofNat 8 (spdmAnswer code)] ++ p.spdmFields pn code seen
  if spdmSigned code then body ++ leBytes 96 (Config.spdmSig pn (Config.sha384 (seen ++ body))).toNat else body

/-- The transcript takes in a request and its response (R329); its hash runs with it. -/
def Spdm.answered (phase : Nat) (seen reply : List Byte) : Spdm :=
  { phase, transcript := seen ++ reply, hash := Config.sha384 (seen ++ reply), reply }

/-- An SPDM request of a partition (R329). `code` is the request's, `ok` whether the phase of the responder allows it, `next` the
phase it leads to. A port of the partition carries it; where the firewall has frozen every one that could, the packet is dropped and counted
(R306). -/
def spdmStep (pn code : Nat) (ok : Nat → Bool) (next : Nat → Nat) (slot0 : List Byte → Bool) (req : List Byte) (s : State) : Out State :=
  let p := s.part pn
  let c := (req.getD 1 0#8).toNat
  let ports := p.slices.filter fun i => (s.slice i).srdy.getLsbD 8 && (s.slice i).srdy.getLsbD 9
  if !s.rotUp || !p.live || ports.isEmpty || (c != code && spdmCodes.contains c) then .fault .notPossible
  else if ports.all fun i => (s.slice i).portFrozen then
    .next (s.modSlice (ports.headD 0) fun y => { y with portDrops := y.portDrops + 1 })
  else
    let fail := fun (e : Nat) => Host.Outcome.next (s.modPart pn fun p => { p with spdm := { p.spdm with reply := spdmError e } })
    if Config.rotBusy s.tick then fail 0x03
    else if c ≠ code || !(slot0 req) then fail 0x07
    else if !(ok p.spdm.phase) then fail 0x04
    else
      let seen := (if code = 0x84 then [] else p.spdm.transcript) ++ req
      .next (s.modPart pn fun p => { p with spdm := Spdm.answered (next p.spdm.phase) seen (p.spdmResponse pn code seen) })

/-- Certificate slot 0 is the only one (R329): the low bits of the request's third byte. -/
def certSlot0 (req : List Byte) : Bool := (req.getD 2 0#8).toNat % 16 == 0

/-- GET_VERSION (R329): starts the sequence anew. -/
def execGetVersion (pn : Nat) (req : List Byte) (s : State) : Out State :=
  spdmStep pn 0x84 (fun _ => true) (fun _ => 1) (fun _ => true) req s
/-- GET_CAPABILITIES (R329): after GET_VERSION. -/
def execGetCapabilities (pn : Nat) (req : List Byte) (s : State) : Out State :=
  spdmStep pn 0xE1 (fun n => n == 1) (fun _ => 2) (fun _ => true) req s
/-- NEGOTIATE_ALGORITHMS (R329): after GET_CAPABILITIES. -/
def execNegotiateAlgorithms (pn : Nat) (req : List Byte) (s : State) : Out State :=
  spdmStep pn 0xE3 (fun n => n == 2) (fun _ => 3) (fun _ => true) req s
/-- GET_DIGESTS (R329): after NEGOTIATE_ALGORITHMS. -/
def execGetDigests (pn : Nat) (req : List Byte) (s : State) : Out State :=
  spdmStep pn 0x81 (fun n => decide (3 ≤ n)) id (fun _ => true) req s
/-- GET_CERTIFICATE (R329): after NEGOTIATE_ALGORITHMS, for slot 0. -/
def execGetCertificate (pn : Nat) (req : List Byte) (s : State) : Out State :=
  spdmStep pn 0x82 (fun n => decide (3 ≤ n)) id certSlot0 req s
/-- CHALLENGE (R329): after NEGOTIATE_ALGORITHMS, for slot 0. -/
def execChallenge (pn : Nat) (req : List Byte) (s : State) : Out State :=
  spdmStep pn 0x83 (fun n => decide (3 ≤ n)) id certSlot0 req s
/-- GET_MEASUREMENTS (R329, R330): after NEGOTIATE_ALGORITHMS; all sixteen blocks. -/
def execGetMeasurements (pn : Nat) (req : List Byte) (s : State) : Out State :=
  spdmStep pn 0xE0 (fun n => decide (3 ≤ n)) id (fun _ => true) req s

/-- MEASUREMENT_EXTEND (R330): the kernel submits a value for one of registers 5 to 15. -/
def execMeasurementExtend (pn ix : Nat) (value : List Byte) (s : State) : Out State :=
  if !s.rotUp || !((s.part pn).live) || !((s.part pn).kernelUp) || decide (ix < 5) || decide (15 < ix) then .fault .notPossible
  else .next (s.modPart pn fun p => p.extend ix value)

/-! ### Packets at the ports (R326) -/

/-- The association of a port that a transport handle of the partition selects, where the port can carry traffic (R307, R326). -/
def State.assocAt (s : State) (sl a : Nat) : Option Assoc :=
  if (s.slice sl).srdy.getLsbD 8 && (s.slice sl).srdy.getLsbD 9 && s.chanHandle sl a then Tab.find? s.rot.assocs (assocKey sl a)
  else none

/-- A packet that a slice's port sends or accepts, and that writes, is activity for the progress monitor (R299). -/
def State.portFlit (s : State) (sl : Nat) (payload : List Byte) : State :=
  match (s.slice sl).part, Config.packetAddr payload with
  | some pn, some (_, true) => s.active pn
  | some _, some (_, false) | some _, none | none, _ => s

/-- PACKET_SEND (R326): a new packet takes the counter and its ciphertext is stored; none is sent on an association that is being
rekeyed or must be. -/
def execPacketSend (sl a : Nat) (payload : List Byte) (s : State) : Out State :=
  match s.assocAt sl a with
  | none => .fault .notPossible
  | some x =>
    if x.barred || x.needRekey then .fault .notPossible else .next ((s.portFlit sl payload).setAssoc sl a (x.send payload))

/-- PACKET_RETRY (R326, R327): the stored ciphertext is sent again unchanged, and the counter stands; a packet that is acknowledged is
stored no longer. -/
def execPacketRetry (sl a : Nat) (counter : BitVec 64) (s : State) : Out State :=
  match s.assocAt sl a with
  | none => .fault .notPossible
  | some x =>
    if !(x.sent.any fun p => p.1 == counter) then .fault .notPossible
    else if Config.linkAck s.tick then .next (s.setAssoc sl a { x with sent := x.sent.filter fun p => !(p.1 == counter) })
    else .next s

/-- Whether the receiver takes a packet's counter (R326). -/
def Assoc.fresh (x : Assoc) (c : DWord) : Bool :=
  decide (x.rxHigh.toNat < c.toNat) || (decide (x.rxHigh.toNat ≤ c.toNat + 64) && !(x.seen.contains c))

/-- The association once a packet has been accepted. -/
def Assoc.accept (x : Assoc) (c : DWord) (payload : List Byte) : Assoc :=
  let high := if x.rxHigh.toNat < c.toNat then c else x.rxHigh
  { x with rxHigh := high, seen := (c :: x.seen).filter fun k => decide (high.toNat ≤ k.toNat + 64), fails := 0,
           delivered := x.delivered ++ [payload] }

/-- PACKET_RECEIVE (R304, R306, R326): a replay, or a packet that fails authentication, is dropped and counted; eight failures in a
row force a rekey. An accepted packet that names an address that no range covers or that the port mapping does not grant freezes the
port. -/
def execPacketReceive (sl a : Nat) (counter : BitVec 64) (cipher : List Byte) (s : State) : Out State :=
  match s.assocAt sl a with
  | none => .fault .notPossible
  | some x =>
    if (s.slice sl).portFrozen then .next (s.modSlice sl fun y => { y with portDrops := y.portDrops + 1 })
    else if !(x.fresh counter) then .next (s.setAssoc sl a { x with drops := x.drops + 1 })
    else match Config.gcmOpen x.rxKey x.rxSalt counter cipher with
      | none => .next (s.setAssoc sl a { x with drops := x.drops + 1, fails := x.fails + 1, needRekey := x.needRekey || decide (8 ≤ x.fails + 1) })
      | some payload =>
        match Config.packetAddr payload with
        | some (pa, wr) =>
          let pn := (s.slice sl).part.getD 24
          if Config.portGrants pn pa && ((s.part pn).locate pa).isSome then
            .next ((s.portFlit sl payload).setAssoc sl a (x.accept counter payload))
          else .next ((s.setAssoc sl a { x.accept counter payload with delivered := x.delivered }).portFire sl wr pa)
        | none => .next (s.setAssoc sl a (x.accept counter payload))

/-! ### Rekeys (R327) -/

/-- An association with a new key: nothing sent, both counters 0. What the receive direction's slot holds is the root of trust's to
choose (log 118). -/
def Assoc.opened (drops key : Nat) (salt : Word) : Assoc :=
  let rx := Config.rxSlot key salt
  { key, salt, rxKey := rx.1, rxSalt := rx.2, tx := 0#64, rxHigh := 0#64, seen := [], fails := 0, drops, barred := false, needRekey := false, sent := [],
    delivered := [] }

/-- REKEY (R327): the barrier; a request that finds a rekey running joins it. -/
def execRekey (sl a : Nat) (s : State) : Out State :=
  match Tab.find? s.rot.assocs (assocKey sl a) with
  | none => .fault .notPossible
  | some x => if !s.rotUp then .fault .notPossible else .next (s.setAssoc sl a { x with barred := true })

/-- REKEY_REOPEN (R327): once every outstanding packet is acknowledged the root of trust writes the new key and salt, both counters return
to 0, and the stream opens; so does an association that is opened for the first time. -/
def execRekeyReopen (sl a key : Nat) (salt : Word) (s : State) : Out State :=
  if !s.rotUp || !(s.chanHandle sl a) then .fault .notPossible
  else match Tab.find? s.rot.assocs (assocKey sl a) with
    | none => .next (s.setAssoc sl a (Assoc.opened 0 key salt))
    | some x =>
      if !x.barred || !(x.sent.isEmpty) then .fault .notPossible
      else .next (s.setAssoc sl a { Assoc.opened x.drops key salt with delivered := x.delivered })

/-- The COLL commands of a slice that need an association (R189, R327): those that run, by their communicator, and those that wait in their
chains, by what their records hold now. -/
def State.collNeeds (s : State) (sl a : Nat) (c : Cmd) : Bool :=
  let need := fun (r : List Byte) => chanKey (collAt r).chan == a && (collAt r).linked
  c.op == .coll && (s.unit c.u).slice == sl && match c.st with
    | .running => need c.recb
    | .queued => (s.peekComm c).any fun com => need ((s.team c.team).bytes c.sval.toNat 64 ++ com)
    | .failing _ | .held _ _ | .addHeld _ => false

/-- A COLL that is to fault (R142, R189), with TADDR its record's local address. -/
def State.failColl (s : State) (c : Cmd) : State :=
  let s := if c.st = .queued then s.enterColl c ((s.team c.team).bytes c.sval.toNat 64) else s
  s.modCmd c.id fun k => { k with st := .failing (c.sval.setWidth 64) }

/-- PEER_UNREACHABLE (R189, R327): while a rekey drains, the peer cannot be reached: the commands that wait on the association fault,
and it reopens empty. -/
def execPeerUnreachable (sl a : Nat) (s : State) : Out State :=
  match Tab.find? s.rot.assocs (assocKey sl a) with
  | none => .fault .notPossible
  | some x =>
    if !x.barred then .fault .notPossible
    else
      let s := (s.cmds.filter fun c => s.collNeeds sl a c).foldl State.failColl s
      .next (s.setAssoc sl a { x with barred := false, sent := [] })

/-! ### The flash (R328) -/

/-- The stored bytes of a 4096-byte unit. -/
def State.flashUnit (s : State) (n : Nat) : List Byte := (List.range 4096).map fun i => Tab.get 0#8 s.rot.flash (4096 * n + i)

/-- A unit as a world reads it: deciphered with AES-256-XTS, the unit's number the tweak. -/
def State.flashPlain (s : State) (world : Bool) (n : Nat) : List Byte := xtsUnit (Config.flashKey world) n 256 false (s.flashUnit n)

/-- Writes part of a unit under a world's key: the unit is deciphered, changed, and enciphered whole. -/
def State.flashPut (s : State) (world : Bool) (n off : Nat) (bs : List Byte) : State :=
  let p := s.flashPlain world n
  let p := p.take off ++ bs ++ p.drop (off + bs.length)
  let c := xtsUnit (Config.flashKey world) n 256 true p
  let flash := (List.range 4096).foldl (fun f i => Tab.set 0#8 f (4096 * n + i) (c.getD i 0#8)) s.rot.flash
  { s with rot := { s.rot with flash } }

/-- The pieces of a byte range in each unit: unit, offset in it, length. -/
def flashPieces (addr n : Nat) : List (Nat × Nat × Nat) :=
  (List.range ((addr % 4096 + n + 4095) / 4096)).map fun i =>
    let lo := if i = 0 then addr else (addr / 4096 + i) * 4096
    (addr / 4096 + i, lo % 4096, Nat.min (addr + n) ((addr / 4096 + i + 1) * 4096) - lo)

/-- FLASH_ACCESS (R328): a read or a write of the flash under a world's key, unit by unit. -/
def execFlashAccess (world : Bool) (addr : Nat) (write : Option (List Byte)) (len : Nat) (s : State) : Out State :=
  match write with
  | none =>
    let bs := (flashPieces addr len).flatMap fun p => ((s.flashPlain world p.1).drop p.2.1).take p.2.2
    .next { s with rot := { s.rot with flashOut := bs } }
  | some bs =>
    .next ((flashPieces addr bs.length).foldl (fun (acc : State × List Byte) p =>
      (acc.1.flashPut world p.1 p.2.1 (acc.2.take p.2.2), acc.2.drop p.2.2)) (s, bs)).1

end Sys2Proof.Machine
end

