-- ==== Sys2Proof/Machine/StackEvents.lean ====
section
/-!
DEFINITION. The stack controllers (R334 to R351): packets, refresh management, back-off, refresh windows and the patrol.
-/

namespace Sys2Proof.Machine

/-- The stack-local address of a packet's line. -/
def pktAddr (p : Packet) : Nat := 128 * p.line

/-- The line of a packet, as `State.poison` is keyed. -/
def pktLine (p : Packet) : Nat := p.stack * 2 ^ 29 + p.line

/-- The key of the first byte of a packet's line, as `State.mem` is keyed. -/
def pktKey (p : Packet) : Nat := 128 * (pktLine p)

/-- Whether a stack's controller is ready (R307). -/
def State.stackUp (s : State) (stk : Nat) : Bool := decide (stk < 48) && (s.slice (stk / 2)).srdy.getLsbD (5 + stk % 2)

/-- A reply to a request; a tag has one reply. -/
def State.reply (s : State) (p : Packet) (status : Nat) (data : List Byte) : State :=
  s.modStack p.stack fun t => { t with replies := (t.replies.filter fun r => !(r.tag == p.tag)) ++ [{ tag := p.tag, status, data }] }

/-! ### Requests (R342, R348, R349) -/

/-- The sectors that a write's SMASK names. -/
def pktSectors (p : Packet) : List Nat := (List.range 4).filter fun i => p.smask.getLsbD i

/-- What a write finds (R349): of a compressed line that it does not cover the whole line is read, else each half of which it covers
one sector; a half that it covers is replaced unread. -/
def State.writeFinds (s : State) (p : Packet) : State × Nat :=
  let cover := fun (h : Nat) => (pktSectors p).contains (2 * h) && (pktSectors p).contains (2 * h + 1)
  let touch := fun (h : Nat) => (pktSectors p).contains (2 * h) || (pktSectors p).contains (2 * h + 1)
  if Tab.get false s.packed (pktLine p) && p.smask != 15#4 then s.readHalves (pktLine p) [0, 1]
  else
    let s : State := { s with ecc := [0, 1].foldl (fun e h => if cover h then Tab.del e (2 * (pktLine p) + h) else e) s.ecc }
    let hs := [0, 1].filter fun h => touch h && !(cover h)
    if hs.isEmpty then (s, 0) else s.readHalves (pktLine p) hs

/-- Writes the sectors that SMASK names. -/
def State.writeSectors (s : State) (p : Packet) (data : List Byte) : State :=
  (pktSectors p).foldl (fun s i => s.writeBytes ((pktKey p) + 32 * i) ((List.range 32).map fun j => data.getD (32 * i + j) 0#8)) s

/-- A read request (R348, R349): the line, or with a layout code the permuted 2 KiB block that holds it, every line of which is read. -/
def State.doRead (s : State) (p : Packet) : State :=
  let s := s.activate p.stack (pktAddr p) p.acls.toNat
  if p.layout = 0#2 then
    let (s, st) := s.readHalves (pktLine p) [0, 1]
    s.reply p st (if st = 2 then [] else s.bytes (pktKey p) 128)
  else
    let first := (pktLine p) / 16 * 16
    let (s, st) := (List.range 16).foldl (fun (r : State × Nat) i =>
      let (s, st) := r.1.readHalves (first + i) [0, 1]
      (s, Nat.max r.2 st)) (s, 0)
    let block := s.bytes (128 * first) 2048
    s.reply p st (if st = 2 then [] else (List.range 2048).map fun y => block.getD (layoutByte p.layout.toNat y) 0#8)

/-- A write request (R346, R347, R349). -/
def State.doWrite (s : State) (p : Packet) : State :=
  let s := s.activate p.stack (pktAddr p) p.acls.toNat
  let (s, st) := s.writeFinds p
  ((s.writeSectors p p.data).setPacked (pktLine p) p.comp).reply p st []

/-- An atomic request (R342, R349): one event on its word; nothing on a poisoned line. -/
def State.doAtomic (s : State) (p : Packet) : State :=
  let s := s.activate p.stack (pktAddr p) p.acls.toNat
  let (s, st) := s.readHalves (pktLine p) [0, 1]
  if st = 2 then s.reply p 2 []
  else
    let n := atomSize p.aop
    let old := s.bytes ((pktKey p) + p.off) n
    let s := s.writeBytes ((pktKey p) + p.off) (leBytes n (atomApply p.aop (BitVec.ofNat 64 (leNat old)) p.x p.y).toNat)
    (s.setPacked (pktLine p) p.comp).reply p st old

/-- A zero-line request (R342, R350): the whole line is zero and its poison is cleared. In the metadata region the flags that the line
holds are cleared (R347). -/
def State.doZero (s : State) (p : Packet) : State :=
  let s := s.activate p.stack (pktAddr p) p.acls.toNat
  let s := (s.writeFinds { p with smask := 15#4 }).1
  let s := s.writeBytes (pktKey p) (List.replicate 128 0#8)
  let s := if 0xFFC000000 ≤ (pktAddr p) then
      let lo := p.stack * 2 ^ 29 + ((pktAddr p) - 0xFFC000000) * 8
      { s with packed := s.packed.filter fun e => decide (e.1 < lo) || decide (lo + 1024 ≤ e.1) }
    else s.setPacked (pktLine p) p.comp
  s.reply p 0 []

/-- The four requests, as a packet that backed off remembers which it was. -/
def State.present (s : State) (op : Nat) (p : Packet) : State :=
  if op = 0 then s.doRead p else if op = 1 then s.doWrite p else if op = 2 then s.doAtomic p else s.doZero p

/-- A request reaches its bank: it backs off where the bank is blocked, or a row of it has reached its threshold, be it in this very step
(R338, R339). -/
def State.arrivePkt (s : State) (op : Nat) (p : Packet) : State :=
  if (s.stack p.stack).shut (bankKey (pktAddr p)) (s.tick + 1) then s.modStack p.stack fun t => { t with held := t.held ++ [(op, p)] }
  else s.present op p

/-- A request as a step: its controller is ready and its tag free (R342). -/
def stackStep (op : Nat) (p : Packet) (ok : Bool) (s : State) : Out State :=
  if !(s.stackUp p.stack) || !ok || decide (2 ^ 29 ≤ p.line) || (s.stack p.stack).held.any (fun h => h.2.tag == p.tag) then
    .fault .notPossible
  else .next (s.arrivePkt op p)

/-- STACK_READ (R342, R348, R349). -/
def execStackRead (p : Packet) (s : State) : Out State := stackStep 0 p (decide ((pktAddr p) < 0xFFC000000)) s
/-- STACK_WRITE (R342, R346, R349). -/
def execStackWrite (p : Packet) (s : State) : Out State := stackStep 1 p (decide ((pktAddr p) < 0xFFC000000)) s
/-- STACK_ATOMIC (R342, R349). -/
def execStackAtomic (p : Packet) (s : State) : Out State :=
  stackStep 2 p (decide ((pktAddr p) < 0xFFC000000) && p.off % atomSize p.aop == 0 && decide (p.off + atomSize p.aop ≤ 128)) s
/-- STACK_ZERO_LINE (R311, R342). -/
def execStackZeroLine (p : Packet) (s : State) : Out State := stackStep 3 p true s

/-! ### Refresh management (R335 to R339) -/

/-- ACTADDR (R338). -/
def actAddr (stk pch bank row : Nat) : DWord :=
  BitVec.ofNat 64 (2 ^ 63 + stk % 2 * 2 ^ 25 + pch * 2 ^ 19 + bank * 2 ^ 13 + row)

/-- The bank's row is closed: it is precharged, and its queue holds nothing (R335). -/
def Stack.precharge (t : Stack) (b : Nat) : Stack :=
  { t with openRow := Tab.del t.openRow b, asked := Tab.del t.asked b, doneAt := Tab.del t.doneAt b }

/-- REFRESH_MANAGEMENT (R338): the neighbours of a row that reached its threshold are refreshed, its count is cleared, the alert is
recorded, and the bank is blocked. A bank that is blocked already starts no other. -/
def execRefreshManagement (stk pch bank : Nat) (s : State) : Out State :=
  let t := s.stack stk
  let b := pch * 64 + bank
  match List.find? (fun p => p.1 / 8192 == b && (Tab.find? t.blocked b).isNone) t.due with
  | none => .fault .notPossible
  | some (k, _) =>
    let row := k % 8192
    let sl := stk / 2
    let x := s.slice sl
    let rose := !(x.mevstat.getLsbD 1)
    let s := s.modStack stk fun t =>
      { t.precharge b with counts := Tab.put t.counts k 0, due := Tab.del t.due k, blocked := Tab.put t.blocked b x.clk }
    let s := s.modSlice sl fun y =>
      { y with mevstat := y.mevstat ||| 2#32, mevcnt := bumpCount y.mevcnt 32, actaddr := actAddr stk pch bank row }
    .next (if rose then s.sliceIrq sl (.mem sl) else s)

/-- BANK_BLOCK_END (R338, R339): 570 cycles after its start a block ends, and the requests that backed off are presented in their
order of arrival: those of the step in which the row reached its threshold, then the packets that came later. One that brings a row to its
threshold makes those behind it back off again. -/
def execBankBlockEnd (stk pch bank : Nat) (s : State) : Out State :=
  let t := s.stack stk
  let b := pch * 64 + bank
  match Tab.find? t.blocked b with
  | none => .fault .notPossible
  | some start =>
    if (s.slice (stk / 2)).clk.toNat < start.toNat + 570 then .fault .notPossible
    else
      let mine := fun (h : Nat × Packet) => bankKey (pktAddr h.2) == b
      let ours := fun (h : Nat × Nat) => bankKey h.1 == b
      let s := s.modStack stk fun t =>
        { t with blocked := Tab.del t.blocked b, late := t.late.filter fun h => !(ours h), held := t.held.filter fun h => !(mine h) }
      let s := (t.late.filter ours).foldl (fun s h => s.activate stk h.1 h.2) s
      .next ((t.held.filter mine).foldl (fun s h => s.arrivePkt h.1 h.2) s)

/-- REFRESH_WINDOW_END (R336): 32 ms after its start a refresh window of a stack ends, and every count of it is cleared. -/
def execRefreshWindowEnd (stk : Nat) (s : State) : Out State :=
  let now := (s.slice (stk / 2)).clk
  if decide (48 ≤ stk) || decide (now.toNat < (s.stack stk).win.toNat + 96000000) then .fault .notPossible
  else .next (s.modStack stk fun t => { t with counts := [], base := [], win := now })

/-- PATROL_READ (R349, R350): a line is read, and corrected or poisoned; its row's count is not changed. -/
def execPatrolRead (stk line : Nat) (s : State) : Out State :=
  if !(s.stackUp stk) || decide (2 ^ 29 ≤ line) then .fault .notPossible
  else .next (s.readHalves (stk * 2 ^ 29 + line) [0, 1]).1

end Sys2Proof.Machine
end

