-- ==== Sys2Proof/Machine/HostEvents.lean ====
section
/-!
DEFINITION. The host cores' accesses to memory and to the register blocks, through their process's Sv57 tables (R227, R304 to R306).
The layout and the checks of Sv57, and the values of the AMOs, are those of RISC-V, which the spec names (R1): PRESUMED, log 122.
-/

namespace Sys2Proof.Machine

/-- Changes what a hart has been answered. -/
def State.modHart (s : State) (h : Nat) (f : Hart → Hart) : State := { s with harts := Tab.mod Hart.init s.harts h f }

/-- An access fault of a hart (R227). -/
def State.hartFault (s : State) (h : Nat) : State := s.modHart h fun x => { x with fault := true }

/-- A page fault of a hart (R227). -/
def State.hartPageFault (s : State) (h : Nat) : State := s.modHart h fun x => { x with pageFault := true }

/-- A hart's violating access (R304, R306): FWVIOL, and the hart stalls at the access. -/
def State.hartFreeze (s : State) (h : Nat) (wr : Bool) (pa : Nat) : State :=
  (s.violate (h / 8) 3 (h % 8) wr pa).modHart h fun x => { x with frozen := true, frozenPa := pa }

/-! ### Register blocks -/

/-- A byte of a register block. -/
def State.regByte (s : State) (sl off : Nat) : Byte := BitVec.ofNat 8 ((s.regRead sl (off / 8 * 8)).toNat / 2 ^ (8 * (off % 8)))

/-- What the bytes of a register that a store does not write count as: 0 where a written 1 clears a bit, else their value. -/
def State.regKeep (s : State) (sl off : Nat) : DWord :=
  if [0x000, 0x040, 0x050, 0x068, 0x088].contains off then 0#64 else s.regRead sl off

/-- Replaces bytes of a register's value, from one on. -/
def regMerge (v : DWord) (at_ : Nat) (bs : List Byte) : DWord :=
  BitVec.ofNat 64 (leNat ((List.range 8).map fun i =>
    if at_ ≤ i then bs.getD (i - at_) (BitVec.ofNat 8 (v.toNat / 2 ^ (8 * i))) else BitVec.ofNat 8 (v.toNat / 2 ^ (8 * i))))

/-- A store to a register block, register by register; none where a write waits. -/
def State.regStore (s : State) (sl off : Nat) (bs : List Byte) : Option State :=
  (List.range ((off % 8 + bs.length + 7) / 8)).foldl (fun (r : Option State) i => r.bind fun s =>
    let o := (off / 8 + i) * 8
    let lo := if i = 0 then off % 8 else 0
    let skip := o + lo - off
    s.regWrite sl o (regMerge (s.regKeep sl o) lo ((bs.drop skip).take (8 - lo)))) (some s)

/-! ### Sv57 (R227) -/

/-- Where an access goes: a physical address, and whether its page is uncached. -/
structure HostPlace where
  pa : Nat
  unc : Bool
deriving DecidableEq, Repr

/-- How a hart's translation or access stands: it has ended with these bytes or places, as an access fault or a page fault, or as a
violation at an address; or it waits. -/
inductive HostEnd (α : Type) where
  | ok (v : α)
  | bad
  | pageFault
  | wait
  | fire (pa : Nat)
deriving DecidableEq, Repr

/-- A table entry that is no entry: V = 0, W without R, or a reserved bit set. -/
def pteBad (e : Nat) : Bool := e % 2 == 0 || e / 2 % 4 == 2 || e / 2 ^ 54 % 128 != 0

/-- An entry that points to the next table: R = W = X = 0. -/
def ptePointer (e : Nat) : Bool := e / 2 % 8 == 0

/-- What a leaf at a level gives an address; none for a page fault: a frame that is not aligned, a NAPOT entry that is no 64 KiB leaf,
a reserved page type, or a right, A or D that is missing. -/
def pteLeaf (e level va : Nat) (wr : Bool) : Option HostPlace :=
  let ppn := e / 2 ^ 10 % 2 ^ 44
  let napot := e / 2 ^ 63 == 1
  if ppn % 2 ^ (9 * level) ≠ 0 ∨ e / 2 ^ 61 % 4 = 3 ∨ (napot && (level != 0 || ppn % 16 != 8)) = true then none
  else if !(e.testBit 1) || !(e.testBit 6) || (wr && !(e.testBit 2 && e.testBit 7)) then none
  else if napot then some { pa := ppn / 16 * 65536 + va % 65536, unc := e / 2 ^ 61 % 4 != 0 }
  else some { pa := ppn * 4096 + va % 2 ^ (12 + 9 * level), unc := e / 2 ^ 61 % 4 != 0 }

/-- The walk of the tables from a level's table down. -/
def State.walk57 (p : Part) (va : Nat) (wr : Bool) : Nat → Nat → State → State × HostEnd HostPlace
  | 0, _, s => (s, .pageFault)
  | level + 1, table, s =>
    let pa := table + va / 2 ^ (12 + 9 * level) % 512 * 8
    match p.locate pa with
    | none => (s, .fire pa)
    | some l =>
      if !(s.lineReady l.key false) then (s, .wait)
      else match s.reachLine l.key [0, 1] false l.cls with
        | (s, true) => (s, .bad)
        | (s, false) =>
          let e := leNat (s.bytes l.key 8)
          if pteBad e then (s, .pageFault)
          else if ptePointer e then
            if e / 2 ^ 61 ≠ 0 then (s, .pageFault) else State.walk57 p va wr level (e / 2 ^ 10 % 2 ^ 44 * 4096) s
          else match pteLeaf e level va wr with
            | some x => (s, .ok x)
            | none => (s, .pageFault)

/-- Where a hart's address lies: by the tables whose root `via` names, or itself. A virtual address has bits 63 to 57 equal to
bit 56. -/
def State.hostPlace (s : State) (p : Part) (via : Option Nat) (a : Nat) (wr : Bool) : State × HostEnd HostPlace :=
  match via with
  | none => (s, .ok { pa := a, unc := false })
  | some root =>
    if 2 ^ 56 ≤ a ∧ (a < 2 ^ 64 - 2 ^ 56 ∨ 2 ^ 64 ≤ a) then (s, .pageFault) else State.walk57 p a wr 5 root s

/-! ### Accesses -/

/-- Whether a page that holds a physical address meets a test in some context. -/
def State.pageHas (s : State) (pn pa : Nat) (f : Xlat → Bool) : Bool :=
  let p := s.part pn
  p.ctxs.any fun c => (s.leaves p c).any fun r => match s.walk p c r.1 with
    | some x => f x && decide (x.pa ≤ pa) && decide (pa < x.pa + r.2)
    | none => false

/-- Whether it has S = 1: a store or atomic there waits for the copy (R219). -/
def State.snapHeld (s : State) (pn pa : Nat) : Bool := s.pageHas pn pa fun x => x.sn

/-- A hart's write that changes bytes of a counter page is activity for the progress monitor (R299); `old` is the state before it. -/
def State.ctrMoved (s old : State) (pn pa key n : Nat) : State :=
  if s.bytes key n != old.bytes key n && old.pageHas pn pa fun x => x.k then s.active pn else s

/-- What a hart's access does: at a place in memory, and at an offset of a register block. -/
structure HostOp where
  write : Bool
  mem : Nat → State → Acc1 → State × Except Bad (List Byte)
  reg : Nat → Nat → Nat → Nat → State → State × HostEnd (List Byte)

/-- A load reads the bytes (R227). -/
def hostLoad : HostOp :=
  { write := false, mem := fun _ s a => s.perfLoad a none,
    reg := fun _ n sl off s => (s, .ok ((List.range n).map fun i => s.regByte sl (off + i))) }

/-- A store writes them. -/
def hostStore (bs : List Byte) : HostOp :=
  { write := true,
    mem := fun o s a => match s.perfStore a ((bs.drop o).take a.len) none with
      | (s, .ok _) => (s, .ok [])
      | (s, .error e) => (s, .error e),
    reg := fun o n sl off s => match s.regStore sl off ((bs.drop o).take n) with
      | some s => (s, .ok [])
      | none => (s, .wait) }

/-- The order field of an access with aq and rl (R51, R227). -/
def hostOrder (aq rl : Bool) : BitVec 2 := (if aq then 1#2 else 0#2) ||| (if rl then 2#2 else 0#2)

/-- An AMO or a successful SC: an atomic at partition scope. A register block takes none (log 122). -/
def hostRmw (n : Nat) (aq rl : Bool) (f : DWord → DWord) (answer : DWord → List Byte) : HostOp :=
  { write := true,
    mem := fun _ s a => match s.perfRmw a n false f 2#2 (hostOrder aq rl) with
      | (s, .ok old) => (s, .ok (answer old))
      | (s, .error e) => (s, .error e),
    reg := fun _ _ _ _ s => (s, .bad) }

/-- An LR: an atomic read at partition scope, which reserves the bytes for its hart. -/
def hostLr (h : Nat) (aq : Bool) : HostOp :=
  { write := false,
    mem := fun _ s a => match s.reach a [0, 1] with
      | (s, true) => (s, .error .poison)
      | (s, false) => match s.raceTest a false (some 2#2) with
        | some o => (s, .error (.race o))
        | none =>
          let s := s.note a false (some 2#2)
          let s := if aq then acquireAt s a.agent 2#2 a.loc a.len else seeAt s a.agent a.loc a.len
          ({ s with resv := (h, a.key, a.len) :: s.resv.filter fun r => !(r.1 == h) }, .ok (s.bytes a.key a.len)),
    reg := fun _ _ _ _ s => (s, .bad) }

/-- The value an AMO writes; one of 4 bytes computes with its operands' low words. -/
def hostAmo (op : HostAmo) (wide : Bool) (old x : DWord) : DWord :=
  let o := if wide then old else old.lo.signExtend 64
  let a := if wide then x else x.lo.signExtend 64
  match op with
  | .swap => a
  | .add => o + a
  | .xor => o ^^^ a
  | .and => o &&& a
  | .or => o ||| a
  | .min => if o.toInt ≤ a.toInt then o else a
  | .max => if a.toInt ≤ o.toInt then o else a
  | .minu => if o.toNat ≤ a.toNat then o else a
  | .maxu => if a.toNat ≤ o.toNat then o else a

/-- One piece of a hart's access, within one line: register blocks are for the partition's own harts (R305), and traffic to a slice
that is not ready waits (R307). `o` is where in the access it begins. -/
def State.hostPiece (s : State) (pn h o n : Nat) (x : HostPlace) (op : HostOp) : State × HostEnd (List Byte) :=
  match regSlice x.pa with
  | some sl =>
    if (s.slice sl).part ≠ some pn then (s, .fire x.pa)
    else if !((s.slice sl).srdy.getLsbD 2) then (s, .wait)
    else op.reg o n sl ((x.pa - regBase) % 65536) s
  | none => match (s.part pn).locate x.pa with
    | none => (s, .fire x.pa)
    | some l =>
      if !(s.lineReady l.key x.unc) || (op.write && s.snapHeld pn x.pa) then (s, .wait)
      else
        let ag := Agent.hart (h / 8) (h % 8)
        match op.mem o s { agent := ag, clock := s.order.clock ag, loc := locOf pn x.pa, key := l.key, len := n, k := false,
                           unc := x.unc, cls := l.cls, comp := l.comp, bias := 31, req := Req.free } with
        | (t, .ok bs) => (if op.write then t.ctrMoved s pn x.pa l.key n else t, .ok bs)
        | (s, .error _) => (s, .bad)

/-- The places of an access's pieces. -/
def State.hostPlaces (s : State) (p : Part) (via : Option Nat) (wr : Bool) : List (Nat × Nat) → State × HostEnd (List (HostPlace × Nat))
  | [] => (s, .ok [])
  | c :: r => match s.hostPlace p via c.1 wr with
    | (s, .ok x) => (match s.hostPlaces p via wr r with
      | (s, .ok xs) => (s, .ok ((x, c.2) :: xs))
      | e => e)
    | (s, .bad) => (s, .bad)
    | (s, .pageFault) => (s, .pageFault)
    | (s, .wait) => (s, .wait)
    | (s, .fire a) => (s, .fire a)

/-- The pieces of an access, one after the other, up to the first that does not end well; the bytes they answer. -/
def State.hostPieces (s : State) (pn h : Nat) (op : HostOp) (o : Nat) : List (HostPlace × Nat) → State × HostEnd (List Byte)
  | [] => (s, .ok [])
  | x :: r => match s.hostPiece pn h o x.2 x.1 op with
    | (s, .ok bs) => (match s.hostPieces pn h op (o + x.2) r with
      | (s, .ok more) => (s, .ok (bs ++ more))
      | e => e)
    | e => e

/-- What an access comes to: a hart's answer, its fault, or its freeze. -/
def hostEnd (h : Nat) (wr : Bool) (r : State × HostEnd (List Byte)) : Out State :=
  match r with
  | (s, .ok bs) => .next (s.modHart h fun x => { x with reply := bs })
  | (s, .bad) => .next (s.hartFault h)
  | (s, .pageFault) => .next (s.hartPageFault h)
  | (_, .wait) => .fault .notPossible
  | (s, .fire pa) => .next (s.hartFreeze h wr pa)

/-- An access of a hart: every piece is translated, and then each is performed (R227). -/
def State.hostSpan (s : State) (pn h : Nat) (via : Option Nat) (a n : Nat) (op : HostOp) : Out State :=
  match s.hostPlaces (s.part pn) via op.write (lineChunks a n) with
  | (s, .ok xs) => hostEnd h op.write (s.hostPieces pn h op 0 xs)
  | (s, .bad) => hostEnd h op.write (s, .bad)
  | (s, .pageFault) => hostEnd h op.write (s, .pageFault)
  | (s, .wait) => hostEnd h op.write (s, .wait)
  | (s, .fire pa) => hostEnd h op.write (s, .fire pa)

/-- An atomic of 4 or 8 bytes at an aligned address; a misaligned one is an access fault. -/
def State.hostAtomic (s : State) (pn h : Nat) (via : Option Nat) (a : Nat) (wide : Bool) (op : HostOp) : Out State :=
  if a % (if wide then 8 else 4) ≠ 0 then .next (s.hartFault h) else s.hostSpan pn h via a (if wide then 8 else 4) op

/-- The key of the byte that a hart's address names, where it names one. -/
def State.hostKey (s : State) (pn : Nat) (via : Option Nat) (a : Nat) : Option Nat :=
  match s.hostPlace (s.part pn) via a true with
  | (_, .ok x) => ((s.part pn).locate x.pa).map (·.key)
  | (_, _) => none

/-- Ends a hart's reservation. -/
def State.unreserve (s : State) (h : Nat) : State := { s with resv := s.resv.filter fun r => !(r.1 == h) }

/-- HOST_ACCESS (R227): a hart of a partition makes an access; a race or poison is an access fault, a violation freezes the hart. Until
the kernel runs, only a hart that has been started does (R309). An SC writes where its hart's reservation still stands and answers 0,
else it answers 1. -/
def execHostAccess (pn h : Nat) (acc : HostAccess) (s : State) : Out State :=
  let p := s.part pn
  let x := Tab.get Hart.init s.harts h
  if !p.live || !(p.kernelUp || !x.halted) || !(p.slices.contains (h / 8)) || !((s.slice (h / 8)).srdy.getLsbD 3) || x.frozen then
    .fault .notPossible
  else
    let s := s.modHart h fun x => { x with reply := [], fault := false, pageFault := false, halted := false }
    match acc with
    | .load via a n => s.hostSpan pn h via a n hostLoad
    | .store via a bs => s.hostSpan pn h via a bs.length (hostStore bs)
    | .amo via a op wide y aq rl =>
      s.hostAtomic pn h via a wide (hostRmw (if wide then 8 else 4) aq rl (fun old => hostAmo op wide old y)
        fun old => leBytes (if wide then 8 else 4) old.toNat)
    | .lr via a wide aq _ => s.hostAtomic pn h via a wide (hostLr h aq)
    | .sc via a wide y aq rl =>
      let n := if wide then 8 else 4
      if s.resv.any fun r => r.1 == h && some r.2.1 == s.hostKey pn via a && r.2.2 == n then
        match s.hostAtomic pn h via a wide (hostRmw n aq rl (fun _ => y) fun _ => [0#8]) with
        | .next s => .next (s.unreserve h)
        | .fault e => .fault e
        | .refused r => .refused r
      else .next ((s.unreserve h).modHart h fun x => { x with reply := [1#8] })
    | .fence => .next (fenceOrder s (.hart (h / 8) (h % 8)) 2#2)

end Sys2Proof.Machine
end

