-- ==== Sys2Proof/Machine/LaneInt.lean ====
section
/-!
DEFINITION. Lane moves, integer arithmetic, bit operations, compares and predicate logic (R84 to R97): L-set 0x00 to 0x27.
-/

namespace Sys2Proof.Machine

/-- A word with one source and one 32-bit result. -/
def lane1 (g : BitVec 3) (d : Dest) (a : Src) (f : Word → Word) : State → Out State :=
  issueL g true (destRegs d ++ srcRegs a) (srcLatches a) (laneBody fun c w l t => (t.deliver c d (f (opA c w l a)), 0#32))

/-- A word with two sources and one 32-bit result. -/
def lane2 (g : BitVec 3) (d : Dest) (a b : Src) (f : Word → Word → Word) : State → Out State :=
  issueL g (oneLit a b) (destRegs d ++ srcRegs a ++ srcRegs b) (srcLatches a ++ srcLatches b)
    (laneBody fun c w l t => (t.deliver c d (f (opA c w l a) (opB c w l b)), 0#32))

/-- A word with two sources that reads d as well (R82). -/
def laneAcc (g : BitVec 3) (d : Fin 120) (a b : Src) (f : Word → Word → Word → Word) : State → Out State :=
  issueL g (oneLit a b) ([d.val] ++ srcRegs a ++ srcRegs b) (srcLatches a ++ srcLatches b)
    (laneBody fun c w l t => (t.deliver c (.reg d) (f (opA c w l a) (opB c w l b) (opD c w l d.val 0)), 0#32))

/-- An integer compare (R95). -/
def laneCmp (g : BitVec 3) (p : Fin 7) (a b : Src) (r : IRel) : State → Out State :=
  issueL g (oneLit a b) (srcRegs a ++ srcRegs b) (srcLatches a ++ srcLatches b)
    (laneBody fun c w l t => (t.setP p.val (r.test (opA c w l a) (opB c w l b)), 0#32))

/-- Predicate logic (R96): both predicates are read before the write. -/
def lanePred (g : BitVec 3) (p : Fin 7) (a b : Fin 8) (f : Bool → Bool → Bool) : State → Out State :=
  issueL g true (predRegs a.val ++ predRegs b.val) []
    (laneBody fun _ _ _ t => (t.setP p.val (f (t.getP a.val) (t.getP b.val)), 0#32))

/-- NOP (R84): nothing, latches included. -/
def execNop (g : BitVec 3) (s : State) : Out State := issueL g true [] [] (laneBody fun _ _ _ t => (t, 0#32)) s

/-- MOV (R85): the bit pattern unchanged. -/
def execMov (g : BitVec 3) (d : Dest) (a : Src) (s : State) : Out State := lane1 g d a id s

/-- VBC (R86): s[N] in every acting lane. -/
def execVbc (g : BitVec 3) (d : Dest) (n : Fin 64) (s : State) : Out State :=
  issueL g true (destRegs d) [] (laneBody fun c w _ t => (t.deliver c d (w.u.getS n.val), 0#32)) s

/-- IADD (R87): (x + y) mod 2^32. -/
def execIadd (g : BitVec 3) (d : Dest) (a b : Src) (s : State) : Out State := lane2 g d a b (fun x y => x + y) s

/-- ISUB (R87): (x − y) mod 2^32. -/
def execIsub (g : BitVec 3) (d : Dest) (a b : Src) (s : State) : Out State := lane2 g d a b (fun x y => x - y) s

/-- IMUL (R87): the low word of the product. -/
def execImul (g : BitVec 3) (d : Dest) (a b : Src) (s : State) : Out State := lane2 g d a b (fun x y => x * y) s

/-- IMULH (R87): bits 63:32 of the signed product. -/
def execImulh (g : BitVec 3) (d : Dest) (a b : Src) (s : State) : Out State := lane2 g d a b mulhs s

/-- IMULHU (R87): bits 63:32 of the unsigned product. -/
def execImulhu (g : BitVec 3) (d : Dest) (a b : Src) (s : State) : Out State := lane2 g d a b mulhu s

/-- IMAC (R87): the low word of x × y + v[d]. -/
def execImac (g : BitVec 3) (d : Fin 120) (a b : Src) (s : State) : Out State := laneAcc g d a b (fun x y z => x * y + z) s

/-- IMIN (R88): the lesser, signed. -/
def execImin (g : BitVec 3) (d : Dest) (a b : Src) (s : State) : Out State := lane2 g d a b (fun x y => if x.sle y then x else y) s

/-- IMAX (R88): the greater, signed. -/
def execImax (g : BitVec 3) (d : Dest) (a b : Src) (s : State) : Out State := lane2 g d a b (fun x y => if x.sle y then y else x) s

/-- UMIN (R88): the lesser, unsigned. -/
def execUmin (g : BitVec 3) (d : Dest) (a b : Src) (s : State) : Out State := lane2 g d a b (fun x y => if x.ule y then x else y) s

/-- UMAX (R88): the greater, unsigned. -/
def execUmax (g : BitVec 3) (d : Dest) (a b : Src) (s : State) : Out State := lane2 g d a b (fun x y => if x.ule y then y else x) s

/-- IABS (R88). -/
def execIabs (g : BitVec 3) (d : Dest) (a : Src) (s : State) : Out State := lane1 g d a iabs32 s

/-- AND (R89). -/
def execAnd (g : BitVec 3) (d : Dest) (a b : Src) (s : State) : Out State := lane2 g d a b (fun x y => x &&& y) s

/-- OR (R89). -/
def execOr (g : BitVec 3) (d : Dest) (a b : Src) (s : State) : Out State := lane2 g d a b (fun x y => x ||| y) s

/-- XOR (R89). -/
def execXor (g : BitVec 3) (d : Dest) (a b : Src) (s : State) : Out State := lane2 g d a b (fun x y => x ^^^ y) s

/-- ANDN (R89): x AND NOT y. -/
def execAndn (g : BitVec 3) (d : Dest) (a b : Src) (s : State) : Out State := lane2 g d a b (fun x y => x &&& ~~~y) s

/-- SHL (R90). -/
def execShl (g : BitVec 3) (d : Dest) (a b : Src) (s : State) : Out State := lane2 g d a b shl32 s

/-- SHR (R90). -/
def execShr (g : BitVec 3) (d : Dest) (a b : Src) (s : State) : Out State := lane2 g d a b shr32 s

/-- SAR (R90). -/
def execSar (g : BitVec 3) (d : Dest) (a b : Src) (s : State) : Out State := lane2 g d a b sar32 s

/-- CLZ (R91). -/
def execClz (g : BitVec 3) (d : Dest) (a : Src) (s : State) : Out State := lane1 g d a clz32 s

/-- POPC (R91). -/
def execPopc (g : BitVec 3) (d : Dest) (a : Src) (s : State) : Out State := lane1 g d a popc32 s

/-- BREV (R91). -/
def execBrev (g : BitVec 3) (d : Dest) (a : Src) (s : State) : Out State := lane1 g d a brev32 s

/-- BFE (R92). -/
def execBfe (g : BitVec 3) (d : Dest) (a b : Src) (s : State) : Out State := lane2 g d a b bfe32 s

/-- BFES (R92). -/
def execBfes (g : BitVec 3) (d : Dest) (a b : Src) (s : State) : Out State := lane2 g d a b bfes32 s

/-- BFI (R93): bits of v[d] replaced by the low bits of x. -/
def execBfi (g : BitVec 3) (d : Fin 120) (a b : Src) (s : State) : Out State := laneAcc g d a b (fun x y z => bfi32 z x y) s

/-- SEL (R94): x where the lane's p0 is true, else y. -/
def execSel (g : BitVec 3) (d : Dest) (a b : Src) (s : State) : Out State :=
  issueL g (oneLit a b) (destRegs d ++ srcRegs a ++ srcRegs b) (srcLatches a ++ srcLatches b)
    (laneBody fun c w l t => (t.deliver c d (if t.getP 0 then opA c w l a else opB c w l b), 0#32)) s

/-- ICMPEQ (R95). -/
def execIcmpeq (g : BitVec 3) (p : Fin 7) (a b : Src) (s : State) : Out State := laneCmp g p a b .eq s

/-- ICMPNE (R95). -/
def execIcmpne (g : BitVec 3) (p : Fin 7) (a b : Src) (s : State) : Out State := laneCmp g p a b .ne s

/-- ICMPLT (R95). -/
def execIcmplt (g : BitVec 3) (p : Fin 7) (a b : Src) (s : State) : Out State := laneCmp g p a b .slt s

/-- ICMPLE (R95). -/
def execIcmple (g : BitVec 3) (p : Fin 7) (a b : Src) (s : State) : Out State := laneCmp g p a b .sle s

/-- UCMPLT (R95). -/
def execUcmplt (g : BitVec 3) (p : Fin 7) (a b : Src) (s : State) : Out State := laneCmp g p a b .ult s

/-- UCMPLE (R95). -/
def execUcmple (g : BitVec 3) (p : Fin 7) (a b : Src) (s : State) : Out State := laneCmp g p a b .ule s

/-- PAND (R96). -/
def execPand (g : BitVec 3) (p : Fin 7) (a b : Fin 8) (s : State) : Out State := lanePred g p a b (fun x y => x && y) s

/-- POR (R96). -/
def execPor (g : BitVec 3) (p : Fin 7) (a b : Fin 8) (s : State) : Out State := lanePred g p a b (fun x y => x || y) s

/-- PXOR (R96). -/
def execPxor (g : BitVec 3) (p : Fin 7) (a b : Fin 8) (s : State) : Out State := lanePred g p a b (fun x y => x != y) s

/-- PNOT (R96). -/
def execPnot (g : BitVec 3) (p : Fin 7) (a : Fin 8) (s : State) : Out State := lanePred g p a a (fun x _ => !x) s

/-- PTOV (R97): 1 or 0, with a latch shift. -/
def execPtov (g : BitVec 3) (d : Dest) (a : Fin 8) (s : State) : Out State :=
  issueL g true (destRegs d ++ predRegs a.val) []
    (laneBody fun c _ _ t => (t.deliver c d (if t.getP a.val then 1#32 else 0#32), 0#32)) s

/-- VTOP (R97): x ≠ 0; the latches stay. -/
def execVtop (g : BitVec 3) (p : Fin 7) (a : Src) (s : State) : Out State :=
  issueL g true (srcRegs a) (srcLatches a) (laneBody fun c w l t => (t.setP p.val (opA c w l a != 0#32), 0#32)) s

end Sys2Proof.Machine
end

