-- ==== Sys2Proof/Machine/MatrixRun.lean ====
section
/-!
DEFINITION. Matrix instructions as they execute and complete (R77, R78, R121, R122, R134, R135, R138, R139, R195 to R199).
-/

namespace Sys2Proof.Machine

/-! ### One element of A and of B (R121, R134, R135) -/

/-- Element k of a row of A from its eight words (R121). -/
def aCode (fmt k : Nat) (row : Nat → Word) : Nat :=
  if fmtDepth fmt = 16 then (row (k / 2)).toNat / 2 ^ (16 * (k % 2)) % 65536
  else if fmtDepth fmt = 32 then (row (k / 4)).toNat / 2 ^ (8 * (k % 4)) % 256
  else (row (k / 8)).toNat / 2 ^ (4 * (k % 8)) % 16

/-- Element number n of a B tile from its bytes (R68, R121). -/
def bCode (fmt n : Nat) (byte : Nat → Byte) : Nat :=
  if fmtDepth fmt = 16 then (byte (2 * n)).toNat + 256 * (byte (2 * n + 1)).toNat
  else if fmtDepth fmt = 32 then (byte n).toNat
  else (byte (n / 2)).toNat / 16 ^ (n % 2) % 16

/-- The scale of a group in A: byte g of the row's scale word (R134). -/
def aScale (slot : Word) (sw : Word) (g : Nat) : Scale := scaleOf (slotSk slot) (BitVec.ofNat 8 (sw.toNat / 2 ^ (8 * g)))

/-- The scale of a group in B, after the elements (R134). -/
def bScale (slot : Word) (elems : Nat) (byte : Nat → Byte) (g col : Nat) : Scale :=
  scaleOf (slotSk slot) (byte (tileBytes (slotFmt slot) (elems * 192) + 192 * g + col))

/-- The index of a kept element in the metadata tile (R135). -/
def metaIx (byte : Nat → Byte) (k col : Nat) : Nat :=
  let n := 192 * k + col
  (byte (n / 4)).toNat / 4 ^ (n % 4) % 4

/-- A product of the matrix path: a block that is void contributes zero products, whatever the other factor but a NaN (R78,
log 29). -/
def matProduct (voidA voidB : Bool) (x y : FVal) : FVal :=
  if x.isNan || y.isNan then .nan false
  else if voidA || voidB then .fin (x.isNeg != y.isNeg) 0 0
  else (FVal.mul x y).1

/-- The exact sum of a group (R77, R78). -/
def matSum : List FVal → FVal
  | [] => FVal.zero
  | p :: r => r.foldl (fun acc q => (FVal.add 0#2 acc q).1) p

/-! ### Accumulating (R77) -/

/-- What one MMA or MMAS reads: its slots, whether it is sparse, the A rows and scale words, the tile's and the metadata's
bytes. -/
structure MatIn where
  slotA : Word
  slotB : Word
  sparse : Bool
  a : Array Word
  sa : Array Word
  b : Array Byte
  idx : Array Byte

/-- The products of group g for an element (R77, R135): over the dense k, or over the kept rows of a sparse B. -/
def MatIn.products (x : MatIn) (row col g : Nat) : List FVal :=
  let k := fmtDepth (slotFmt x.slotA)
  let per := if k = 16 then 16 else 32
  let kb := if x.sparse then k / 2 else k
  let perB := if x.sparse then per / 2 else per
  let byte := fun i => x.b.getD i 0#8
  let sA := aScale x.slotA (x.sa.getD row 0#32) g
  let sB := bScale x.slotB kb byte g col
  (List.range perB).map fun j =>
    let kk := perB * g + j
    let ka := if x.sparse then 4 * (kk / 2) + metaIx (fun i => x.idx.getD i 0#8) kk col else kk
    matProduct (sA == .void) (sB == .void)
      (decodeElem (slotFmt x.slotA) sA (aCode (slotFmt x.slotA) ka fun i => x.a.getD (8 * row + i) 0#32))
      (decodeElem (slotFmt x.slotB) sB (bCode (slotFmt x.slotB) (192 * kk + col) byte))

/-- An accumulator element after every group, in ascending order (R77). -/
def MatIn.element (x : MatIn) (row col : Nat) (acc : Word) : Word :=
  (List.range (scaleGroups (fmtDepth (slotFmt x.slotA)))).foldl (fun acc g => accAdd acc (matSum (x.products row col g)) 0) acc

/-- Whether a block of A or B is void (R78). -/
def MatIn.isVoid (x : MatIn) : Bool :=
  let k := fmtDepth (slotFmt x.slotA)
  let kb := if x.sparse then k / 2 else k
  (List.range (scaleGroups k)).any fun g =>
    ((List.range 128).any fun row => aScale x.slotA (x.sa.getD row 0#32) g == .void) ||
    (List.range 192).any fun col => bScale x.slotB kb (fun i => x.b.getD i 0#8) g col == .void

/-- The table of both accumulators from their words in order of key. -/
def accTab (ws : Array Word) : Tab Word := ((List.range 49152).map fun i => (i, ws.getD i 0#32)).filter fun p => p.2 != 0#32

/-- A table of words as an array of `n`. -/
def tabArray (t : Tab Word) (n : Nat) : Array Word :=
  t.foldl (fun a p => a.setIfInBounds p.1 p.2) (Array.replicate n 0#32)

/-- Changes every element of one accumulator of a core: `f` gives its new value from row, column and old value. -/
def Core.mapAcc (c : Core) (n : Bool) (f : Nat → Nat → Word → Word) : Core :=
  let old := tabArray c.acc 49152
  let base := if n then 24576 else 0
  { c with acc := accTab ((Array.range 49152).map fun i =>
      if base ≤ i ∧ i < base + 24576 then f ((i - base) / 192) ((i - base) % 192) (old.getD i 0#32) else old.getD i 0#32) }

/-- The bytes of a tile. -/
def State.tileArray (s : State) (tm t : Nat) : Array Byte :=
  let e := s.tile tm t
  (s.team tm).mem.foldl (fun a p => if e.base ≤ p.1 then a.setIfInBounds (p.1 - e.base) p.2 else a) (Array.replicate e.extent 0#8)

/-- The bytes of a tile as a matrix instruction finds them: of one whose team's window has been freed, any (R38, R133, log 120). -/
def State.tileOrFreed (s : State) (tm t need : Nat) : Array Byte :=
  if (s.team tm).st = .freed then (Array.range need).map fun i => Config.freedTile (s.tick * 131072 + 65536 * (t % 2) + i)
  else s.tileArray tm t

/-- What an MMA or MMAS reads when it executes. -/
def State.matIn (s : State) (o : MatOp) : MatIn :=
  { slotA := o.slotA, slotB := o.slotB, sparse := o.kind == .mmas, a := tabArray o.a 1024, sa := tabArray o.sa 128,
    b := s.tileOrFreed o.bTeam o.tile (tileNeed o.slotB (o.kind == .mmas)),
    idx := if o.kind = .mmas then s.tileOrFreed o.bTeam (o.tile + 1) (fmtDepth (slotFmt o.slotB) / 2 * 48) else #[] }

/-- MMA, MMAS or a cell of an MMAG on its core: Z, the groups in order, and VOID in the warps of the quad bound to the core
(R77, R78, R197). -/
def State.runMma (s : State) (key : Nat) (o : MatOp) : State :=
  let x := s.matIn o
  let s := s.modCore key fun c => c.mapAcc o.acc fun row col w => x.element row col (if o.z then 0#32 else w)
  if x.isVoid then (s.quad key).foldl (fun s u => s.modUni u fun y => y.raise Config.flVOID) s else s

/-- MSCALE on its core (R121, R199). -/
def State.runMscale (s : State) (key : Nat) (o : MatOp) : State :=
  s.modCore key fun c => c.mapAcc o.acc fun row _ w =>
    BitVec.ofNat 32 (f32.fmul 0#2 false w.toNat (Tab.get 0#32 o.factor (8 * row)).toNat).code

/-- MZERO on its core (R199). -/
def State.runMzero (s : State) (key : Nat) (o : MatOp) : State := s.modCore key fun c => c.mapAcc o.acc fun _ _ _ => 0#32

/-! ### Start and completion (R122, R195) -/

/-- Whether the firewall holds the completion add of a core's matrix engine, which starts nothing (R306). -/
def State.matFrozen (s : State) (key : Nat) : Bool := s.cmds.any fun c => c.cls == 3 && c.done.contains key

/-- MATRIX_EXECUTE_START (R195): the core's first queued instruction starts. -/
def execMatrixExecuteStart (sl core : Nat) (s : State) : Out State :=
  let key := 64 * sl + core
  match (s.core key).mq with
  | [] => .fault .notPossible
  | o :: r =>
    if o.started || !(s.mayStart o.u) || s.matFrozen key then .fault .notPossible
    else .next (s.modCore key fun c => { c with mq := { o with started := true } :: r })

/-- The agent of a matrix instruction, one for all its cells. -/
def MatOp.agent (o : MatOp) : Agent := .engine o.u 3 o.grp

/-- The tiles a matrix instruction reads. -/
def MatOp.tiles (o : MatOp) : List Nat :=
  match o.kind with
  | .mma => [o.tile]
  | .mmas => [o.tile, o.tile + 1]
  | .mscale | .mzero => []

/-- The reads of the B tiles, which a race stops (R235): the racing tile and its address, or the state with them noted. -/
def State.matReads (s : State) (o : MatOp) : State × Option (Nat × Nat) :=
  let s := s.bearAgent o.agent o.start
  o.tiles.foldl (fun (r : State × Option (Nat × Nat)) t =>
    match r with
    | (s, some a) => (s, some a)
    | (s, none) =>
      let e := s.tile o.bTeam t
      match raceOf s o.agent o.start (.loc o.bTeam) e.base e.extent false none with
      | some _ => (s, some (t, e.base))
      | none => (noteAccess s o.agent (.loc o.bTeam) e.base e.extent false none, none)) (s, none)

/-- Whether another cell of the same instruction remains, on any core; with `tm`, one that reads that team's tile. -/
def State.cellsLeft (s : State) (grp : Nat) (tm : Option Nat) : Bool :=
  s.cores.any fun p => p.2.mq.any fun o => o.grp == grp && (match tm with
    | none => true
    | some t => o.bTeam == t)

/-- A matrix instruction leaves its core's queue: its tile loses the reader with the last cell that reads it (R131, R139),
and later tile states are ordered after its reads. -/
def State.leaveQueue (s : State) (key : Nat) (o : MatOp) : State :=
  let s := s.modCore key fun c => { c with mq := c.mq.drop 1 }
  let last := !(s.cellsLeft o.grp (some o.bTeam))
  if (s.team o.bTeam).st = .freed then s
  else o.tiles.foldl (fun s t => s.modTile o.bTeam t fun e =>
    { e with readers := if last then e.readers - 1 else e.readers, vc := VC.join e.vc (ownClock o.agent o.start) }) s

/-- The clock of a matrix instruction's completion add. -/
def MatOp.addClock (o : MatOp) : VC := VC.join o.rel (ownClock o.agent o.start)

/-- A completed instruction's add is there for MWAIT to acquire, on each core it acted on (R201). -/
def State.matDone (s : State) (o : MatOp) : State :=
  if o.ccnt = 0#64 then s
  else s.modUnit o.u fun w => { w with mdone := o.cores.foldl (fun t k => Tab.mod [] t k fun v => VC.join v o.addClock) w.mdone }

/-- An instruction whose completion add violates the firewall is held, and its matrix engine is frozen (R304, R306). -/
def State.holdMat (s : State) (key : Nat) (o : MatOp) (wr : Bool) (pa : Nat) : State :=
  let w := s.unit o.u
  let c : Cmd := { id := s.nextId, u := o.u, team := o.bTeam, cls := 3, op := .ckpt, tile := none, bp := 0#64, bp2 := 0#64, sval := 0#32,
                   ccnt := o.ccnt, rel := o.rel, start := o.start, recb := [], st := .addHeld pa, grid := w.grid, marked := [],
                   copies := [], msgs := [], done := [key] }
  { s.violate w.slice 2 (key % 64) wr pa with nextId := s.nextId + 1, cmds := s.cmds ++ [c] }

/-- The other cells of an instruction make no add either once one cell has faulted (R142). -/
def State.voidAdd (s : State) (grp : Nat) : State :=
  { s with cores := s.cores.map fun p =>
      (p.1, { p.2 with mq := p.2.mq.map fun o => if o.grp = grp then { o with ccnt := 0#64 } else o }) }

/-- MATRIX_COMPLETE (R122): the core's running instruction takes effect, leaves the queue, and makes its add with the last
cell. A B tile whose reading completes a race faults it instead (R142, R235): no effect, no add, F in the tile, held for the issuer. -/
def execMatrixComplete (sl core : Nat) (s : State) : Out State :=
  let key := 64 * sl + core
  match (s.core key).mq with
  | [] => .fault .notPossible
  | o :: _ =>
    let grid := (s.unit o.u).grid
    if !o.started then .fault .notPossible
    else match s.matReads o with
      | (s, some (t, a)) =>
        let s := (((s.leaveQueue key o).voidAdd o.grp).dropAgent o.agent).modTile o.bTeam t fun e => { e with f := true, fUnit := o.u }
        .next (s.holdFault o.u grid
          { team := o.bTeam, tile := some t, ctr := o.ccnt, failedAdd := false, sealu := false, cls := 3, taddr := BitVec.ofNat 64 a })
      | (s, none) =>
        let s := match o.kind with
          | .mma | .mmas => s.runMma key o
          | .mscale => s.runMscale key o
          | .mzero => s.runMzero key o
        let s := (s.leaveQueue key o).dropAgent o.agent
        if s.cellsLeft o.grp none then .next s
        else match s.completionAdd o.u grid o.bTeam 3 o.agent o.ccnt o.addClock with
          | (s, none) => .next (s.matDone o)
          | (s, some (.fire _ wr pa)) => .next (s.holdMat key o wr pa)
          | (_, some (.bad _)) | (_, some .wait) => .fault .notPossible

end Sys2Proof.Machine
end

