-- ==== Sys2Proof/Machine/SpecWords.lean ====
section
/-!
DEFINITION. Speculation words (R202 to R207, R240 to R250, R277): G-set 0x44 to 0x48.
-/

namespace Sys2Proof.Machine

/-! ### TRY (R204) -/

/-- The registers that SPM's octets name, with their places from the checkpoint's first register on (R204). -/
def octetRegs (spm : BitVec 15) : List (Nat × Nat) :=
  (List.range (8 * (octets spm).length)).map fun i => (8 * (octets spm).getD (i / 8) 0 + i % 8, i)

/-- The headroom that TRY needs: 8(h + 1) + max(8n, W); none where SPM is 0 (R204, R277). -/
def tryNeed (spm : BitVec 15) (held : Nat) : Nat :=
  match (octets spm).getLast? with
  | none => 0
  | some h => 8 * (h + 1) + Nat.max (8 * (octets spm).length) held

/-- TRY in one member: the named octets go to the checkpoint, and the region opens (R204, R240). -/
def Thread.openTry (t : Thread) (quota : Nat) (spm : BitVec 15) (target : Word) : Thread :=
  let base := quota - 8 * (octets spm).length
  let t' := (octetRegs spm).foldl (fun x p => x.setV (base + p.2) (t.getV p.1)) t
  { t'.dropLatches with sp := { t.sp with region := .tryR target t.slot t.stack.length spm quota, buf := [] } }

/-- A member that TRY aborts for headroom (R204): nothing was saved, and it goes to the target with CODE 0x08. -/
def Thread.noRoom (t : Thread) (target : Word) : Thread :=
  { t.dropLatches with abc := abcWord Config.abHeadroom 0 false, pc := target }

/-- The members of the group that are in a region, which TRY and TXOPEN abort, and those in which they open one (R240). -/
def State.opening (s : State) : Word × Word :=
  let hit := (s.unit s.cur.u).lanesWhere s.cur.members Thread.inRegion
  (hit, s.cur.members &&& ~~~hit)

/-- TRY (R204): SPM, the headroom check with the area held as it issues, the checkpoint and the target; a member already in a region
aborts instead (R240). -/
def execTry (q : BitVec 3) (off : BitVec 21) (spm : Word) (s : State) : Out State :=
  issueG q (tryLitOk spm) .simtOnly .acts .acts false
    (fun s =>
      let c := s.cur
      let w := s.unit c.u
      let m : BitVec 15 := spm.setWidth 15
      let target := c.target 21 off
      let (hit, rest) := s.opening
      if rest = 0#32 then .done (s.abortLanes c.u hit Config.abDisallowed 0)
      else if w.busy allLanes then .wait
      else
        let s := (s.abortLanes c.u hit Config.abDisallowed 0).modUni c.u fun x => { x with spm := m.setWidth 32 }
        if w.quota < tryNeed m w.heldSize then
          .done ((s.modLanes c.u rest fun _ t => t.noRoom target).modUni c.u fun x => { x with ablanes := rest })
        else .done (s.modLanes c.u rest fun _ t => t.openTry w.quota m target)) s

/-! ### COMMIT (R243) -/

/-- What a lane's COMMIT comes to. -/
inductive ComEnd where
  | ok (s : State)
  | fault
  | wait
  | frozen (va : DWord) (wr : Bool) (pa : Nat)

/-- Performs one buffered store as a plain store, after the checks of R217 and R235. -/
def State.commitStore (s : State) (u : Nat) (b : BufStore) : ComEnd :=
  let w := s.unit u
  if b.isLocal then
    match s.localAccess u w.team (BitVec.ofNat 32 b.addr) b.bytes.length (some b.bytes) with
    | (s, .ok _) => .ok s
    | (_, .error _) => .fault
  else
    let va := BitVec.ofNat 64 b.addr
    match s.permit w.part (s.asid w) w.slice va b.bytes.length true with
    | (_, .trap _) => .fault
    | (_, .nonres) => .fault
    | (_, .wait) => .wait
    | (s, .ok x) =>
      match (s.part w.part).locate x.pa with
      | none => .frozen va (x.wr true) x.pa
      | some l =>
        if x.sn || !(s.lineReady l.key (x.pol == 2)) then .wait
        else
          let a := x.acc (.unit u) (s.order.clock (.unit u)) w.part l b.bytes.length
          match s.perfStore a b.bytes none with
          | (s, .ok _) => .ok (s.setDirty w.slice x)
          | (_, .error _) => .fault

/-- Performs a lane's stores in program order, or none of them. -/
def State.commitStores (s : State) (u : Nat) : List BufStore → ComEnd
  | [] => .ok s
  | b :: r => match s.commitStore u b with
    | .ok s => s.commitStores u r
    | .fault => .fault
    | .wait => .wait
    | .frozen va wr pa => .frozen va wr pa

/-- What a COMMIT has come to over the lanes so far: the state, the lanes that aborted, whether one must wait, and the
first that violated the firewall. -/
structure ComRun where
  s : State
  bad : Word
  wait : Bool
  fire : Option (Nat × DWord × Bool × Nat)

/-- One lane of a COMMIT (R243): its stores are performed and its region closes, or it is to abort. -/
def ComRun.lane (r : ComRun) (u l : Nat) : ComRun :=
  match r.s.commitStores u ((r.s.unit u).lane l).sp.buf with
  | .ok s =>
    { r with s := s.modLanes u (laneBit l) fun _ t =>
        { t.dropLatches with abc := 0#32, sp := { t.sp with region := .none, buf := [] } } }
  | .fault => { r with bad := r.bad ||| laneBit l }
  | .wait => { r with wait := true }
  | .frozen va wr pa => { r with fire := r.fire.getD (l, va, wr, pa) }

/-- COMMIT (R243): members in a TRY region in ascending order; the others are unchanged. Its stores come after the warp's older
accesses (R228). -/
def execCommit (q : BitVec 3) (s : State) : Out State :=
  issueG q true .simtOnly .acts .acts false
    (fun s =>
      let c := s.cur
      let ls := (s.unit c.u).lanesWhere c.members Thread.inTry
      let r := (lanesOf ls).foldl (fun (r : ComRun) l => r.lane c.u l) { s, bad := 0#32, wait := false, fire := none }
      if (!(ls == 0#32) && (s.unit c.u).busy allLanes) || r.wait then .wait
      else match r.fire with
        | some (l, va, wr, pa) => .done ((s.advance c.u c.members c.pc).freeze c.u c.members [(l, va)] wr pa)
        | none => .done (r.s.abortLanes c.u r.bad Config.abFault 0)) s

/-! ### TXOPEN (R205, R207, R248) -/

/-- TXOPEN in one member (R205, R207): a TXOPEN at another offset resets the abort count. -/
def Thread.openTx (t : Thread) (off target : Word) (serial : Bool) : Thread :=
  { t.dropLatches with sp := { t.sp with
      region := .tx target t.slot t.stack.length off serial, rlog := [], wlog := [], wvas := [], uncs := [], abOff := off,
      abCount := if t.sp.abOff = off then t.sp.abCount else 0 } }

/-- Transactions open in the lanes of a mask, one of them in serial mode if `ser` names it; none of them waits for the token any
more. -/
def State.openAll (s : State) (m : Word) (target : Word) (ser : Option Nat) : State :=
  let c := s.cur
  let s := s.modLanes c.u m fun l t => t.openTx c.pc target (ser == some l)
  if (s.part (s.unit c.u).part).tokenQ.any fun x => x.1 == c.u then
    s.modPart (s.unit c.u).part fun p => { p with tokenQ := p.tokenQ.filter fun x => !(x.1 == c.u && m.getLsbD x.2) }
  else s

/-- A lane waits for the serial token, in the order in which TXOPENs reach it (R248). -/
def State.queueToken (s : State) (u l : Nat) : State :=
  s.modPart (s.unit u).part fun p => if p.tokenQ.contains (u, l) then p else { p with tokenQ := p.tokenQ ++ [(u, l)] }

/-- TXOPEN (R205): a member already in a region aborts (R240); of the others one that is due for serial mode takes the partition's
token, for which they wait in the order in which TXOPENs reached it (R207, R248). They stand at the word until it opens. -/
def execTxopen (q : BitVec 3) (off : BitVec 21) (s : State) : Out State :=
  issueG q true .simtOnly .acts .acts false
    (fun s =>
      let c := s.cur
      let w := s.unit c.u
      let target := c.target 21 off
      let (hit, rest) := s.opening
      let s := (s.modLanes c.u rest fun _ t => { t with pc := c.pc }).abortLanes c.u hit Config.abDisallowed 0
      let due := w.lanesWhere rest fun t => t.serialDue c.pc
      let opens := fun (s : State) => (s.modLanes c.u rest fun _ t => { t with pc := c.next }).openAll rest target
      if rest = 0#32 then .done s
      else if w.busy allLanes then .wait
      else match (lanesOf due).head? with
        | none => .done (opens s none)
        | some l =>
          match s.tokenOf w.part with
          | some (u', l') =>
            if u' = c.u ∧ due.getLsbD l' then .done (opens s (some l'))
            else if hit = 0#32 then .queued fun s => s.queueToken c.u l
            else .done (s.queueToken c.u l)
          | none => .done (opens (s.modPart w.part fun p => { p with token := some (c.u, l) }) (some l))) s

/-! ### TXCLOSE (R206, R207, R247) -/

/-- The location of a byte of the stacks in its partition's address space, for ordering. -/
def State.locOfKey (s : State) (pn key : Nat) : Nat :=
  locOf pn (unmapLine (s.part pn).ranges (key / 2 ^ 36) (key % 2 ^ 36 / 128 * 128) + key % 128)

/-- Acquires, at partition scope, every release whose value lies in some bytes (R231). -/
def acquireRange (s : State) (a : Agent) (lo len : Nat) : State :=
  let v := (s.order.rels.filter fun r => r.within lo len && scopesMeet s r.scope r.agent 2#2 a).foldl
    (fun acc r => VC.join acc r.vc) []
  { s with order := s.order.acquireVC a v }

/-- A transaction's read or write of some bytes, performed as a partition-scope acq_rel atomic access that is ordered after
every conflicting one before it (R235). -/
def State.txTouch (s : State) (pn u key len : Nat) (write : Bool) : State :=
  let ag := Agent.unit u
  let lo := s.locOfKey pn key
  noteAccess (acquireRange (orderAfter s ag lo len write) ag lo len) ag .glob lo len write (some 2#2)

/-- What validation finds for a lane: every sector equal, a sector that differs, or poison. -/
inductive TxVal where
  | same | differs | poison
deriving DecidableEq, Repr

/-- The place of a line as a partition reaches it: its range's activation class and compression (R337, R346). -/
def State.placeOfKey (s : State) (pn key : Nat) : Loc :=
  ((s.part pn).locate (unmapLine (s.part pn).ranges (key / 2 ^ 36) (key % 2 ^ 36 / 128 * 128))).getD { key, cls := 0, comp := false }

/-- Compares a lane's logged sectors with memory (R206); a sector of an uncached page is read at the stack controller (R221). -/
def State.validate (s : State) (pn : Nat) (uncs : List Nat) : List (Nat × List Byte) → State × TxVal
  | [] => (s, .same)
  | (sec, v) :: r =>
    let (s, p) := s.reachLine (32 * sec) [0, 1] (uncs.contains sec) (s.placeOfKey pn (32 * sec)).cls
    if p then (s, .poison)
    else if s.bytes (32 * sec) 32 = v then s.validate pn uncs r
    else (s, .differs)

/-- One write of some bytes of a line reaches its stack controller (R221, R349): each half that it covers is replaced unread, each
other that it touches is read first, and so is the whole of a compressed line. -/
def State.reachWrite (s : State) (pn line : Nat) (unc : Bool) (wrote : Nat → Bool) : State :=
  let whole := fun (h : Nat) => (List.range 64).all fun i => wrote (64 * h + i)
  let some := fun (h : Nat) => (List.range 64).any fun i => wrote (64 * h + i)
  let packed := Tab.get false s.packed line && !(whole 0 && whole 1)
  let read := [0, 1].filter fun h => packed || (some h && !(whole h))
  let (s, _) := s.reachLine (128 * line) read unc (s.placeOfKey pn (128 * line)).cls
  { s with ecc := ([0, 1].filter fun h => whole h && !packed).foldl (fun e h => Tab.del e (2 * line + h)) s.ecc }

/-- Applies a lane's writes as one event with its validation (R247), and publishes them as releases. A logged read counts for its whole
sector, which validation reads. DESIGN CHOICE, log 130. -/
def State.applyTx (s : State) (pn u : Nat) (sp : Spec) : State :=
  let lines := (sp.wlog.map fun p => p.1 / 128).eraseDups
  let s := sp.rlog.foldl (fun s p => s.txTouch pn u (32 * p.1) 32 false) s
  let s := lines.foldl (fun s ln => s.reachWrite pn ln (sp.uncs.any fun sec => sec / 4 == ln)
    fun i => (Tab.find? sp.wlog (128 * ln + i)).isSome) s
  let s := sp.wlog.foldl (fun s p => (s.txTouch pn u p.1 1 true).writeByte p.1 p.2) s
  let s := lines.foldl (fun s ln => s.setPacked ln (s.placeOfKey pn (128 * ln)).comp) s
  let s := if sp.wlog.any fun p => !(p.1 / 2 ^ 37 == (s.unit u).slice) then s.active pn else s
  let (o, v) := s.order.endRegion (.unit u)
  let s : State := { s with order := o }
  sp.wlog.foldl (fun s p => publish s (.unit u) 2#2 (s.locOfKey pn p.1) 1 v) s

/-- A lane whose transaction commits (R206, R207): p6 := 1, ABC := 0, the abort count reset. -/
def Thread.txDone (t : Thread) : Thread :=
  { (t.setP 6 true).dropLatches with
    abc := 0#32, sp := { t.sp with region := .none, rlog := [], wlog := [], wvas := [], uncs := [], abCount := 0 } }

/-- Whether a write of the transaction would meet a page that is being copied (R219), or a home that is not ready. -/
def State.txMustWait (s : State) (w : Warp) (sp : Spec) : Bool :=
  (sp.wvas.any fun sec =>
    match (s.permit w.part (s.asid w) w.slice (BitVec.ofNat 64 (32 * sec)) 1 true).2 with
    | .ok x => x.sn
    | .wait => true
    | .trap _ | .nonres => false) ||
  (sp.rlog.any fun p => !(s.lineReady (32 * p.1) (sp.uncs.contains p.1))) ||
  sp.wlog.any fun p => !(s.lineReady p.1 (sp.uncs.contains (p.1 / 32)))

/-- Sets D in the entries that a committed transaction wrote through (R212). -/
def State.txDirty (s : State) (w : Warp) (sp : Spec) : State :=
  sp.wvas.foldl (fun s sec =>
    match s.check w.part (s.asid w) w.slice (BitVec.ofNat 64 (32 * sec)) 1 true with
    | (s, .ok x) => s.setDirty w.slice x
    | (s, .trap _) | (s, .nonres) | (s, .wait) => s) s

/-- The entries that a transaction wrote through, in which D has to be set, are reached; whether poison is found there (log 116). -/
def State.txEntries (s : State) (w : Warp) (sp : Spec) : State × Bool :=
  sp.wvas.foldl (fun (r : State × Bool) sec =>
    match r.1.permit w.part (s.asid w) w.slice (BitVec.ofNat 64 (32 * sec)) 1 true with
    | (s, .trap cause) => (s, r.2 || cause == Config.causeMemoryError)
    | (s, .ok _) | (s, .nonres) | (s, .wait) => (s, r.2)) (s, false)

/-- One lane of a TXCLOSE: the state, and the lanes that fail validation or meet poison. -/
def closeLane (u : Nat) (r : State × Word × Word) (l : Nat) : State × Word × Word :=
  let (s, differ, bad) := r
  let w := s.unit u
  let t := w.lane l
  if t.serial then (s.modLanes u (laneBit l) fun _ t => t.txDone, differ, bad)
  else match s.validate w.part t.sp.uncs t.sp.rlog with
    | (s, .same) => match s.txEntries w t.sp with
      | (s, true) => (s, differ, bad ||| laneBit l)
      | (s, false) => (((s.applyTx w.part u t.sp).txDirty w t.sp).modLanes u (laneBit l) fun _ t => t.txDone, differ, bad)
    | (s, .differs) => (s, differ ||| laneBit l, bad)
    | (s, .poison) => (s, differ, bad ||| laneBit l)

/-- TXCLOSE (R206): members in a transaction in ascending lane order, after the warp's older accesses (R230); waits while another
warp holds the serial token (R207), and releases it when a serial lane closes. It is a yield. -/
def execTxclose (q : BitVec 3) (s : State) : Out State :=
  issueG q true .simtOnly .acts .acts true
    (fun s =>
      let c := s.cur
      let w := s.unit c.u
      let ls := w.lanesWhere c.members Thread.inTx
      let held := (s.tokenOf w.part).any fun x => x.1 != c.u
      if !(ls == 0#32) && (held || w.busy allLanes) then .wait
      else if (lanesOf ls).any fun l => !((w.lane l).serial) && s.txMustWait w (w.lane l).sp then .wait
      else
        let (s, differ, bad) := (lanesOf ls).foldl (closeLane c.u) (s, 0#32, 0#32)
        let s := (s.abortLanes c.u differ Config.abConflict 0).modLanes c.u differ fun _ t => t.setP 6 false
        let s := (s.abortLanes c.u bad Config.abFault 0).modLanes c.u bad fun _ t => t.setP 6 false
        .done ((s.releaseToken c.u (w.lanesWhere ls Thread.serial)).yieldBy c.u c.members)) s

/-- TXCANCEL (R207, R277): members in a transaction abort with CODE 0x01 and XCODE s[sa][7:0]. -/
def execTxcancel (q : BitVec 3) (a : Fin 64) (s : State) : Out State :=
  issueG q true .simtOnly .acts .acts false
    (fun s =>
      let c := s.cur
      let w := s.unit c.u
      .done (s.abortLanes c.u (w.lanesWhere c.members Thread.inTx) Config.abExplicit ((w.u.getS a.val).toNat % 256))) s

end Sys2Proof.Machine
end

