-- ==== Sys2Proof/Machine/Uniform.lean ====
section
/-!
DEFINITION. Uniform integer and float work, compares, q logic, the issue group as data, and the special registers (R143 to
R158): G-set 0x00 to 0x1D and 0x60 to 0x6B.
-/

namespace Sys2Proof.Machine

/-! ### Integer arithmetic (R145 to R149) -/

/-- s[sd] := f(x, y) (R146). -/
def uni2 (q : BitVec 3) (d a b : Fin 64) (f : Word → Word → Word) : State → Out State :=
  issueUni q fun _ _ u => u.setS d.val (f (u.getS a.val) (u.getS b.val))

/-- s[sd] := f(x) (R146). -/
def uni1 (q : BitVec 3) (d a : Fin 64) (f : Word → Word) : State → Out State :=
  issueUni q fun _ _ u => u.setS d.val (f (u.getS a.val))

/-- q[sd] := x relation y (R151). -/
def uniCmp (q : BitVec 3) (d : Fin 8) (a b : Fin 64) (r : IRel) : State → Out State :=
  issueUni q fun _ _ u => u.setQ d.val (r.test (u.getS a.val) (u.getS b.val))

/-- SNOP (R145): nothing. -/
def execSnop (q : BitVec 3) (s : State) : Out State := issueUni q (fun _ _ u => u) s

/-- SMOV (R146). -/
def execSmov (q : BitVec 3) (d a : Fin 64) (s : State) : Out State := uni1 q d a id s

/-- SLIT (R149). -/
def execSlit (q : BitVec 3) (d : Fin 64) (lit : Word) (s : State) : Out State :=
  issueUni q (fun _ _ u => u.setS d.val lit) s

/-- SLIT64 (R149): the low word first. -/
def execSlit64 (q : BitVec 3) (d : Fin 32) (lo hi : Word) (s : State) : Out State :=
  issueUni q (fun _ _ u => u.setPair d.val (DWord.ofWords lo hi)) s

/-- SADD (R146). -/
def execSadd (q : BitVec 3) (d a b : Fin 64) (s : State) : Out State := uni2 q d a b (fun x y => x + y) s

/-- SSUB (R146). -/
def execSsub (q : BitVec 3) (d a b : Fin 64) (s : State) : Out State := uni2 q d a b (fun x y => x - y) s

/-- SMUL (R146). -/
def execSmul (q : BitVec 3) (d a b : Fin 64) (s : State) : Out State := uni2 q d a b (fun x y => x * y) s

/-- SMIN (R146). -/
def execSmin (q : BitVec 3) (d a b : Fin 64) (s : State) : Out State :=
  uni2 q d a b (fun x y => if x.sle y then x else y) s

/-- SMAX (R146). -/
def execSmax (q : BitVec 3) (d a b : Fin 64) (s : State) : Out State :=
  uni2 q d a b (fun x y => if x.sle y then y else x) s

/-- SAND (R146). -/
def execSand (q : BitVec 3) (d a b : Fin 64) (s : State) : Out State := uni2 q d a b (fun x y => x &&& y) s

/-- SOR (R146). -/
def execSor (q : BitVec 3) (d a b : Fin 64) (s : State) : Out State := uni2 q d a b (fun x y => x ||| y) s

/-- SXOR (R146). -/
def execSxor (q : BitVec 3) (d a b : Fin 64) (s : State) : Out State := uni2 q d a b (fun x y => x ^^^ y) s

/-- SSHL (R90, R146). -/
def execSshl (q : BitVec 3) (d a b : Fin 64) (s : State) : Out State := uni2 q d a b shl32 s

/-- SSHR (R90, R146). -/
def execSshr (q : BitVec 3) (d a b : Fin 64) (s : State) : Out State := uni2 q d a b shr32 s

/-- SSAR (R90, R146). -/
def execSsar (q : BitVec 3) (d a b : Fin 64) (s : State) : Out State := uni2 q d a b sar32 s

/-- SADDI (R147). -/
def execSaddi (q : BitVec 3) (d a : Fin 64) (imm : BitVec 9) (s : State) : Out State :=
  uni1 q d a (fun x => x + imm.signExtend 32) s

/-- SADD64 (R148). -/
def execSadd64 (q : BitVec 3) (d a b : Fin 32) (s : State) : Out State :=
  issueUni q (fun _ _ u => u.setPair d.val (u.getPair a.val + u.getPair b.val)) s

/-- SBFE (R146). -/
def execSbfe (q : BitVec 3) (d a b : Fin 64) (s : State) : Out State := uni2 q d a b bfe32 s

/-- SCLZ (R146). -/
def execSclz (q : BitVec 3) (d a : Fin 64) (s : State) : Out State := uni1 q d a clz32 s

/-- SPOPC (R146). -/
def execSpopc (q : BitVec 3) (d a : Fin 64) (s : State) : Out State := uni1 q d a popc32 s

/-- SDIVU (R146): all ones for a zero divisor. -/
def execSdivu (q : BitVec 3) (d a b : Fin 64) (s : State) : Out State :=
  uni2 q d a b (fun x y => if y = 0#32 then 0xFFFFFFFF#32 else x / y) s

/-- SREMU (R146): x for a zero divisor. -/
def execSremu (q : BitVec 3) (d a b : Fin 64) (s : State) : Out State :=
  uni2 q d a b (fun x y => if y = 0#32 then x else x % y) s

/-! ### Compares, q logic and selection (R151 to R153) -/

/-- SCMPEQ (R151). -/
def execScmpeq (q : BitVec 3) (d : Fin 8) (a b : Fin 64) (s : State) : Out State := uniCmp q d a b .eq s

/-- SCMPNE (R151). -/
def execScmpne (q : BitVec 3) (d : Fin 8) (a b : Fin 64) (s : State) : Out State := uniCmp q d a b .ne s

/-- SCMPLT (R151). -/
def execScmplt (q : BitVec 3) (d : Fin 8) (a b : Fin 64) (s : State) : Out State := uniCmp q d a b .slt s

/-- SCMPLE (R151). -/
def execScmple (q : BitVec 3) (d : Fin 8) (a b : Fin 64) (s : State) : Out State := uniCmp q d a b .sle s

/-- SCMPLTU (R151). -/
def execScmpltu (q : BitVec 3) (d : Fin 8) (a b : Fin 64) (s : State) : Out State := uniCmp q d a b .ult s

/-- The function of QOP (R152). -/
def qFun : QFun → Bool → Bool → Bool
  | .and, x, y => x && y
  | .or, x, y => x || y
  | .xor, x, y => x != y
  | .andn, x, y => x && !y
  | .not, x, _ => !x

/-- QOP (R152); NOT with sb other than 0 is illegal (R55). -/
def execQop (q : BitVec 3) (f : QFun) (d a b : Fin 8) (s : State) : Out State :=
  issueG q (Instr.qop q f d a b).wf .both .acts .acts false
    (fun s => .done (s.modUni s.cur.u fun u => u.setQ d.val (qFun f (u.getQ a.val) (u.getQ b.val)))) s

/-- SSEL (R153). -/
def execSsel (q : BitVec 3) (d a b : Fin 64) (x : Fin 8) (s : State) : Out State :=
  issueUni q (fun _ _ u => u.setS d.val (if u.getQ x.val then u.getS a.val else u.getS b.val)) s

/-! ### Uniform float (R150): FZ does not apply -/

/-- s[sd] := a float result, with its flags. -/
def Uni.setF (u : Uni) (d : Nat) (r : Word × Word) : Uni := (u.setS d r.1).raise r.2

/-- SFADD (R150). -/
def execSfadd (q : BitVec 3) (d a b : Fin 64) (s : State) : Out State :=
  issueUni q (fun _ _ u =>
    u.setF d.val (f32.fadd (fcrRm u.fcr) false (u.getS a.val).toNat (u.getS b.val).toNat).word) s

/-- SFMUL (R150). -/
def execSfmul (q : BitVec 3) (d a b : Fin 64) (s : State) : Out State :=
  issueUni q (fun _ _ u =>
    u.setF d.val (f32.fmul (fcrRm u.fcr) false (u.getS a.val).toNat (u.getS b.val).toNat).word) s

/-- SFCMPLT (R150): false with a NaN operand, and NV. -/
def execSfcmplt (q : BitVec 3) (d : Fin 8) (a b : Fin 64) (s : State) : Out State :=
  issueUni q (fun _ _ u =>
    let r := f32.fcmp .lt false (u.getS a.val).toNat (u.getS b.val).toNat
    (u.setQ d.val r.1).raise r.2) s

/-- SCVTFI (R105, R150). -/
def execScvtfi (q : BitVec 3) (d a : Fin 64) (s : State) : Out State :=
  issueUni q (fun _ _ u => u.setF d.val (cvtfi (fcrRm u.fcr) false (u.getS a.val))) s

/-- SCVTIF (R106, R150). -/
def execScvtif (q : BitVec 3) (d a : Fin 64) (s : State) : Out State :=
  issueUni q (fun _ _ u => u.setF d.val (cvtif (fcrRm u.fcr) (u.getS a.val)).word) s

/-! ### The issue group as data (R154) -/

/-- SFIRST (R154): the lowest-numbered member. -/
def execSfirst (q : BitVec 3) (d : Fin 64) (s : State) : Out State :=
  issueG q true .simtOnly .acts .acts false
    (fun s => .done (s.modUni s.cur.u fun u =>
      u.setS d.val (BitVec.ofNat 32 ((lanesOf s.cur.members).headD 0)))) s

/-- VMASK (R154): the members as a mask. -/
def execVmask (q : BitVec 3) (d : Fin 64) (s : State) : Out State :=
  issueG q true .simtOnly .acts .acts false
    (fun s => .done (s.modUni s.cur.u fun u => u.setS d.val s.cur.members)) s

/-- q[sd] from the members' p[A]; p7 waits for the accesses that write it (R97). -/
def groupPred (q : BitVec 3) (d a : Fin 8) (f : Word → Word → Bool) : State → Out State :=
  issueG q true .simtOnly .acts .acts false fun s =>
    let c := s.cur
    let w := s.unit c.u
    if (lanesOf c.members).any fun l => (w.lane l).awaits (predRegs a.val) [] then .wait
    else .done (s.modUni c.u fun u => u.setQ d.val (f (w.lanesWhere c.members fun t => t.getP a.val) c.members))

/-- QANY (R154): the OR over the members. -/
def execQany (q : BitVec 3) (d a : Fin 8) (s : State) : Out State := groupPred q d a (fun m _ => !(m == 0#32)) s

/-- QALL (R154): the AND over the members. -/
def execQall (q : BitVec 3) (d a : Fin 8) (s : State) : Out State := groupPred q d a (fun m all => m == all) s

/-- PSET (R154): q[A] to p[D] of every member. -/
def execPset (q : BitVec 3) (p : Fin 7) (a : Fin 8) (s : State) : Out State :=
  issueG q true .simtOnly .acts .acts false
    (fun s =>
      let c := s.cur
      let b := (s.unit c.u).u.getQ a.val
      .done (s.modLanes c.u c.members fun _ t => t.setP p.val b)) s

/-! ### Special registers (R155 to R158) -/

/-- A field of a unit's launch record (R314). -/
def State.launchField (s : State) (w : Warp) (o n : Nat) : Nat := fieldAt (s.grid w.grid).recb o n

/-- TXMODE (R156): an open TRY region, an open transaction, a lane that holds the serial token (R207). -/
def State.txmode (s : State) (u : Nat) : Word :=
  let any := fun (f : Thread → Bool) => (lanesOf allLanes).any fun l => f ((s.unit u).lane l)
  BitVec.ofNat 32 ((if any Thread.inTry then 1 else 0) + (if any Thread.inTx then 2 else 0) +
    (if s.holdsToken u then 4 else 0))

/-- The thread whose frame SRD reads: the lowest-numbered member (R155). -/
def State.firstMember (s : State) : Thread := (s.unit s.cur.u).lane ((lanesOf s.cur.members).headD 0)

/-- The value of a special register other than CLK (R156). On a Reckoner TIDX to WARP, QUOTA, SPM, ABLANES and TXMODE read
zero. -/
def State.special (s : State) (w : Warp) (ix : Nat) : Word :=
  let rf := s.launchField w
  let n := fun (x : Nat) => (BitVec.ofNat 32 x : Word)
  let simt := fun (x : Nat) => if w.reck then 0#32 else n x
  let tid := 32 * w.k + (lanesOf s.cur.members).headD 0
  let tm := (s.team w.team).idx
  let ft := s.firstMember
  match ix with
  | 0x000 => simt (tid % rf 0x1C 2)
  | 0x001 => simt (tid / rf 0x1C 2 % rf 0x1E 1)
  | 0x002 => simt (tid / rf 0x1C 2 / rf 0x1E 1)
  | 0x003 => simt (tm % rf 0x10 4)
  | 0x004 => simt (tm / rf 0x10 4 % rf 0x14 4)
  | 0x005 => simt (tm / rf 0x10 4 / rf 0x14 4)
  | 0x006 => simt (rf 0x1C 2 * rf 0x1E 1 * rf 0x1F 1)
  | 0x007 => simt (Nat.min 0xFFFFFFFF (rf 0x10 4 * rf 0x14 4 * rf 0x18 4))
  | 0x008 => simt w.k
  | 0x009 => n (s.grid w.grid).num
  | 0x00A => n (s.grid w.grid).depth
  | 0x00B => n w.core
  | 0x00C => n w.slice
  | 0x00D => n (s.part w.part).corner
  | 0x010 => w.u.fcr
  | 0x011 => w.u.fsr
  | 0x012 => simt w.quota
  | 0x013 => if w.reck then 0#32 else w.u.spm
  | 0x014 => if w.reck then 0#32 else w.u.ablanes
  | 0x015 => if w.reck then 0#32 else s.txmode s.cur.u
  | 0x016 => w.u.tvec
  | 0x017 => ft.frameWord 0
  | 0x018 => ft.frameWord 2
  | 0x019 => ft.frameWord 3
  | 0x01A => ft.frameWord 4
  | 0x01B => ft.frameWord 6
  | 0x01C => ft.frameWord 1
  | 0x01D => w.u.uivec
  | 0x01E => w.u.ccnt.lo
  | 0x01F => w.u.ccnt.hi
  | k => s.fslot w (k - 0x020)

/-- SRD (R155, R157): CLK.LO copies the high word into the shadow, which the next CLK.HI returns. -/
def execSrd (q : BitVec 3) (d : Fin 64) (ix : Fin 40) (s : State) : Out State :=
  issueUni q (fun s w u =>
    if ix.val = 0x00E then { u.setS d.val (s.clk w).lo with shadow := some (s.clk w).hi }
    else if ix.val = 0x00F then { u.setS d.val (u.shadow.getD (s.clk w).hi) with shadow := none }
    else u.setS d.val (s.special w ix.val)) s

/-- The word of the trap frame that a writable trap register names (R155, R289). -/
def frameIx (ix : Nat) : Option Nat :=
  match ix with
  | 0x017 => some 0
  | 0x018 => some 2
  | 0x019 => some 3
  | 0x01A => some 4
  | _ => none

/-- SWR to a register of the uniform state (R156). -/
def Uni.swr (u : Uni) (ix : Nat) (x : Word) : Uni :=
  match ix with
  | 0x010 => { u with fcr := fcrWrite x }
  | 0x011 => { u with fsr := fsrWrite x }
  | 0x016 => { u with tvec := x }
  | 0x01D => { u with uivec := x }
  | 0x01E => { u with ccnt := DWord.ofWords x u.ccnt.hi }
  | 0x01F => { u with ccnt := DWord.ofWords u.ccnt.lo x }
  | _ => u

/-- SWR (R155): a trap register is written in the frame of every member. -/
def execSwr (q : BitVec 3) (a : Fin 64) (ix : Fin 40) (s : State) : Out State :=
  issueG q (swrWritable ix) .both .acts .acts false
    (fun s =>
      let c := s.cur
      let x := (s.unit c.u).u.getS a.val
      match frameIx ix.val with
      | some i => .done (s.modLanes c.u c.members fun _ t => { t with frame := frameWrite t.frame i x })
      | none => .done (s.modUni c.u fun u => u.swr ix.val x)) s

end Sys2Proof.Machine
end

