-- ==== Sys2Proof/Machine/Dispatch.lean ====
section
/-!
DEFINITION. `exec`: one arm for each constructor of `Instr`, each a call of that instruction's meaning.
-/

namespace Sys2Proof.Machine

/-- The meaning of an instruction or step. -/
def exec (i : Instr) (s : State) : Host.Outcome State Fault Refusal :=
  match i with
  | .nop g => Sys2Proof.Machine.execNop g s
  | .mov g d a => Sys2Proof.Machine.execMov g d a s
  | .vbc g d sr => Sys2Proof.Machine.execVbc g d sr s
  | .iadd g d a b => Sys2Proof.Machine.execIadd g d a b s
  | .isub g d a b => Sys2Proof.Machine.execIsub g d a b s
  | .imul g d a b => Sys2Proof.Machine.execImul g d a b s
  | .imulh g d a b => Sys2Proof.Machine.execImulh g d a b s
  | .imulhu g d a b => Sys2Proof.Machine.execImulhu g d a b s
  | .imac g d a b => Sys2Proof.Machine.execImac g d a b s
  | .imin g d a b => Sys2Proof.Machine.execImin g d a b s
  | .imax g d a b => Sys2Proof.Machine.execImax g d a b s
  | .umin g d a b => Sys2Proof.Machine.execUmin g d a b s
  | .umax g d a b => Sys2Proof.Machine.execUmax g d a b s
  | .iabs g d a => Sys2Proof.Machine.execIabs g d a s
  | .andOp g d a b => Sys2Proof.Machine.execAnd g d a b s
  | .orOp g d a b => Sys2Proof.Machine.execOr g d a b s
  | .xorOp g d a b => Sys2Proof.Machine.execXor g d a b s
  | .andn g d a b => Sys2Proof.Machine.execAndn g d a b s
  | .shl g d a b => Sys2Proof.Machine.execShl g d a b s
  | .shr g d a b => Sys2Proof.Machine.execShr g d a b s
  | .sar g d a b => Sys2Proof.Machine.execSar g d a b s
  | .clz g d a => Sys2Proof.Machine.execClz g d a s
  | .popc g d a => Sys2Proof.Machine.execPopc g d a s
  | .brev g d a => Sys2Proof.Machine.execBrev g d a s
  | .bfe g d a b => Sys2Proof.Machine.execBfe g d a b s
  | .bfes g d a b => Sys2Proof.Machine.execBfes g d a b s
  | .bfi g d a b => Sys2Proof.Machine.execBfi g d a b s
  | .sel g d a b => Sys2Proof.Machine.execSel g d a b s
  | .icmpeq g p a b => Sys2Proof.Machine.execIcmpeq g p a b s
  | .icmpne g p a b => Sys2Proof.Machine.execIcmpne g p a b s
  | .icmplt g p a b => Sys2Proof.Machine.execIcmplt g p a b s
  | .icmple g p a b => Sys2Proof.Machine.execIcmple g p a b s
  | .ucmplt g p a b => Sys2Proof.Machine.execUcmplt g p a b s
  | .ucmple g p a b => Sys2Proof.Machine.execUcmple g p a b s
  | .pand g p a b => Sys2Proof.Machine.execPand g p a b s
  | .por g p a b => Sys2Proof.Machine.execPor g p a b s
  | .pxor g p a b => Sys2Proof.Machine.execPxor g p a b s
  | .pnot g p a => Sys2Proof.Machine.execPnot g p a s
  | .ptov g d a => Sys2Proof.Machine.execPtov g d a s
  | .vtop g p a => Sys2Proof.Machine.execVtop g p a s
  | .fadd g d a b => Sys2Proof.Machine.execFadd g d a b s
  | .fsub g d a b => Sys2Proof.Machine.execFsub g d a b s
  | .fmul g d a b => Sys2Proof.Machine.execFmul g d a b s
  | .fmac g d a b => Sys2Proof.Machine.execFmac g d a b s
  | .fmal g d a b => Sys2Proof.Machine.execFmal g d a b s
  | .fmin g d a b => Sys2Proof.Machine.execFmin g d a b s
  | .fmax g d a b => Sys2Proof.Machine.execFmax g d a b s
  | .fscale g d a b => Sys2Proof.Machine.execFscale g d a b s
  | .fcmpeq g p a b => Sys2Proof.Machine.execFcmpeq g p a b s
  | .fcmplt g p a b => Sys2Proof.Machine.execFcmplt g p a b s
  | .fcmple g p a b => Sys2Proof.Machine.execFcmple g p a b s
  | .fcmpun g p a b => Sys2Proof.Machine.execFcmpun g p a b s
  | .frcp g d a => Sys2Proof.Machine.execFrcp g d a s
  | .frsq g d a => Sys2Proof.Machine.execFrsq g d a s
  | .fsqrt g d a => Sys2Proof.Machine.execFsqrt g d a s
  | .fexp2 g d a => Sys2Proof.Machine.execFexp2 g d a s
  | .flog2 g d a => Sys2Proof.Machine.execFlog2 g d a s
  | .fsinpi g d a => Sys2Proof.Machine.execFsinpi g d a s
  | .fcospi g d a => Sys2Proof.Machine.execFcospi g d a s
  | .ftanh g d a => Sys2Proof.Machine.execFtanh g d a s
  | .badd2 g d a b => Sys2Proof.Machine.execBadd2 g d a b s
  | .bmul2 g d a b => Sys2Proof.Machine.execBmul2 g d a b s
  | .bmac2 g d a b => Sys2Proof.Machine.execBmac2 g d a b s
  | .bmax2 g d a b => Sys2Proof.Machine.execBmax2 g d a b s
  | .hadd2 g d a b => Sys2Proof.Machine.execHadd2 g d a b s
  | .hmul2 g d a b => Sys2Proof.Machine.execHmul2 g d a b s
  | .hmac2 g d a b => Sys2Proof.Machine.execHmac2 g d a b s
  | .hmax2 g d a b => Sys2Proof.Machine.execHmax2 g d a b s
  | .cvtfi g d a => Sys2Proof.Machine.execCvtfi g d a s
  | .cvtif g d a => Sys2Proof.Machine.execCvtif g d a s
  | .pkbf g d a b => Sys2Proof.Machine.execPkbf g d a b s
  | .pkhf g d a b => Sys2Proof.Machine.execPkhf g d a b s
  | .upklo g d a => Sys2Proof.Machine.execUpklo g d a s
  | .upkhi g d a => Sys2Proof.Machine.execUpkhi g d a s
  | .cvtn g d a slot mode => Sys2Proof.Machine.execCvtn g d a slot mode s
  | .cvtw g d a slot mode => Sys2Proof.Machine.execCvtw g d a slot mode s
  | .qscale g d a slot mode => Sys2Proof.Machine.execQscale g d a slot mode s
  | .cvtsr g d a b => Sys2Proof.Machine.execCvtsr g d a b s
  | .shfl g d a b => Sys2Proof.Machine.execShfl g d a b s
  | .lswap g d a b => Sys2Proof.Machine.execLswap g d a b s
  | .hswap g d a b => Sys2Proof.Machine.execHswap g d a b s
  | .ballot g d a => Sys2Proof.Machine.execBallot g d a s
  | .ldg8 g d a bp hint acq => Sys2Proof.Machine.execLdg8 g d a bp hint acq s
  | .ldg16 g d a bp hint acq => Sys2Proof.Machine.execLdg16 g d a bp hint acq s
  | .ldg32 g d a bp hint acq => Sys2Proof.Machine.execLdg32 g d a bp hint acq s
  | .ldg64 g d a bp hint acq => Sys2Proof.Machine.execLdg64 g d a bp hint acq s
  | .ldg128 g d a bp hint acq => Sys2Proof.Machine.execLdg128 g d a bp hint acq s
  | .stg8 g d a bp hint rel => Sys2Proof.Machine.execStg8 g d a bp hint rel s
  | .stg16 g d a bp hint rel => Sys2Proof.Machine.execStg16 g d a bp hint rel s
  | .stg32 g d a bp hint rel => Sys2Proof.Machine.execStg32 g d a bp hint rel s
  | .stg64 g d a bp hint rel => Sys2Proof.Machine.execStg64 g d a bp hint rel s
  | .stg128 g d a bp hint rel => Sys2Proof.Machine.execStg128 g d a bp hint rel s
  | .ldl32 g d a imm => Sys2Proof.Machine.execLdl32 g d a imm s
  | .ldl64 g d a imm => Sys2Proof.Machine.execLdl64 g d a imm s
  | .ldl128 g d a imm => Sys2Proof.Machine.execLdl128 g d a imm s
  | .stl32 g d a imm => Sys2Proof.Machine.execStl32 g d a imm s
  | .stl64 g d a imm => Sys2Proof.Machine.execStl64 g d a imm s
  | .stl128 g d a imm => Sys2Proof.Machine.execStl128 g d a imm s
  | .aadd g d a bp scope order => Sys2Proof.Machine.execAadd g d a bp scope order s
  | .aadd64 g d a bp scope order => Sys2Proof.Machine.execAadd64 g d a bp scope order s
  | .amin g d a bp scope order => Sys2Proof.Machine.execAmin g d a bp scope order s
  | .amax g d a bp scope order => Sys2Proof.Machine.execAmax g d a bp scope order s
  | .aand g d a bp scope order => Sys2Proof.Machine.execAand g d a bp scope order s
  | .aor g d a bp scope order => Sys2Proof.Machine.execAor g d a bp scope order s
  | .axchg g d a bp scope order => Sys2Proof.Machine.execAxchg g d a bp scope order s
  | .acas g d a bp scope order => Sys2Proof.Machine.execAcas g d a bp scope order s
  | .radd g d a bp scope rel => Sys2Proof.Machine.execRadd g d a bp scope rel s
  | .raddf g d a bp scope rel => Sys2Proof.Machine.execRaddf g d a bp scope rel s
  | .rmax g d a bp scope rel => Sys2Proof.Machine.execRmax g d a bp scope rel s
  | .drain g d acc cb => Sys2Proof.Machine.execDrain g d acc cb s
  | .accw g d acc cb => Sys2Proof.Machine.execAccw g d acc cb s
  | .bra g off => Sys2Proof.Machine.execBra g off s
  | .call g off => Sys2Proof.Machine.execCall g off s
  | .ret g => Sys2Proof.Machine.execRet g s
  | .trapl g a => Sys2Proof.Machine.execTrapl g a s
  | .rollb g a => Sys2Proof.Machine.execRollb g a s
  | .snop q => Sys2Proof.Machine.execSnop q s
  | .smov q d a => Sys2Proof.Machine.execSmov q d a s
  | .slit q d lit => Sys2Proof.Machine.execSlit q d lit s
  | .sadd q d a b => Sys2Proof.Machine.execSadd q d a b s
  | .ssub q d a b => Sys2Proof.Machine.execSsub q d a b s
  | .smul q d a b => Sys2Proof.Machine.execSmul q d a b s
  | .smin q d a b => Sys2Proof.Machine.execSmin q d a b s
  | .smax q d a b => Sys2Proof.Machine.execSmax q d a b s
  | .sand q d a b => Sys2Proof.Machine.execSand q d a b s
  | .sor q d a b => Sys2Proof.Machine.execSor q d a b s
  | .sxor q d a b => Sys2Proof.Machine.execSxor q d a b s
  | .sshl q d a b => Sys2Proof.Machine.execSshl q d a b s
  | .sshr q d a b => Sys2Proof.Machine.execSshr q d a b s
  | .ssar q d a b => Sys2Proof.Machine.execSsar q d a b s
  | .saddi q d a imm => Sys2Proof.Machine.execSaddi q d a imm s
  | .sadd64 q d a b => Sys2Proof.Machine.execSadd64 q d a b s
  | .sbfe q d a b => Sys2Proof.Machine.execSbfe q d a b s
  | .sclz q d a => Sys2Proof.Machine.execSclz q d a s
  | .spopc q d a => Sys2Proof.Machine.execSpopc q d a s
  | .scmpeq q d a b => Sys2Proof.Machine.execScmpeq q d a b s
  | .scmpne q d a b => Sys2Proof.Machine.execScmpne q d a b s
  | .scmplt q d a b => Sys2Proof.Machine.execScmplt q d a b s
  | .scmple q d a b => Sys2Proof.Machine.execScmple q d a b s
  | .scmpltu q d a b => Sys2Proof.Machine.execScmpltu q d a b s
  | .qop q f d a b => Sys2Proof.Machine.execQop q f d a b s
  | .ssel q d a b x => Sys2Proof.Machine.execSsel q d a b x s
  | .sfirst q d => Sys2Proof.Machine.execSfirst q d s
  | .vmask q d => Sys2Proof.Machine.execVmask q d s
  | .srd q d ix => Sys2Proof.Machine.execSrd q d ix s
  | .swr q a ix => Sys2Proof.Machine.execSwr q a ix s
  | .jmp q off => Sys2Proof.Machine.execJmp q off s
  | .loop q d off => Sys2Proof.Machine.execLoop q d off s
  | .scall q off => Sys2Proof.Machine.execScall q off s
  | .sret q => Sys2Proof.Machine.execSret q s
  | .jovl q bp b => Sys2Proof.Machine.execJovl q bp b s
  | .ovload q bp slot => Sys2Proof.Machine.execOvload q bp slot s
  | .yield q => Sys2Proof.Machine.execYield q s
  | .exit q => Sys2Proof.Machine.execExit q s
  | .trap q a => Sys2Proof.Machine.execTrap q a s
  | .tret q => Sys2Proof.Machine.execTret q s
  | .tmask q m => Sys2Proof.Machine.execTmask q m s
  | .uint q a b => Sys2Proof.Machine.execUint q a b s
  | .uiret q => Sys2Proof.Machine.execUiret q s
  | .sysc q d a b => Sys2Proof.Machine.execSysc q d a b s
  | .sbrk q => Sys2Proof.Machine.execSbrk q s
  | .launch q bp => Sys2Proof.Machine.execLaunch q bp s
  | .regq q a => Sys2Proof.Machine.execRegq q a s
  | .regpool q d => Sys2Proof.Machine.execRegpool q d s
  | .sld q d scope bp b ord => Sys2Proof.Machine.execSld q d scope bp b ord s
  | .sld64 q d scope bp b ord => Sys2Proof.Machine.execSld64 q d scope bp b ord s
  | .sst q d scope bp b ord => Sys2Proof.Machine.execSst q d scope bp b ord s
  | .sst64 q d scope bp b ord => Sys2Proof.Machine.execSst64 q d scope bp b ord s
  | .saadd q d scope bp b order => Sys2Proof.Machine.execSaadd q d scope bp b order s
  | .sacas q d scope bp b order => Sys2Proof.Machine.execSacas q d scope bp b order s
  | .pgreq q c r b => Sys2Proof.Machine.execPgreq q c r b s
  | .pgadv q k bp b => Sys2Proof.Machine.execPgadv q k bp b s
  | .palloc q d b => Sys2Proof.Machine.execPalloc q d b s
  | .pfree q bp => Sys2Proof.Machine.execPfree q bp s
  | .cnew q d scope => Sys2Proof.Machine.execCnew q d scope s
  | .cfree q bp => Sys2Proof.Machine.execCfree q bp s
  | .cadd q scope bp b => Sys2Proof.Machine.execCadd q scope bp b s
  | .caddr q scope bp b => Sys2Proof.Machine.execCaddr q scope bp b s
  | .cread q d scope bp => Sys2Proof.Machine.execCread q d scope bp s
  | .waitge q scope bp b => Sys2Proof.Machine.execWaitge q scope bp b s
  | .waitto q t scope bp b => Sys2Proof.Machine.execWaitto q t scope bp b s
  | .tbar q => Sys2Proof.Machine.execTbar q s
  | .fence q scope => Sys2Proof.Machine.execFence q scope s
  | .fencex q scope c1 c2 => Sys2Proof.Machine.execFencex q scope c1 c2 s
  | .tryOp q off spm => Sys2Proof.Machine.execTry q off spm s
  | .commit q => Sys2Proof.Machine.execCommit q s
  | .txopen q off => Sys2Proof.Machine.execTxopen q off s
  | .txclose q => Sys2Proof.Machine.execTxclose q s
  | .txcancel q a => Sys2Proof.Machine.execTxcancel q a s
  | .tiledef q t a b => Sys2Proof.Machine.execTiledef q t a b s
  | .tilerel q t => Sys2Proof.Machine.execTilerel q t s
  | .tstate q d t => Sys2Proof.Machine.execTstate q d t s
  | .metadef q t a b => Sys2Proof.Machine.execMetadef q t a b s
  | .cpyin q t bp b => Sys2Proof.Machine.execCpyin q t bp b s
  | .cpyout q t bp b => Sys2Proof.Machine.execCpyout q t bp b s
  | .cpygg q d bp b => Sys2Proof.Machine.execCpygg q d bp b s
  | .gather q t bp b => Sys2Proof.Machine.execGather q t bp b s
  | .scatter q t bp b => Sys2Proof.Machine.execScatter q t bp b s
  | .coll q bp b => Sys2Proof.Machine.execColl q bp b s
  | .sealb q bp b => Sys2Proof.Machine.execSealb q bp b s
  | .sealu q bp b => Sys2Proof.Machine.execSealu q bp b s
  | .sealf q bp => Sys2Proof.Machine.execSealf q bp s
  | .ckpt q bp => Sys2Proof.Machine.execCkpt q bp s
  | .msel q core a => Sys2Proof.Machine.execMsel q core a s
  | .mma q m => Sys2Proof.Machine.execMma q m s
  | .mmas q m => Sys2Proof.Machine.execMmas q m s
  | .mmag q m => Sys2Proof.Machine.execMmag q m s
  | .mscale q acc oct core => Sys2Proof.Machine.execMscale q acc oct core s
  | .mzero q acc core => Sys2Proof.Machine.execMzero q acc core s
  | .mrel q core => Sys2Proof.Machine.execMrel q core s
  | .mwait q core => Sys2Proof.Machine.execMwait q core s
  | .hint q k bp b => Sys2Proof.Machine.execHint q k bp b s
  | .sfadd q d a b => Sys2Proof.Machine.execSfadd q d a b s
  | .sfmul q d a b => Sys2Proof.Machine.execSfmul q d a b s
  | .sfcmplt q d a b => Sys2Proof.Machine.execSfcmplt q d a b s
  | .scvtfi q d a => Sys2Proof.Machine.execScvtfi q d a s
  | .scvtif q d a => Sys2Proof.Machine.execScvtif q d a s
  | .sdivu q d a b => Sys2Proof.Machine.execSdivu q d a b s
  | .sremu q d a b => Sys2Proof.Machine.execSremu q d a b s
  | .qany q d a => Sys2Proof.Machine.execQany q d a s
  | .qall q d a => Sys2Proof.Machine.execQall q d a s
  | .pset q p a => Sys2Proof.Machine.execPset q p a s
  | .sleep q a => Sys2Proof.Machine.execSleep q a s
  | .slit64 q d lo hi => Sys2Proof.Machine.execSlit64 q d lo hi s
  | .reservedOpcodeWord gset op g rest => Sys2Proof.Machine.execReservedOpcodeWord gset op g rest s
  | .fetchOutsideOverlay => Sys2Proof.Machine.execFetchOutsideOverlay s
  | .loadDataReturn u seq lanes => Sys2Proof.Machine.execLoadDataReturn u seq lanes s
  | .storePerformed u seq lanes => Sys2Proof.Machine.execStorePerformed u seq lanes s
  | .trapEntry u lane => Sys2Proof.Machine.execTrapEntry u lane s
  | .waitSatisfied u lane => Sys2Proof.Machine.execWaitSatisfied u lane s
  | .waittoTimeout u lane => Sys2Proof.Machine.execWaittoTimeout u lane s
  | .sleepWake u lane => Sys2Proof.Machine.execSleepWake u lane s
  | .regqGrant team => Sys2Proof.Machine.execRegqGrant team s
  | .regqRefuse team => Sys2Proof.Machine.execRegqRefuse team s
  | .matrixExecuteStart slice core => Sys2Proof.Machine.execMatrixExecuteStart slice core s
  | .matrixComplete slice core => Sys2Proof.Machine.execMatrixComplete slice core s
  | .engineCommandStart cmd => Sys2Proof.Machine.execEngineCommandStart cmd s
  | .engineCommandComplete cmd => Sys2Proof.Machine.execEngineCommandComplete cmd s
  | .engineCommandFault cmd => Sys2Proof.Machine.execEngineCommandFault cmd s
  | .overlaySlotCopy u => Sys2Proof.Machine.execOverlaySlotCopy u s
  | .overlayCopyDone u => Sys2Proof.Machine.execOverlayCopyDone u s
  | .uintDelivery u => Sys2Proof.Machine.execUintDelivery u s
  | .watchdog slice core slot => Sys2Proof.Machine.execWatchdog slice core slot s
  | .warpAging u => Sys2Proof.Machine.execWarpAging u s
  | .syscReply u reply hart => Sys2Proof.Machine.execSyscReply u reply hart s
  | .collAllReduce cmd inputs => Sys2Proof.Machine.execCollAllReduce cmd inputs s
  | .collReduceScatter cmd inputs => Sys2Proof.Machine.execCollReduceScatter cmd inputs s
  | .collAllGather cmd inputs => Sys2Proof.Machine.execCollAllGather cmd inputs s
  | .collBroadcast cmd inputs => Sys2Proof.Machine.execCollBroadcast cmd inputs s
  | .collPut cmd acked => Sys2Proof.Machine.execCollPut cmd acked s
  | .collGet cmd inputs => Sys2Proof.Machine.execCollGet cmd inputs s
  | .collAllToAll cmd inputs => Sys2Proof.Machine.execCollAllToAll cmd inputs s
  | .fabricRemoteAccess slice acc => Sys2Proof.Machine.execFabricRemoteAccess slice acc s
  | .ckptSave cmd reach readback => Sys2Proof.Machine.execCkptSave cmd reach readback s
  | .ckptRestore cmd reach => Sys2Proof.Machine.execCkptRestore cmd reach s
  | .ckptPageCopy cmd va => Sys2Proof.Machine.execCkptPageCopy cmd va s
  | .sealContextVoid u reason => Sys2Proof.Machine.execSealContextVoid u reason s
  | .gridRetire grid => Sys2Proof.Machine.execGridRetire grid s
  | .pgreqResidentAdd part req => Sys2Proof.Machine.execPgreqResidentAdd part req s
  | .rangeEvict part ctx va len => Sys2Proof.Machine.execRangeEvict part ctx va len s
  | .recordTake part qid => Sys2Proof.Machine.execRecordTake part qid s
  | .gridEligible grid => Sys2Proof.Machine.execGridEligible grid s
  | .gridPlace grid => Sys2Proof.Machine.execGridPlace grid s
  | .bindPlace slice ix => Sys2Proof.Machine.execBindPlace slice ix s
  | .bindWithdraw slice ix => Sys2Proof.Machine.execBindWithdraw slice ix s
  | .bindReturn slice ix => Sys2Proof.Machine.execBindReturn slice ix s
  | .teamSave team => Sys2Proof.Machine.execTeamSave team s
  | .graceWindowEnd u => Sys2Proof.Machine.execGraceWindowEnd u s
  | .timeSliceExpiry grid => Sys2Proof.Machine.execTimeSliceExpiry grid s
  | .eventRecordWrite part => Sys2Proof.Machine.execEventRecordWrite part s
  | .scRegisterQueue slice value => Sys2Proof.Machine.execScRegisterQueue slice value s
  | .scRemoveQueue slice value => Sys2Proof.Machine.execScRemoveQueue slice value s
  | .scSetEventRing slice value => Sys2Proof.Machine.execScSetEventRing slice value s
  | .tlbinvPage slice value => Sys2Proof.Machine.execTlbinvPage slice value s
  | .tlbinvContext slice value => Sys2Proof.Machine.execTlbinvContext slice value s
  | .tlbinvReload slice value => Sys2Proof.Machine.execTlbinvReload slice value s
  | .tlbinvAll slice value => Sys2Proof.Machine.execTlbinvAll slice value s
  | .tlbinvDone part => Sys2Proof.Machine.execTlbinvDone part s
  | .sliceReset slice => Sys2Proof.Machine.execSliceReset slice s
  | .functionReady slice bit => Sys2Proof.Machine.execFunctionReady slice bit s
  | .firewallReleaseAll slice => Sys2Proof.Machine.execFirewallReleaseAll slice s
  | .actctlWrite slice value => Sys2Proof.Machine.execActctlWrite slice value s
  | .pmctlThaw slice value => Sys2Proof.Machine.execPmctlThaw slice value s
  | .addressRangeWrite slice offset value => Sys2Proof.Machine.execAddressRangeWrite slice offset value s
  | .registerWrite slice offset value => Sys2Proof.Machine.execRegisterWrite slice offset value s
  | .progressWindowEnd part => Sys2Proof.Machine.execProgressWindowEnd part s
  | .debugHalt u => Sys2Proof.Machine.execDebugHalt u s
  | .debugResume u lane skip => Sys2Proof.Machine.execDebugResume u lane skip s
  | .partitionFuse x0 x1 y0 y1 world ranges => Sys2Proof.Machine.execPartitionFuse x0 x1 y0 y1 world ranges s
  | .kernelBoot part image sigOk => Sys2Proof.Machine.execKernelBoot part image sigOk s
  | .partitionResize part add edge => Sys2Proof.Machine.execPartitionResize part add edge s
  | .resizeSliceStep part => Sys2Proof.Machine.execResizeSliceStep part s
  | .partitionDissolve part => Sys2Proof.Machine.execPartitionDissolve part s
  | .scrubChunk slice => Sys2Proof.Machine.execScrubChunk slice s
  | .powerOn => Sys2Proof.Machine.execPowerOn s
  | .powerFail => Sys2Proof.Machine.execPowerFail s
  | .getVersion part req => Sys2Proof.Machine.execGetVersion part req s
  | .getCapabilities part req => Sys2Proof.Machine.execGetCapabilities part req s
  | .negotiateAlgorithms part req => Sys2Proof.Machine.execNegotiateAlgorithms part req s
  | .getDigests part req => Sys2Proof.Machine.execGetDigests part req s
  | .getCertificate part req => Sys2Proof.Machine.execGetCertificate part req s
  | .challenge part req => Sys2Proof.Machine.execChallenge part req s
  | .getMeasurements part req => Sys2Proof.Machine.execGetMeasurements part req s
  | .measurementExtend part ix value => Sys2Proof.Machine.execMeasurementExtend part ix value s
  | .rotFailover => Sys2Proof.Machine.execRotFailover s
  | .packetSend slice assoc payload => Sys2Proof.Machine.execPacketSend slice assoc payload s
  | .packetReceive slice assoc counter cipher => Sys2Proof.Machine.execPacketReceive slice assoc counter cipher s
  | .packetRetry slice assoc counter => Sys2Proof.Machine.execPacketRetry slice assoc counter s
  | .rekey slice assoc => Sys2Proof.Machine.execRekey slice assoc s
  | .rekeyReopen slice assoc key salt => Sys2Proof.Machine.execRekeyReopen slice assoc key salt s
  | .flashAccess world addr write len => Sys2Proof.Machine.execFlashAccess world addr write len s
  | .stackRead pkt => Sys2Proof.Machine.execStackRead pkt s
  | .stackWrite pkt => Sys2Proof.Machine.execStackWrite pkt s
  | .stackAtomic pkt => Sys2Proof.Machine.execStackAtomic pkt s
  | .stackZeroLine pkt => Sys2Proof.Machine.execStackZeroLine pkt s
  | .refreshManagement stack pch bank => Sys2Proof.Machine.execRefreshManagement stack pch bank s
  | .bankBlockEnd stack pch bank => Sys2Proof.Machine.execBankBlockEnd stack pch bank s
  | .refreshWindowEnd stack => Sys2Proof.Machine.execRefreshWindowEnd stack s
  | .patrolRead stack line => Sys2Proof.Machine.execPatrolRead stack line s
  | .hostAccess part hart acc => Sys2Proof.Machine.execHostAccess part hart acc s
  | .childQueueTake slice => Sys2Proof.Machine.execChildQueueTake slice s
  | .peerUnreachable slice assoc => Sys2Proof.Machine.execPeerUnreachable slice assoc s
  | .keyHandleIssue part cls destroy => Sys2Proof.Machine.execKeyHandleIssue part cls destroy s
  | .rotReset => Sys2Proof.Machine.execRotReset s
  | .gridEndByKernel grid => Sys2Proof.Machine.execGridEndByKernel grid s

end Sys2Proof.Machine
end

