-- ==== Sys2Proof/Machine/Policy.lean ====
section
/-!
DEFINITION. What surrounds the steps: the time that passes at a step, what moves next when the agenda is empty, how a choice
runs, and how one instruction is laid where a step fetches it. `run` stands for `exec`.
-/

namespace Sys2Proof.Machine

/-- Time passes: a step takes at least one cycle on every slice (R157, log 3). -/
def State.tickOn (s : State) : State :=
  { s with tick := s.tick + 1
           slices := if s.powered then s.slices.map fun p => (p.1, { p.2 with clk := p.2.clk + BitVec.ofNat 64 (1 + Config.clkGap s.tick) })
             else s.slices }

/-- A warp whose age count has reached its limit; its effective priority rises before anything else moves (R321). -/
def State.aged (s : State) : Option Nat := s.findUnit fun w => w.live && decide (ageLimit ≤ w.sched.age)

/-- Whether a step is the return of power, the only one that can happen while there is none (R311). -/
def Choice.isPowerOn : Choice → Bool
  | .ev i => match i with
    | .powerOn => true
    | _ => false
  | .issue _ _ _ | .reck _ _ | .replay _ _ => false

/-- Runs one choice of the agenda. -/
def runChoice (run : Instr → State → Out State) (c : Choice) (s : State) : Out State :=
  if !s.powered && !c.isPowerOn then .fault .notPossible
  else match c with
  | .ev i => run i s
  | .issue sl core slot => issueSlot run sl core slot s
  | .reck sl cl => issueReck run sl cl s
  | .replay u l => issueReplay run u l s

/-! ### The empty agenda (log 4) -/

/-- The steps that could complete or release something, with every wait last. -/
def State.ripe (s : State) : List Choice :=
  let us := Tab.keys s.units
  let lanes := fun (u : Nat) (f : Thread → Bool) => (lanesOf ((s.unit u).lanesWhere allLanes f))
  (us.flatMap fun u => (lanes u fun t => match t.flights with
    | [] => false
    | f :: _ => f.fault.isSome).map fun l => .ev (.trapEntry u l)) ++
  (us.flatMap fun u => (((lanesOf allLanes).flatMap fun l => ((s.unit u).lane l).flights.map (·.seq)).eraseDups.flatMap fun q =>
    let m := (s.unit u).flying q
    [.ev (.loadDataReturn u q m), .ev (.storePerformed u q m)])) ++
  (us.flatMap fun u => (lanes u fun t => !(t.replay.isEmpty)).map fun l => .replay u l) ++
  ((Tab.keys s.cores).flatMap fun k => if (s.core k).mq.isEmpty then []
    else [.ev (.matrixComplete (k / 64) (k % 64)), .ev (.matrixExecuteStart (k / 64) (k % 64))]) ++
  (s.cmds.flatMap fun c => match c.st with
    | .queued => [.ev (.engineCommandStart c.id)]
    | .running => [.ev (.engineCommandComplete c.id), .ev (.engineCommandFault c.id)]
    | .failing _ => [.ev (.engineCommandFault c.id)]
    | .held _ _ | .addHeld _ => []) ++
  (us.flatMap fun u => if (s.unit u).ovw.isSome then [.ev (.overlayCopyDone u), .ev (.overlaySlotCopy u)] else []) ++
  (us.flatMap fun u => if (s.unit u).u.uint.isSome then [.ev (.uintDelivery u)] else []) ++
  ((Tab.keys s.teams).flatMap fun t => if (s.team t).grows.isEmpty then [] else [.ev (.regqGrant t), .ev (.regqRefuse t)]) ++
  (us.flatMap fun u => (lanes u fun t => !(t.wait == .none)).flatMap fun l =>
    [.ev (.waitSatisfied u l), .ev (.waittoTimeout u l), .ev (.sleepWake u l)])

/-- The steps of the slot controllers and of the stacks that could end something: a command that SCCMD holds, refresh management that
is due, and the end of a bank's block. -/
def State.ripeOwn (s : State) : List (State → Out State) :=
  ((Tab.keys s.parts).flatMap fun pn => if !((s.part pn).scBusy) then [] else
    [1, 2, 3].map fun op => scStep op (s.part pn).corner (s.part pn).sccmd) ++
  ((Tab.keys s.stackTab).flatMap fun k =>
    ((s.stack k).due.map fun d => execRefreshManagement k (d.1 / 8192 / 64) (d.1 / 8192 % 64)) ++
    ((s.stack k).blocked.map fun b => execBankBlockEnd k (b.1 / 64) (b.1 % 64)))

/-- The slots and Reckoners that have a group to issue. -/
def State.issuers (s : State) : List Choice :=
  ((Tab.keys s.units).filter fun u => !(s.groupOf u == 0#32)).map fun u =>
    let w := s.unit u
    if w.reck then .reck w.slice (w.core / 4) else .issue w.slice w.core (w.k % 4)

/-- What moves next when nobody says so: the first ripe step that can be taken, else the issuers by turns, else nothing. -/
def defaultRun (run : Instr → State → Out State) (s : State) : Out State :=
  let goes := fun (f : State → Out State) => match f s with
    | .next s' => some (Host.Outcome.next s')
    | .fault _ | .refused _ => none
  let taken := if s.powered then (s.ripe.map (runChoice run) ++ s.ripeOwn).findSome? goes else none
  match taken with
  | some o => o
  | none =>
    let is := s.issuers
    match is[s.tick % Nat.max 1 is.length]? with
    | some c => runChoice run c s
    | none => .next s

/-- One step of the device. -/
def stepWith (run : Instr → State → Out State) (s : State) : Out State :=
  let s := s.tickOn
  match s.aged with
  | some u => execWarpAging u s
  | none => match s.lapsed with
    | some (u, l) => execWaittoTimeout u l s
    | none =>
      match s.agenda with
      | c :: r => runChoice run c { s with agenda := r }
      | [] => defaultRun run s

/-! ### One instruction laid where a step fetches it (log 28) -/

/-- Whether a word is one that only a Reckoner executes (R56). -/
def reckOnlyWord (w : Word) : Bool := w.getLsbD 31 && opWhere (w.toNat / 2 ^ 24 % 128) == .reckOnly

/-- Lays words at offset 0 of slot 0, with one thread there, on core 0 of slice 0, or on the Reckoner of its cluster 0, whose
turn is next. -/
def State.layWords (s : State) (ws : List Word) : State :=
  let rk := reckOnlyWord (ws.headD 0#32)
  let o : Ovl := { tag := some 0, code := ws }
  let s := if rk then s.setRovl 0 o else s.setOvl 0 0 o
  let s := s.modTeam 0 fun t => { t with st := .placed, slice := 0, core := 0, warps := [0] }
  let s := s.modUnit 0 fun w =>
    { (w.mapLanes 1#32 fun _ t =>
        { t with status := .live, pc := 0#32, slot := 0, wait := .none, stale := false, replay := [], pend := none }) with
      live := true, reck := rk, team := 0, slice := 0, core := 0, k := 0, cw := 0, quota := 120, halted := false, frozen := none,
      sysc := none, ovw := none, wd := .no, sched := { base := 0, eff := 0, age := 0, hold := 0, yielded := false, trapped := false } }
  { s with agenda := [if rk then .reck 0 0 else .issue 0 0 0], cur := Cur.init }

/-- The words of an instruction given as a number, the first word lowest. -/
def tableWords (nbits w : Nat) : List Word := wordsOfBytes (bytesOfNat 12 (w % 2 ^ nbits))

end Sys2Proof.Machine
end

