-- ==== Sys2Proof/Machine/Step.lean ====
section
/-!
DEFINITION. `step`, and `State.withFetchWord`, which lays one instruction where the next step fetches it.
-/

namespace Sys2Proof.Machine

/-- One step of the device: time passes, then the head of the agenda runs, or what `defaultRun` picks. -/
def step (s : State) : Host.Outcome State Fault Refusal := stepWith exec s

/-- The state with one instruction, given by its bits, where the next step fetches. -/
def State.withFetchWord (s : State) (nbits w : Nat) : State := s.layWords (tableWords nbits w)

end Sys2Proof.Machine
end

