-- ==== Sys2Proof/Safety.lean ====
section
/-!
DEFINITION. The terms in which claims are stated: what a safe run is, when a word is ready to issue (R23, R31, R33, R46, R56,
R60, R204, R288), the unit as it stands past the word, and what a word that acts in its lanes leaves.
-/

namespace Sys2Proof.Machine

/-! ### Runs -/

/-- A safe step: the machine goes on. -/
def State.goesOn (s : State) : Prop := ∃ t, step s = .next t

/-- The invariant of memory: it keeps its canonical form, so that equal memories are equal lists. -/
def Memory.wf (s : State) : Bool := Tab.wf 0#8 s.mem

/-! ### The word being issued -/

/-- The unit whose group issues. -/
def State.issuer (s : State) : Warp := s.unit s.cur.u

/-- The issuer once its group has formed: event (a) of R29 has happened. -/
def State.joined (s : State) : Warp := s.issuer.joinGroup s.cur.members

/-- The issuer with every member past the word. -/
def State.past (s : State) : Warp := s.joined.mapLanes s.cur.members fun _ t => { t with pc := s.cur.next }

/-- The state that a word acts on: it has issued, and its members are past it. -/
def State.stands (s : State) : State := s.issued.setUnit s.cur.u s.past

/-- A word issues from its place, not from a replay queue. -/
def State.fresh (s : State) : Bool := s.cur.active && s.cur.replay.isNone

/-- Whether an L-set word acts in a lane (R46). -/
def State.acts (s : State) (g : BitVec 3) (l : Nat) : Bool := s.cur.members.getLsbD l && lguard (s.joined.lane l) g

/-- The lanes in which an L-set word acts. -/
def State.actMask (s : State) (g : BitVec 3) : Word := s.joined.lanesWhere s.cur.members fun t => lguard t g

/-- When an L-set word issues and acts in its lanes: on a SIMT warp (R56), legal, its registers below the quota and the held area
(R33, R204), and in every lane in which it acts fewer than 8 words in flight (R288), no operand outstanding (R30, R82) and no latch
lost (R31). -/
def laneReady (g : BitVec 3) (wf : Bool) (regs latches : List Nat) (s : State) : Bool :=
  s.fresh && !s.issuer.reck && wf && !(regsAbove regs s.joined.quota) && !(s.joined.namesHeld regs) &&
  (lanesOf s.cur.members).all fun l => !(s.acts g l) ||
    (!((s.joined.lane l).stalls regs latches) && ((s.joined.lane l).lostLatch latches).isNone)

/-- The flags that the lanes of a word raise, ORed (R82). -/
def laneFlags (g : BitVec 3) (s : State) (f : LaneFn) : Word :=
  (lanesOf (s.actMask g)).foldl (fun fl l => fl ||| (f s.issued.cur s.past l (s.past.lane l)).2) 0#32

/-- What a word of the arithmetic chapter leaves (R82): in each lane in which it acts what `f` gives, computed from the state at
issue; in the others nothing but the pc of the members; the flags in FSR; and nothing else in the whole state. -/
def LaneEffect (g : BitVec 3) (s t : State) (f : LaneFn) : Prop :=
  (∃ w, t = s.issued.setUnit s.cur.u w ∧ w = { s.issuer with th := w.th, u := s.issuer.u.raise (laneFlags g s f) } ∧
    ∀ l, w.lane l = if s.acts g l then (f s.issued.cur s.past l (s.past.lane l)).1 else s.past.lane l)

/-- An instruction completes with such an effect. -/
def LaneDone (i : Instr) (g : BitVec 3) (s : State) (f : LaneFn) : Prop := ∃ t, exec i s = .next t ∧ LaneEffect g s t f

/-- The effect of a word with one 32-bit result: `f` gives it from the lane's operands; the destination is written and the latches
shift (R28, R82). -/
def resultOf (d : Dest) (f : Warp → Nat → Thread → Word) : LaneFn := fun _ w l t => (t.result d (f w l t), 0#32)

/-- The value of a source in a lane (R44). -/
def src (a : Src) (w : Warp) (l : Nat) (t : Thread) : Word := operand t (w.tid l) a

/-- A word with one source: when it is ready, and its effect. -/
def oneReady (g : BitVec 3) (d : Dest) (a : Src) (s : State) : Bool :=
  laneReady g true (destRegs d ++ srcRegs a) (srcLatches a) s

/-- The result of a word with one source. -/
def oneOf (d : Dest) (a : Src) (f : Word → Word) : LaneFn := resultOf d fun w l t => f (src a w l t)

/-- A word with two sources, of which one at most is a literal (R48): when it is ready, and its effect. -/
def twoReady (g : BitVec 3) (d : Dest) (a b : Src) (s : State) : Bool :=
  laneReady g (oneLit a b) (destRegs d ++ srcRegs a ++ srcRegs b) (srcLatches a ++ srcLatches b) s

/-- The result of a word with two sources. -/
def twoOf (d : Dest) (a b : Src) (f : Word → Word → Word) : LaneFn := resultOf d fun w l t => f (src a w l t) (src b w l t)

/-- A word that reads v[d] as well (R82): when it is ready, and its effect. -/
def accReady (g : BitVec 3) (d : Fin 120) (a b : Src) (s : State) : Bool :=
  laneReady g (oneLit a b) ([d.val] ++ srcRegs a ++ srcRegs b) (srcLatches a ++ srcLatches b) s

/-- The result of a word that reads v[d] as well. -/
def accOf (d : Fin 120) (a b : Src) (f : Word → Word → Word → Word) : LaneFn :=
  resultOf (.reg d) fun w l t => f (src a w l t) (src b w l t) (t.getV d.val)

/-- A compare writes a predicate and leaves the latches (R95): when it is ready, and its effect. -/
def cmpReady (g : BitVec 3) (a b : Src) (s : State) : Bool :=
  laneReady g (oneLit a b) (srcRegs a ++ srcRegs b) (srcLatches a ++ srcLatches b) s

/-- The effect of an integer compare. -/
def cmpOf (p : Fin 7) (a b : Src) (f : Word → Word → Bool) : LaneFn :=
  fun _ w l t => (t.setP p.val (f (src a w l t) (src b w l t)), 0#32)

/-- A float result of a lane: the destination as for any result, and the flags it raises (R82, R98). -/
def floatOf (d : Dest) (f : Warp → Nat → Thread → Word × Word) : LaneFn := fun _ w l t => (t.result d (f w l t).1, (f w l t).2)

/-- The rounding mode and FZ of a warp (R62). -/
def rmOf (w : Warp) : RM := fcrRm w.u.fcr
/-- FZ of a warp (R62). -/
def fzOf (w : Warp) : Bool := fcrFz w.u.fcr

/-- A float result of two sources. -/
def float2 (d : Dest) (a b : Src) (f : RM → Bool → Word → Word → Word × Word) : LaneFn :=
  floatOf d fun w l t => f (rmOf w) (fzOf w) (src a w l t) (src b w l t)

/-- A float result of one source. -/
def float1 (d : Dest) (a : Src) (f : RM → Bool → Word → Word × Word) : LaneFn :=
  floatOf d fun w l t => f (rmOf w) (fzOf w) (src a w l t)

/-- A float result of two sources and v[d]. -/
def float3 (d : Fin 120) (a b : Src) (f : RM → Bool → Word → Word → Word → Word × Word) : LaneFn :=
  floatOf (.reg d) fun w l t => f (rmOf w) (fzOf w) (src a w l t) (src b w l t) (t.getV d.val)

/-- A packed operation: each half by itself (R104). -/
def halves2 (f : Nat → Nat → FRes) (x y : Word) : Word × Word := bothHalves (fun p q _ => f p q) x y 0#32

/-! ### Memory words -/

/-- What a lane's memory word captures at issue (R288, R290). -/
def flightAt (word : Word) (a : Src) (bp : Fin 8) (data : Warp → Nat → List Word) (s : State) (l : Nat) : Flight :=
  flightOf s.cur s.past l s.past.seq word a bp.val (data s.past l)

/-- When a global word issues in all its lanes: no lane is in a region, no page it writes is being copied (R219), and none violates
the firewall (R304). -/
def globalReady (word : Word) (g : BitVec 3) (a : Src) (bp : Fin 8) (data : Warp → Nat → List Word) (s : State) : Bool :=
  s.actMask g != 0#32 &&
  ((lanesOf (s.actMask g)).all fun l => !((s.past.lane l).inRegion) &&
    !(s.stands.mustWait s.past (flightAt word a bp data s l) false false)) &&
  (s.stands.violators s.past ((lanesOf (s.actMask g)).map fun l => (l, flightAt word a bp data s l))).isEmpty

/-- A global word issues (R252 to R254, R258, R259): each lane in which it acts has one more word in flight, with what it captured,
and the latch effect of what the word yields (R28, R30); memory is not touched yet, and nothing else changes. -/
def GlobalIssued (i : Instr) (g : BitVec 3) (regs lat : List Nat) (a : Src) (bp : Fin 8) (data : Warp → Nat → List Word) (y : Yields)
    (s : State) : Prop :=
  laneReady g true (regs ++ srcRegs a) (lat ++ srcLatches a) s = true →
  globalReady ((encode i).headD 0#32) g a bp data s = true →
  ∃ w, exec i s = .next (s.issued.setUnit s.cur.u w) ∧ w = { s.past with th := w.th, seq := s.past.seq + 1 } ∧
    ∀ l, w.lane l = if s.acts g l then (s.past.lane l).launch s.cur (flightAt ((encode i).headD 0#32) a bp data s l) y
      else s.past.lane l

/-- The registers d to d + n − 1 of a lane, as data. -/
def regsData (d n : Nat) : Warp → Nat → List Word := fun w l => (List.range n).map fun i => (w.lane l).getV (d + i)

/-- A data field of a lane. -/
def fieldData (d : Data) : Warp → Nat → List Word := fun w l => [dataOperand (w.lane l) d]

/-- A lane's local address (R255). -/
def localAddr (a : Src) (imm : BitVec 7) (s : State) (l : Nat) : Word := src a s.past l (s.past.lane l) + BitVec.ofNat 32 (4 * imm.toNat)

/-- When a local word is performed in all its lanes (R128, R132, R234, R254 to R256): no older acquire or release in flight, outside regions,
apart from the frame aperture, aligned, inside the window, no tile in the way, and no race. -/
def localReady (n : Nat) (st : Bool) (g : BitVec 3) (a : Src) (imm : BitVec 7) (s : State) : Bool :=
  s.actMask g != 0#32 && !s.past.ordering &&
  (lanesOf (s.actMask g)).all fun l =>
    let t := s.past.lane l
    let la := (localAddr a imm s l).toNat
    !t.inRegion && !(t.trapMode && inAperture (localAddr a imm s l)) && la % n == 0 &&
    decide (la + n ≤ (s.team s.issuer.team).win) && (s.tileHolder s.issuer.team la n st).isNone &&
    (raceOf s (.unit s.cur.u) (s.order.clock (.unit s.cur.u)) (.loc s.issuer.team) la n st none).isNone

/-! ### G-set words (R143) -/

/-- When a G-set word acts: it is fresh and its q-guard holds (R46). -/
def uniReady (q : BitVec 3) (s : State) : Bool := s.fresh && qguard s.issuer.u q

/-- No member is in a region (R240). -/
def State.noRegion (s : State) : Bool := (lanesOf s.cur.members).all fun l => !((s.joined.lane l).inRegion)

/-- Every older L-set word of the members has finished (R288). -/
def State.quiet (s : State) : Bool := !(s.joined.busy s.cur.members)

/-- Every older L-set word of the whole warp has finished. -/
def State.calm (s : State) : Bool := !(s.joined.busy allLanes)

/-- What a word on the uniform state leaves: the members past it, the uniform state as `f` gives it, and nothing else. -/
def UniDone (i : Instr) (s : State) (f : Uni → Uni) : Prop :=
  exec i s = .next (s.issued.setUnit s.cur.u { s.past with u := f s.issuer.u })

/-- What a word on the group leaves: the uniform state as `fu` gives it, each member, past the word, as `f` gives it, and nothing
else. -/
def GroupDone (i : Instr) (s : State) (fu : Uni → Uni) (f : Nat → Thread → Thread) : Prop :=
  ∃ w, exec i s = .next (s.issued.setUnit s.cur.u w) ∧ w = { s.issuer with th := w.th, u := fu s.issuer.u } ∧
    ∀ l, w.lane l = if s.cur.members.getLsbD l then f l (s.past.lane l) else s.issuer.lane l

/-- What a yielding word leaves (R24, R29, R321): as `GroupDone`, and the members' latches go, the hold count clears, and effective
priority returns to the base. -/
def YieldDone (i : Instr) (s : State) (fu : Uni → Uni) (f : Nat → Thread → Thread) : Prop :=
  ∃ w, exec i s = .next (s.issued.setUnit s.cur.u w) ∧
    w = { s.issuer with
          th := w.th, u := fu s.issuer.u
          sched := { s.issuer.sched with yielded := true, eff := s.issuer.sched.base, hold := 0 } } ∧
    ∀ l, w.lane l = if s.cur.members.getLsbD l then (f l (s.past.lane l)).dropLatches else s.issuer.lane l

/-- The members and the uniform state as a word on memory leaves them: every member past it, and `fu` done to the uniform state. -/
def Went (s t : State) (fu : Uni → Uni) : Prop :=
  (t.unit s.cur.u).u = fu s.issuer.u ∧ ∀ l, (t.unit s.cur.u).lane l = s.past.lane l

/-- A user interrupt is about to be taken at a yield (R170). -/
def State.uintNow (s : State) : Bool := !s.issuer.reck && s.past.uintReady

/-- The issuing threads stand in an overlay that holds an offset (R41). -/
def State.inOverlay (s : State) (off : Word) : Bool := !((s.ovl s.issuer s.cur.slot).outside off)

/-- The line of an access holds neither poison nor an error beyond correction (R282, R349). -/
def lineSound (r : State) (key : Nat) : Bool :=
  !(r.poisoned (key / 128)) && [0, 1].all fun h => decide (Tab.get 0 r.ecc (2 * (key / 128) + h) < 2)

/-- The bytes of the page-table entry that a translation came from, in which A and D are set (R212). -/
def Xlat.entryByte (x : Xlat) (k : Nat) : Bool := match x.ent with
  | some e => decide (e ≤ k) && decide (k < e + 8)
  | none => false

/-! ### Accesses in flight (R217, R225, R288) -/

/-- A flight of a lane that may be performed now, apart from the other lanes of its word. -/
def performable (s : State) (u seq l : Nat) (f : Flight) : Bool :=
  let w := s.unit u
  decide (l < 32) && (w.lane l).flight seq == some f && f.seq == seq && (w.flying seq).getLsbD l && s.closedLanes w seq (laneBit l) &&
    s.inOrder w f

/-- A flight whose access passes the checks of R217: the state after them, the translation and the place. -/
def Reaches (s : State) (u : Nat) (f : Flight) (r : State) (x : Xlat) (c : Loc) : Prop :=
  s.permit (s.unit u).part (s.asid (s.unit u)) (s.unit u).slice f.va f.kind.size f.kind.writes = (r, .ok x) ∧
    (r.part (s.unit u).part).locate x.pa = some c ∧ r.lineReady c.key (x.pol == 2) = true ∧ (f.kind.writes = true → x.sn = false)

/-- The access of a flight, as it is performed. -/
def flightAcc (s r : State) (u : Nat) (f : Flight) (x : Xlat) (c : Loc) : Acc1 :=
  x.acc (.unit u) (r.order.clock (.unit u)) (s.unit u).part c f.kind.size { since := f.since, asks := none, joined := false }

/-- One lane of a unit changes, and no other lane or unit does. -/
def OneLane (s t : State) (u l : Nat) (f : Thread → Thread) : Prop :=
  (t.unit u).lane l = f ((s.unit u).lane l) ∧ (∀ k, k ≠ l → (t.unit u).lane k = (s.unit u).lane k) ∧
    ∀ k, k ≠ u → t.unit k = s.unit k

end Sys2Proof.Machine
end

