-- ==== Sys2Proof/Certificates/Slice0/Obligations.lean ====
section
/-!
DEFINITION. The statements for the provers. Each docstring names the rules of spec/ that the statement formalises.
-/

open Sys2Proof Sys2Proof.Machine

/-! ### Lane words (R28 to R33, R44 to R48, R82 to R113) -/

/-- R87 to R92: each two-source integer word, when it is ready, completes; in every lane in which it acts the destination is written and
the latches shift, with the value its rule gives, and nothing else changes but the pc of the members. R84 to R88, R91, R93, R94: NOP
changes nothing; the moves, the one-source words, the words that read v[d] and SEL complete with the value their rules give. -/
def Obligations.IntegerAndBitWordsComplete : Prop :=
  (∀ (g : BitVec 3) (d : Dest) (a b : Src) (s : State), twoReady g d a b s = true →
    LaneDone (.iadd g d a b) g s (twoOf d a b fun x y => BitVec.ofNat 32 (x.toNat + y.toNat)) ∧
    LaneDone (.isub g d a b) g s (twoOf d a b fun x y => BitVec.ofInt 32 (x.toInt - y.toInt)) ∧
    LaneDone (.imul g d a b) g s (twoOf d a b fun x y => BitVec.ofNat 32 (x.toNat * y.toNat)) ∧
    LaneDone (.imulh g d a b) g s (twoOf d a b fun x y => BitVec.ofInt 32 (x.toInt * y.toInt / 2 ^ 32)) ∧
    LaneDone (.imulhu g d a b) g s (twoOf d a b fun x y => BitVec.ofNat 32 (x.toNat * y.toNat / 2 ^ 32)) ∧
    LaneDone (.imin g d a b) g s (twoOf d a b fun x y => if x.toInt ≤ y.toInt then x else y) ∧
    LaneDone (.imax g d a b) g s (twoOf d a b fun x y => if x.toInt ≤ y.toInt then y else x) ∧
    LaneDone (.umin g d a b) g s (twoOf d a b fun x y => if x.toNat ≤ y.toNat then x else y) ∧
    LaneDone (.umax g d a b) g s (twoOf d a b fun x y => if x.toNat ≤ y.toNat then y else x) ∧
    LaneDone (.andOp g d a b) g s (twoOf d a b fun x y => x &&& y) ∧
    LaneDone (.orOp g d a b) g s (twoOf d a b fun x y => x ||| y) ∧
    LaneDone (.xorOp g d a b) g s (twoOf d a b fun x y => x ^^^ y) ∧
    LaneDone (.andn g d a b) g s (twoOf d a b fun x y => x &&& ~~~y) ∧
    LaneDone (.shl g d a b) g s (twoOf d a b fun x y => BitVec.ofNat 32 (x.toNat * 2 ^ y.toNat)) ∧
    LaneDone (.shr g d a b) g s (twoOf d a b fun x y => BitVec.ofNat 32 (x.toNat / 2 ^ y.toNat)) ∧
    LaneDone (.sar g d a b) g s (twoOf d a b fun x y => BitVec.ofInt 32 (x.toInt / 2 ^ y.toNat)) ∧
    LaneDone (.bfe g d a b) g s (twoOf d a b bfe32) ∧
    LaneDone (.bfes g d a b) g s (twoOf d a b bfes32)) ∧
  (∀ (g : BitVec 3) (d : Dest) (d' : Fin 120) (a b : Src) (n : Fin 64) (s : State),
    (laneReady g true [] [] s = true → LaneDone (.nop g) g s fun _ _ _ t => (t, 0#32)) ∧
    (laneReady g true (destRegs d) [] s = true → LaneDone (.vbc g d n) g s (resultOf d fun w _ _ => w.u.getS n.val)) ∧
    (oneReady g d a s = true →
      LaneDone (.mov g d a) g s (oneOf d a fun x => x) ∧
      LaneDone (.iabs g d a) g s (oneOf d a fun x => BitVec.ofNat 32 x.toInt.natAbs) ∧
      LaneDone (.clz g d a) g s (oneOf d a clz32) ∧
      LaneDone (.popc g d a) g s (oneOf d a popc32) ∧
      LaneDone (.brev g d a) g s (oneOf d a fun x => maskOf fun i => x.getLsbD (31 - i))) ∧
    (accReady g d' a b s = true →
      LaneDone (.imac g d' a b) g s (accOf d' a b fun x y z => BitVec.ofNat 32 (x.toNat * y.toNat + z.toNat)) ∧
      LaneDone (.bfi g d' a b) g s (accOf d' a b fun x y z => bfi32 z x y)) ∧
    (twoReady g d a b s = true →
      LaneDone (.sel g d a b) g s (resultOf d fun w l t => if t.getP 0 then src a w l t else src b w l t)))

/-- R95 to R97: the compares and the predicate logic, when ready, complete: the predicate named is written, and neither a register nor a
latch; PTOV writes a register and shifts the latches. Both predicates are read before the write. -/
def Obligations.ComparesAndPredicatesComplete : Prop :=
  ∀ (g : BitVec 3) (p : Fin 7) (a b : Src) (x y : Fin 8) (d : Dest) (s : State),
    (cmpReady g a b s = true →
      LaneDone (.icmpeq g p a b) g s (cmpOf p a b fun x y => x == y) ∧
      LaneDone (.icmpne g p a b) g s (cmpOf p a b fun x y => x != y) ∧
      LaneDone (.icmplt g p a b) g s (cmpOf p a b fun x y => decide (x.toInt < y.toInt)) ∧
      LaneDone (.icmple g p a b) g s (cmpOf p a b fun x y => decide (x.toInt ≤ y.toInt)) ∧
      LaneDone (.ucmplt g p a b) g s (cmpOf p a b fun x y => decide (x.toNat < y.toNat)) ∧
      LaneDone (.ucmple g p a b) g s (cmpOf p a b fun x y => decide (x.toNat ≤ y.toNat))) ∧
    (laneReady g true (predRegs x.val ++ predRegs y.val) [] s = true →
      LaneDone (.pand g p x y) g s (fun _ _ _ t => (t.setP p.val (t.getP x.val && t.getP y.val), 0#32)) ∧
      LaneDone (.por g p x y) g s (fun _ _ _ t => (t.setP p.val (t.getP x.val || t.getP y.val), 0#32)) ∧
      LaneDone (.pxor g p x y) g s (fun _ _ _ t => (t.setP p.val (t.getP x.val ^^ t.getP y.val), 0#32))) ∧
    (laneReady g true (predRegs x.val) [] s = true →
      LaneDone (.pnot g p x) g s (fun _ _ _ t => (t.setP p.val (!(t.getP x.val)), 0#32))) ∧
    (laneReady g true (destRegs d ++ predRegs x.val) [] s = true →
      LaneDone (.ptov g d x) g s (resultOf d fun _ _ t => if t.getP x.val then 1#32 else 0#32)) ∧
    (laneReady g true (srcRegs a) (srcLatches a) s = true →
      LaneDone (.vtop g p a) g s (fun _ w l t => (t.setP p.val (src a w l t != 0#32), 0#32)))

/-- R98 to R102: FP32 arithmetic, when ready, completes under FCR.RM and FCR.FZ as they stand at issue, the flags of the acting lanes
going to FSR (R82); FMAL adds L0, and the compares leave the latches. Where R79 gives a bound alone the value is a free one (logs 9, 10).
R79, R103, R104: the function instructions and the packed 16-bit words, when ready, complete; a packed word computes its two halves
separately and ORs their flags. -/
def Obligations.FloatWordsComplete : Prop :=
  (∀ (g : BitVec 3) (d : Dest) (d' : Fin 120) (p : Fin 7) (a b : Src) (s : State),
    (twoReady g d a b s = true →
      LaneDone (.fadd g d a b) g s (float2 d a b fun rm fz x y => (f32.fadd rm fz x.toNat y.toNat).word) ∧
      LaneDone (.fsub g d a b) g s (float2 d a b fun rm fz x y => (f32.fsub rm fz x.toNat y.toNat).word) ∧
      LaneDone (.fmul g d a b) g s (float2 d a b fun rm fz x y => (f32.fmul rm fz x.toNat y.toNat).word) ∧
      LaneDone (.fmin g d a b) g s (float2 d a b fun _ fz x y => (f32.fminmax false fz x.toNat y.toNat).word) ∧
      LaneDone (.fmax g d a b) g s (float2 d a b fun _ fz x y => (f32.fminmax true fz x.toNat y.toNat).word) ∧
      LaneDone (.fscale g d a b) g s (float2 d a b fun rm fz x y => (f32.fscale rm fz x.toNat y.toInt).word)) ∧
    (accReady g d' a b s = true →
      LaneDone (.fmac g d' a b) g s (float3 d' a b fun rm fz x y z => (f32.ffma rm fz x.toNat y.toNat z.toNat).word)) ∧
    (laneReady g (oneLit a b) (destRegs d ++ srcRegs a ++ srcRegs b) ([implicitL0] ++ srcLatches a ++ srcLatches b) s = true →
      LaneDone (.fmal g d a b) g s (floatOf d fun w l t =>
        (f32.ffma (rmOf w) (fzOf w) (src a w l t).toNat (src b w l t).toNat (t.l0.getD 0#32).toNat).word)) ∧
    (cmpReady g a b s = true →
      ∀ x ∈ [(Instr.fcmpeq g p a b, FRel.eq), (Instr.fcmplt g p a b, FRel.lt), (Instr.fcmple g p a b, FRel.le),
             (Instr.fcmpun g p a b, FRel.un)],
        LaneDone x.1 g s fun _ w l t =>
          let r := f32.fcmp x.2 (fzOf w) (src a w l t).toNat (src b w l t).toNat
          (t.setP p.val r.1, r.2))) ∧
  (∀ (g : BitVec 3) (d : Dest) (d' : Fin 120) (a b : Src) (s : State),
    (oneReady g d a s = true →
      LaneDone (.frcp g d a) g s (float1 d a fun _ fz x => (Machine.frcp fz x).word) ∧
      LaneDone (.frsq g d a) g s (float1 d a fun _ fz x => (Machine.frsq fz x).word) ∧
      LaneDone (.fsqrt g d a) g s (float1 d a fun rm fz x => (Machine.fsqrt rm fz x).word) ∧
      LaneDone (.fexp2 g d a) g s (float1 d a fun _ fz x => (Machine.fexp2 fz x).word) ∧
      LaneDone (.flog2 g d a) g s (float1 d a fun _ fz x => (Machine.flog2 fz x).word) ∧
      LaneDone (.fsinpi g d a) g s (float1 d a fun _ fz x => (fsincos false fz x).word) ∧
      LaneDone (.fcospi g d a) g s (float1 d a fun _ fz x => (fsincos true fz x).word) ∧
      LaneDone (.ftanh g d a) g s (float1 d a fun _ fz x => (Machine.ftanh fz x).word)) ∧
    (twoReady g d a b s = true →
      LaneDone (.badd2 g d a b) g s (float2 d a b fun rm fz => halves2 (bf16.fadd rm fz)) ∧
      LaneDone (.bmul2 g d a b) g s (float2 d a b fun rm fz => halves2 (bf16.fmul rm fz)) ∧
      LaneDone (.bmax2 g d a b) g s (float2 d a b fun _ fz => halves2 (bf16.fminmax true fz)) ∧
      LaneDone (.hadd2 g d a b) g s (float2 d a b fun rm fz => halves2 (f16.fadd rm fz)) ∧
      LaneDone (.hmul2 g d a b) g s (float2 d a b fun rm fz => halves2 (f16.fmul rm fz)) ∧
      LaneDone (.hmax2 g d a b) g s (float2 d a b fun _ fz => halves2 (f16.fminmax true fz))) ∧
    (accReady g d' a b s = true →
      LaneDone (.bmac2 g d' a b) g s (float3 d' a b fun rm fz => bothHalves (bf16.ffma rm fz)) ∧
      LaneDone (.hmac2 g d' a b) g s (float3 d' a b fun rm fz => bothHalves (f16.ffma rm fz))))

/-- R105 to R114: the conversions, when ready, complete; CVTN and CVTW take the slot of their number from the launch record and, where it
is block-scaled, the scale byte from L0. QSCALE gives every acting lane the byte chosen over the warp, in which lanes that do not act
count as +0 (R113). R115 to R119: the lane exchanges, when ready and with no load of any lane outstanding into the register they read,
complete. SHFL takes lane y mod 32 of each lane's own y; LSWAP takes lane l XOR k, k being the lowest acting lane's y mod 32; HSWAP
exchanges halves with that lane; BALLOT gives the acting lanes whose predicate is true. Every value is read before any is written. -/
def Obligations.ConversionsAndExchangesComplete : Prop :=
  (∀ (g : BitVec 3) (d : Dest) (a b : Src) (n : Fin 8) (mode : BitVec 4) (s : State),
    (oneReady g d a s = true →
      LaneDone (.cvtfi g d a) g s (float1 d a Machine.cvtfi) ∧
      LaneDone (.cvtif g d a) g s (float1 d a fun rm _ x => (Machine.cvtif rm x).word) ∧
      LaneDone (.upklo g d a) g s (float1 d a fun _ fz x => widenBf fz (x.toNat % 65536)) ∧
      LaneDone (.upkhi g d a) g s (float1 d a fun _ fz x => widenBf fz (x.toNat / 65536)) ∧
      ∃ b nv, LaneDone (.qscale g d a n mode) g s (fun _ _ _ t => (t.result d (b.setWidth 32), nvIf nv)) ∧
        (s.actMask g ≠ 0#32 → (b, nv) = Machine.qscale (s.fslot s.past n.val) (lcMode mode s.issuer.u.fcr)
          ((List.range 32).map fun l => if s.acts g l then f32.flush (fzOf s.issuer) (f32.decode (src a s.past l (s.past.lane l)).toNat)
            else FVal.zero))) ∧
    (twoReady g d a b s = true →
      LaneDone (.pkbf g d a b) g s (float2 d a b (packTwo bf16)) ∧
      LaneDone (.pkhf g d a b) g s (float2 d a b (packTwo f16)) ∧
      LaneDone (.cvtsr g d a b) g s (float2 d a b fun _ fz x y => Machine.cvtsr fz x y)) ∧
    (laneReady g true (destRegs d ++ srcRegs a) (lcLatches (s.fslot s.issuer n.val) ++ srcLatches a) s = true →
      LaneDone (.cvtn g d a n mode) g s (floatOf d fun w l t =>
        Machine.cvtn (s.fslot s.issuer n.val) ((t.l0.getD 0#32).setWidth 8) mode w.u.fcr (src a w l t)) ∧
      LaneDone (.cvtw g d a n mode) g s (floatOf d fun w l t =>
        Machine.cvtw (s.fslot s.issuer n.val) ((t.l0.getD 0#32).setWidth 8) w.u.fcr (src a w l t)))) ∧
  (∀ (g : BitVec 3) (d : Dest) (a : Fin 120) (b : Src) (x : Fin 8) (s : State),
    (laneReady g true (destRegs d ++ [a.val] ++ srcRegs b) (srcLatches b) s = true →
      ((lanesOf allLanes).any fun l => (s.past.lane l).awaits [a.val] []) = false →
      let k := fun (w : Warp) => (src b w ((lanesOf (s.actMask g)).headD 0) (w.lane ((lanesOf (s.actMask g)).headD 0))).toNat % 32
      LaneDone (.shfl g d a b) g s (resultOf d fun w l t => (w.lane ((src b w l t).toNat % 32)).getV a.val) ∧
      LaneDone (.lswap g d a b) g s (resultOf d fun w l _ => (w.lane (l ^^^ k w)).getV a.val) ∧
      LaneDone (.hswap g d a b) g s (resultOf d fun w l t =>
        hswapWord (t.getV a.val) ((w.lane (l ^^^ k w)).getV a.val) l (l ^^^ k w))) ∧
    (laneReady g true (destRegs d ++ predRegs x.val) [] s = true →
      LaneDone (.ballot g d x) g s (resultOf d fun w _ _ => maskOf fun l => s.acts g l && (w.lane l).getP x.val)))

/-- R252: the global loads issue in every lane in which they act. R253, R258, R259: the global stores, the atomics and the reductions
issue in every lane in which they act, with their data as read at issue. -/
def Obligations.GlobalWordsIssue : Prop :=
  (∀ (g : BitVec 3) (d : Dest) (d2 : Fin 119) (d4 : Fin 117) (a : Src) (bp : Fin 8) (hint : BitVec 2) (acq : Bool) (s : State),
    GlobalIssued (.ldg8 g d a bp hint acq) g (destRegs d) [] a bp (fun _ _ => []) .one s ∧
    GlobalIssued (.ldg16 g d a bp hint acq) g (destRegs d) [] a bp (fun _ _ => []) .one s ∧
    GlobalIssued (.ldg32 g d a bp hint acq) g (destRegs d) [] a bp (fun _ _ => []) .one s ∧
    GlobalIssued (.ldg64 g d2 a bp hint acq) g (regSpan d2.val 2) [] a bp (fun _ _ => []) .many s ∧
    GlobalIssued (.ldg128 g d4 a bp hint acq) g (regSpan d4.val 4) [] a bp (fun _ _ => []) .many s) ∧
  (∀ (g : BitVec 3) (d : Data) (d1 : Fin 120) (d2 : Fin 119) (d4 : Fin 117) (a : Src) (bp : Fin 8) (hint sc od : BitVec 2) (rel : Bool)
    (s : State),
    GlobalIssued (.stg8 g d a bp hint rel) g (dataRegs d) (dataLatches d) a bp (fieldData d) .none s ∧
    GlobalIssued (.stg16 g d a bp hint rel) g (dataRegs d) (dataLatches d) a bp (fieldData d) .none s ∧
    GlobalIssued (.stg32 g d a bp hint rel) g (dataRegs d) (dataLatches d) a bp (fieldData d) .none s ∧
    GlobalIssued (.stg64 g d2 a bp hint rel) g (regSpan d2.val 2) [] a bp (regsData d2.val 2) .none s ∧
    GlobalIssued (.stg128 g d4 a bp hint rel) g (regSpan d4.val 4) [] a bp (regsData d4.val 4) .none s ∧
    (∀ i ∈ [Instr.aadd g d1 a bp sc od, .amin g d1 a bp sc od, .amax g d1 a bp sc od, .aand g d1 a bp sc od, .aor g d1 a bp sc od,
        .axchg g d1 a bp sc od], GlobalIssued i g [d1.val] [] a bp (regsData d1.val 1) .one s) ∧
    GlobalIssued (.aadd64 g d2 a bp sc od) g (regSpan d2.val 2) [] a bp (regsData d2.val 2) .many s ∧
    GlobalIssued (.acas g d2 a bp sc od) g (regSpan d2.val 2) [] a bp (regsData d2.val 2) .one s ∧
    GlobalIssued (.radd g d a bp sc rel) g (dataRegs d) (dataLatches d) a bp (fieldData d) .none s ∧
    GlobalIssued (.raddf g d a bp sc rel) g (dataRegs d) (dataLatches d) a bp (fieldData d) .none s ∧
    GlobalIssued (.rmax g d a bp sc rel) g (dataRegs d) (dataLatches d) a bp (fieldData d) .none s)

/-- R255: the local words are performed at issue. A load delivers the bytes of the window at its address, little-endian, to its
registers, with the latch shift or the loss of the latches that its size gives; a store writes its data there in ascending lane order.
Every byte of main memory, and of every other team's window, is as before. -/
def Obligations.LocalWordsComplete : Prop :=
  ∀ (g : BitVec 3) (d : Dest) (e : Data) (d2 : Fin 119) (d4 : Fin 117) (a : Src) (imm : BitVec 7) (s : State),
    let tm := s.issuer.team
    let loads := fun (i : Instr) (regs : List Nat) (n : Nat) (f : Thread → List Word → Thread) =>
      laneReady g true (regs ++ srcRegs a) ([] ++ srcLatches a) s = true → localReady n false g a imm s = true →
      ∃ t, exec i s = .next t ∧ t.mem = s.mem ∧ t.teams = s.teams ∧
        ∀ l, (t.unit s.cur.u).lane l = if s.acts g l then f (s.past.lane l) (loadWords ((s.team tm).bytes (localAddr a imm s l).toNat n))
          else s.past.lane l
    let stores := fun (i : Instr) (regs lat : List Nat) (n : Nat) (data : Warp → Nat → List Word) =>
      laneReady g true (regs ++ srcRegs a) (lat ++ srcLatches a) s = true → localReady n true g a imm s = true →
      ∃ t, exec i s = .next t ∧ t.mem = s.mem ∧ (∀ x, x ≠ tm → t.team x = s.team x) ∧
        t.team tm = (lanesOf (s.actMask g)).foldl
          (fun x l => x.writeBytes (localAddr a imm s l).toNat (storeBytes n (data s.past l))) (s.team tm) ∧
        ∀ l, (t.unit s.cur.u).lane l = s.past.lane l
    loads (.ldl32 g d a imm) (destRegs d) 4 (fun t ws => t.result d (ws.headD 0#32)) ∧
    loads (.ldl64 g d2 a imm) (regSpan d2.val 2) 8 (fun t ws => (t.setRegs d2.val ws).dropLatches) ∧
    loads (.ldl128 g d4 a imm) (regSpan d4.val 4) 16 (fun t ws => (t.setRegs d4.val ws).dropLatches) ∧
    stores (.stl32 g e a imm) (dataRegs e) (dataLatches e) 4 (fieldData e) ∧
    stores (.stl64 g d2 a imm) (regSpan d2.val 2) [] 8 (regsData d2.val 2) ∧
    stores (.stl128 g d4 a imm) (regSpan d4.val 4) [] 16 (regsData d4.val 4)

/-- R138, R260: DRAIN and ACCW, when ready in the quad bound to the core with no matrix instruction outstanding on the accumulator,
complete. DRAIN writes eight elements of the lane's row to v(d) to v(d+7) and the latches go; ACCW writes the registers to those elements
bit for bit, and every other element keeps its value. R11, R50, R160, R261: BRA, CALL and RET, when ready with a target inside the
overlay, room on the call stack and an entry to pop, move the lanes in which they act and drop their latches; the others go to the next
word. TRAPL raises Software in those lanes with TADDR its operand and TPC the next word (R262); ROLLB aborts those in a TRY region with
CODE 0x01 and XCODE its operand's low byte (R204, R263). A BRA or CALL whose target lies outside the overlay raises Overlay-Tag at the
word in those lanes, with TADDR 0, which is the model's choice (log 110); else a CALL raises Call-Stack in the lanes whose stack is full
and a RET in those whose stack is empty, a RET that would pop below its region's depth aborts with CODE 0x06 (R240), and the other lanes
complete. Lanes that trap have finished their older words (R288). -/
def Obligations.AccumulatorsAndLaneControlComplete : Prop :=
  (∀ (g : BitVec 3) (d : Fin 113) (acc : Bool) (cb : Fin 24) (q : Nat) (s : State),
    laneReady g true (regSpan d.val 8) [] s = true → s.quadPlace s.issuer = some q → (s.core s.issuer.coreKey).idle acc = true →
    (let core := s.core s.issuer.coreKey
     LaneDone (.drain g d acc cb) g s fun _ _ l t =>
       (((List.range 8).foldl (fun t e => t.setV (d.val + e) (Tab.get 0#32 core.acc (accKey acc (32 * q + l) (8 * cb.val + e)))) t).dropLatches,
        0#32)) ∧
    (s.actMask g ≠ 0#32 → ∃ t, exec (.accw g d acc cb) s = .next t ∧ t.mem = s.mem ∧ t.units = s.stands.units ∧
      (∀ k, k ≠ s.issuer.coreKey → t.core k = s.core k) ∧
      ∀ n row col, row < 128 → col < 192 →
        Tab.get 0#32 (t.core s.issuer.coreKey).acc (accKey n row col) =
          if n = acc ∧ row / 32 = q ∧ s.acts g (row % 32) = true ∧ col / 8 = cb.val then (s.past.lane (row % 32)).getV (d.val + col % 8)
          else Tab.get 0#32 (s.core s.issuer.coreKey).acc (accKey n row col))) ∧
  (∀ (g : BitVec 3) (off : BitVec 21) (a : Src) (s : State),
    let tgt := s.cur.next + off.signExtend 32 * 4#32
    let ret : Ret := { off := s.cur.next, slot := s.cur.slot, tag := (s.ovl s.issuer s.cur.slot).tag }
    (laneReady g true [] [] s = true →
      ((s.ovl s.issuer s.cur.slot).outside tgt = false →
        LaneDone (.bra g off) g s (fun _ _ _ t => (({ t with pc := tgt } : Thread).dropLatches, 0#32)) ∧
        ((∀ l, s.acts g l = true → (s.past.lane l).stack.length < 8) →
          LaneDone (.call g off) g s fun _ _ _ t => (({ t with stack := ret :: t.stack, pc := tgt } : Thread).dropLatches, 0#32))) ∧
      ((∀ l, s.acts g l = true → (s.past.lane l).popsBelow = false ∧ (s.past.lane l).stack ≠ []) →
        LaneDone (.ret g) g s fun _ _ _ t => ((t.pop fun k => (s.ovl s.issuer k).tag).dropLatches, 0#32)) ∧
      (s.actMask g ≠ 0#32 →
        let act := s.actMask g
        let raises := fun (x : State) (m : Word) (cause : Nat) => x.raiseLanes s.cur.u m s.cur.pc [] fun _ => trapRec cause 0#64
        let full := s.past.lanesWhere act fun t => decide (8 ≤ t.stack.length)
        let below := s.past.lanesWhere act Thread.popsBelow
        let empty := s.past.lanesWhere (act &&& ~~~below) fun t => t.stack.isEmpty
        ((s.ovl s.issuer s.cur.slot).outside tgt = true → s.past.busy act = false →
          exec (.bra g off) s = .next (raises s.stands act 0x10) ∧ exec (.call g off) s = .next (raises s.stands act 0x10)) ∧
        ((s.ovl s.issuer s.cur.slot).outside tgt = false → s.past.busy full = false → exec (.call g off) s =
          .next (raises (s.stands.modLanes s.cur.u (act &&& ~~~full) fun _ t =>
            ({ t with stack := ret :: t.stack, pc := tgt } : Thread).dropLatches) full 0x0B)) ∧
        (s.past.busy empty = false → exec (.ret g) s =
          .next (raises ((s.stands.abortLanes s.cur.u below 0x06 0).modLanes s.cur.u (act &&& ~~~below &&& ~~~empty) fun _ t =>
            (t.pop fun k => (s.ovl s.issuer k).tag).dropLatches) empty 0x0B)))) ∧
    (laneReady g true (srcRegs a) (srcLatches a) s = true → s.actMask g ≠ 0#32 →
      (s.past.busy (s.actMask g) = false →
        exec (.trapl g a) s = .next (s.stands.raiseLanes s.cur.u (s.actMask g) s.cur.next [] fun l =>
          trapRec 0x0D ((src a s.past l (s.past.lane l)).setWidth 64))) ∧
      exec (.rollb g a) s = .next (s.stands.abortLanesBy s.cur.u (s.past.lanesWhere (s.actMask g) Thread.inTry) 0x01 fun l =>
        (src a s.past l (s.past.lane l)).toNat % 256)))

/-! ### Uniform words (R143 to R175) -/

/-- R145 to R149, R153, R175: the uniform integer words, when their guard holds, complete: s[sd] takes the value the rule gives, the
members go past the word, and nothing else changes. SNOP and HINT change nothing. R150 to R152: the uniform compares and QOP write the q
predicate named and leave everything else; the float words, to which FZ does not apply, write their result and raise their flags in FSR.
-/
def Obligations.UniformWordsComplete : Prop :=
  (∀ (q : BitVec 3) (d a b : Fin 64) (d2 a2 b2 : Fin 32) (imm : BitVec 9) (lit hi : Word) (p bp : Fin 8) (k : BitVec 3) (s : State),
    uniReady q s = true →
    let x := s.issuer.u.getS a.val
    let y := s.issuer.u.getS b.val
    let puts := fun (i : Instr) (r : Word) => UniDone i s fun u => u.setS d.val r
    UniDone (.snop q) s id ∧ UniDone (.hint q k bp b) s id ∧
    puts (.smov q d a) x ∧ puts (.slit q d lit) lit ∧
    UniDone (.slit64 q d2 lit hi) s (fun u => (u.setS (2 * d2.val) lit).setS (2 * d2.val + 1) hi) ∧
    puts (.sadd q d a b) (BitVec.ofNat 32 (x.toNat + y.toNat)) ∧ puts (.ssub q d a b) (BitVec.ofInt 32 (x.toInt - y.toInt)) ∧
    puts (.smul q d a b) (BitVec.ofNat 32 (x.toNat * y.toNat)) ∧
    puts (.smin q d a b) (if x.toInt ≤ y.toInt then x else y) ∧ puts (.smax q d a b) (if x.toInt ≤ y.toInt then y else x) ∧
    puts (.sand q d a b) (x &&& y) ∧ puts (.sor q d a b) (x ||| y) ∧ puts (.sxor q d a b) (x ^^^ y) ∧
    puts (.sshl q d a b) (BitVec.ofNat 32 (x.toNat * 2 ^ y.toNat)) ∧ puts (.sshr q d a b) (BitVec.ofNat 32 (x.toNat / 2 ^ y.toNat)) ∧
    puts (.ssar q d a b) (BitVec.ofInt 32 (x.toInt / 2 ^ y.toNat)) ∧
    puts (.saddi q d a imm) (BitVec.ofInt 32 (x.toInt + imm.toInt)) ∧
    UniDone (.sadd64 q d2 a2 b2) s (fun u => u.setPair d2.val
      (BitVec.ofNat 64 ((u.getPair a2.val).toNat + (u.getPair b2.val).toNat))) ∧
    puts (.sbfe q d a b) (bfe32 x y) ∧ puts (.sclz q d a) (clz32 x) ∧ puts (.spopc q d a) (popc32 x) ∧
    puts (.sdivu q d a b) (if y.toNat = 0 then BitVec.allOnes 32 else BitVec.ofNat 32 (x.toNat / y.toNat)) ∧
    puts (.sremu q d a b) (BitVec.ofNat 32 (x.toNat % y.toNat)) ∧
    puts (.ssel q d a b p) (if s.issuer.u.getQ p.val then x else y)) ∧
  (∀ (q : BitVec 3) (p m n : Fin 8) (d a b : Fin 64) (s : State), uniReady q s = true →
    let x := s.issuer.u.getS a.val
    let y := s.issuer.u.getS b.val
    let rm := fcrRm s.issuer.u.fcr
    let f := s.issuer.u.getQ m.val
    let h := s.issuer.u.getQ n.val
    let tests := fun (i : Instr) (r : Bool) => UniDone i s fun u => u.setQ p.val r
    let floats := fun (i : Instr) (r : Word × Word) => UniDone i s fun u => (u.setS d.val r.1).raise r.2
    tests (.scmpeq q p a b) (x == y) ∧ tests (.scmpne q p a b) (x != y) ∧
    tests (.scmplt q p a b) (decide (x.toInt < y.toInt)) ∧ tests (.scmple q p a b) (decide (x.toInt ≤ y.toInt)) ∧
    tests (.scmpltu q p a b) (decide (x.toNat < y.toNat)) ∧
    tests (.qop q .and p m n) (f && h) ∧ tests (.qop q .or p m n) (f || h) ∧ tests (.qop q .xor p m n) (f ^^ h) ∧
    tests (.qop q .andn p m n) (f && !h) ∧ tests (.qop q .not p m 0) (!f) ∧
    floats (.sfadd q d a b) (f32.fadd rm false x.toNat y.toNat).word ∧
    floats (.sfmul q d a b) (f32.fmul rm false x.toNat y.toNat).word ∧
    floats (.scvtfi q d a) (cvtfi rm false x) ∧ floats (.scvtif q d a) (cvtif rm x).word ∧
    UniDone (.sfcmplt q p a b) s (fun u =>
      (u.setQ p.val (f32.fcmp .lt false x.toNat y.toNat).1).raise (f32.fcmp .lt false x.toNat y.toNat).2))

/-- R154: on a SIMT warp SFIRST gives the lowest member, VMASK the members, QANY and QALL the OR and the AND over the members' p[A],
which waits for an access that is to write p7, and PSET writes q[A] to p[D] of every member. R155 to R157: SRD writes the value of the
special register to s[sd] and nothing else, for every register of the table. Reading CLK.LO copies the high word of CLK into the shadow,
which the next read of CLK.HI returns and consumes; the trap registers read from the lowest member's frame; the registers of the chapter
that a Reckoner lacks read as zero there. PART is the partition's corner as it stands (R302), which after a resize is the model's reading
(log 80); that grids are numbered within their partition is log 136. R62, R64, R155, R156: SWR writes the register that is writable: FCR
keeps bits 2:0, FSR bits 6:0, TVEC, UIVEC and the two words of CCNT the whole word; a trap register is written in the frame of every
member, with what R289 reads as zero masked. A register that is not writable raises Reserved-Instruction in every member, at the word,
once their older words have finished. -/
def Obligations.GroupDataAndSpecialRegistersComplete : Prop :=
  (∀ (q : BitVec 3) (d : Fin 64) (m n : Fin 8) (p : Fin 7) (s : State), uniReady q s = true → s.issuer.reck = false →
    UniDone (.sfirst q d) s (fun u => u.setS d.val (BitVec.ofNat 32 ((lanesOf s.cur.members).headD 0))) ∧
    UniDone (.vmask q d) s (fun u => u.setS d.val s.cur.members) ∧
    GroupDone (.pset q p m) s id (fun _ t => t.setP p.val (s.issuer.u.getQ m.val)) ∧
    ((lanesOf s.cur.members).all (fun l => !((s.past.lane l).awaits (predRegs n.val) [])) = true →
      UniDone (.qany q m n) s (fun u => u.setQ m.val ((lanesOf s.cur.members).any fun l => (s.past.lane l).getP n.val)) ∧
      UniDone (.qall q m n) s (fun u => u.setQ m.val ((lanesOf s.cur.members).all fun l => (s.past.lane l).getP n.val)))) ∧
  (∀ (q : BitVec 3) (d : Fin 64) (ix : Fin 40) (s : State), uniReady q s = true →
    let u := s.issuer.u
    let l := (lanesOf s.cur.members).headD 0
    let t := s.past.lane l
    let gives := fun (n : Fin 40) (v : Word) => UniDone (.srd q d n) s fun u => u.setS d.val v
    let simt := fun (v : Word) => if s.issuer.reck then 0#32 else v
    UniDone (.srd q d 0x0E) s (fun u => { u.setS d.val (s.clk s.issuer).lo with shadow := some (s.clk s.issuer).hi }) ∧
    UniDone (.srd q d 0x0F) s (fun u => { u.setS d.val (u.shadow.getD (s.clk s.issuer).hi) with shadow := none }) ∧
    (ix.val ≠ 0x0E → ix.val ≠ 0x0F → gives ix (s.stands.special s.past ix.val)) ∧
    gives 0x08 (simt (BitVec.ofNat 32 s.issuer.k)) ∧ gives 0x09 (BitVec.ofNat 32 (s.grid s.issuer.grid).num) ∧
    gives 0x0B (BitVec.ofNat 32 s.issuer.core) ∧ gives 0x0C (BitVec.ofNat 32 s.issuer.slice) ∧
    gives 0x0D (BitVec.ofNat 32 (s.part s.issuer.part).corner) ∧ gives 0x10 u.fcr ∧ gives 0x11 u.fsr ∧
    gives 0x12 (simt (BitVec.ofNat 32 s.issuer.quota)) ∧ gives 0x13 (simt u.spm) ∧ gives 0x14 (simt u.ablanes) ∧
    gives 0x16 u.tvec ∧ gives 0x17 (t.frameWord 0) ∧ gives 0x18 (t.frameWord 2) ∧ gives 0x19 (t.frameWord 3) ∧
    gives 0x1A (t.frameWord 4) ∧ gives 0x1B (t.frameWord 6) ∧ gives 0x1C (t.frameWord 1) ∧ gives 0x1D u.uivec ∧
    gives 0x1E (u.ccnt.setWidth 32) ∧ gives 0x1F ((u.ccnt >>> 32).setWidth 32)) ∧
  (∀ (q : BitVec 3) (a : Fin 64) (ix : Fin 40) (s : State), uniReady q s = true →
    let x := s.issuer.u.getS a.val
    UniDone (.swr q a 0x10) s (fun u => { u with fcr := x &&& 0x7#32 }) ∧
    UniDone (.swr q a 0x11) s (fun u => { u with fsr := x &&& 0x7F#32 }) ∧
    UniDone (.swr q a 0x16) s (fun u => { u with tvec := x }) ∧
    UniDone (.swr q a 0x1D) s (fun u => { u with uivec := x }) ∧
    UniDone (.swr q a 0x1E) s (fun u => { u with ccnt := DWord.ofWords x u.ccnt.hi }) ∧
    UniDone (.swr q a 0x1F) s (fun u => { u with ccnt := DWord.ofWords u.ccnt.lo x }) ∧
    (∀ p ∈ [((0x17 : Fin 40), 0), (0x18, 2), (0x19, 3), (0x1A, 4)],
      GroupDone (.swr q a p.1) s id fun _ t => { t with frame := frameWrite t.frame p.2 x }) ∧
    (ix.val ∉ [0x10, 0x11, 0x16, 0x17, 0x18, 0x19, 0x1A, 0x1D, 0x1E, 0x1F] → s.quiet = true →
      exec (.swr q a ix) s = .next ((s.issued.setUnit s.cur.u s.joined).raiseLanes s.cur.u s.cur.members s.cur.pc [] fun _ =>
        trapRec 0x01 0#64)))

/-- R13, R159, R160: JMP moves every member to its target and drops their latches; LOOP counts s[sd] down and branches while it is not
zero, leaving the latches when it falls through; SCALL pushes the next offset with its slot and tag, and SRET pops, and both leave the
latches. R50, R287: a JMP, an SCALL or a LOOP that is taken, whose target lies outside the overlay, raises Overlay-Tag with TPC the word
in every member, once their older words have finished, and a LOOP counts nothing down; a full call stack in SCALL, and an empty one in
SRET of a member that does not pop below its region's depth, raise Call-Stack so. TADDR of these Overlay-Tags is the model's choice (log
110). -/
def Obligations.UniformBranchesGoOrTrap : Prop :=
  (∀ (q : BitVec 3) (off : BitVec 21) (o : BitVec 15) (d : Fin 64) (s : State), uniReady q s = true →
    let tgt := s.cur.next + off.signExtend 32 * 4#32
    let back := s.cur.next + o.signExtend 32 * 4#32
    let x := s.issuer.u.getS d.val - 1#32
    let ret : Ret := { off := s.cur.next, slot := s.cur.slot, tag := (s.ovl s.issuer s.cur.slot).tag }
    (s.inOverlay tgt = true →
      GroupDone (.jmp q off) s id (fun _ t => ({ t with pc := tgt } : Thread).dropLatches) ∧
      ((lanesOf s.cur.members).all (fun l => decide ((s.past.lane l).stack.length < 8)) = true →
        GroupDone (.scall q off) s id fun _ t => { t with stack := ret :: t.stack, pc := tgt })) ∧
    (x = 0#32 → UniDone (.loop q d o) s fun u => u.setS d.val 0#32) ∧
    (x ≠ 0#32 → s.inOverlay back = true →
      GroupDone (.loop q d o) s (fun u => u.setS d.val x) fun _ t => ({ t with pc := back } : Thread).dropLatches) ∧
    ((lanesOf s.cur.members).all (fun l => !((s.past.lane l).popsBelow) && !((s.past.lane l).stack.isEmpty)) = true →
      GroupDone (.sret q) s id fun _ t => t.pop fun k => (s.ovl s.issuer k).tag)) ∧
  (∀ (q : BitVec 3) (off : BitVec 21) (o : BitVec 15) (d : Fin 64) (s : State), uniReady q s = true → s.quiet = true →
    let tgt := s.cur.next + off.signExtend 32 * 4#32
    let back := s.cur.next + o.signExtend 32 * 4#32
    let traps := fun (i : Instr) (cause : Nat) =>
      exec i s = .next (s.stands.raiseLanes s.cur.u s.cur.members s.cur.pc [] fun _ => trapRec cause 0#64)
    (s.inOverlay tgt = false → traps (.jmp q off) 0x10 ∧ traps (.scall q off) 0x10) ∧
    (s.issuer.u.getS d.val - 1#32 ≠ 0#32 → s.inOverlay back = false → traps (.loop q d o) 0x10) ∧
    (s.inOverlay tgt = true → (lanesOf s.cur.members).any (fun l => decide (8 ≤ (s.past.lane l).stack.length)) = true →
      traps (.scall q off) 0x0B) ∧
    ((lanesOf s.cur.members).any (fun l => !((s.past.lane l).popsBelow) && (s.past.lane l).stack.isEmpty) = true →
      traps (.sret q) 0x0B))

/-- R161 to R163: JOVL, outside regions, moves the members to the offset s[sb] of the slot that holds the image, on a SIMT warp; on a
Reckoner whose slot holds another image it loads the image first. OVLOAD with the image in a slot is SNOP; else, once the image has
passed its checks, the warp waits at the word for the copy. R39, R172, R173: SYSC, once the unit's older words have finished, makes the
unit wait at the word for the kernel's reply, with s[sa] and s[sb] in its request. LAUNCH gives q0 := 0 where thread 0 of the team is not
a member, and, below depth 10, where the record's page is not resident (P = 0); a record of a resident page is queued with depth one
more, the lower of the priorities and the grid as parent, and q0 := 1. -/
def Obligations.OverlaysCallsAndLaunchesComplete : Prop :=
  (∀ (q : BitVec 3) (bp : Fin 8) (b : Fin 64) (sl : Bool) (k : Fin 2) (s : State), uniReady q s = true → s.noRegion = true →
    let va := s.issuer.u.getPair bp.val
    let off := s.issuer.u.getS b.val
    let holds := fun (k : Nat) => (s.ovl s.issuer k).tag = some va.toNat
    let img := s.stands.loadImage s.issuer.part (s.asid s.issuer) s.issuer.slice va.toNat
    let there := fun (k : Nat) (t : Thread) => ({ t with pc := off, slot := k, stale := false } : Thread).dropLatches
    (s.issuer.reck = false → holds k.val → (k.val = 1 → ¬ holds 0) → (s.ovl s.issuer k.val).outside off = false →
      GroupDone (.jovl q bp b) s id fun _ => there k.val) ∧
    (s.issuer.reck = true → holds 0 → GroupDone (.jovl q bp b) s id fun _ => there 0) ∧
    (s.issuer.reck = true → ¬ holds 0 → ∀ code, img.2 = .ok code →
      ∃ t, exec (.jovl q bp b) s = .next t ∧ t.ovl s.issuer 0 = { tag := some va.toNat, code } ∧
        ∀ l, (t.unit s.cur.u).lane l = if s.cur.members.getLsbD l then there 0 (s.past.lane l) else s.issuer.lane l) ∧
    (s.issuer.reck = false → holds 0 ∨ holds 1 → UniDone (.ovload q bp sl) s id) ∧
    (s.issuer.reck = true → UniDone (.ovload q bp false) s id) ∧
    (s.issuer.reck = false → ¬ holds 0 → ¬ holds 1 → ∀ code, img.2 = .ok code →
      ∃ t, exec (.ovload q bp sl) s = .next t ∧
        (t.unit s.cur.u).ovw = some { va, slot := if sl then 1 else 0, copying := false, members := s.cur.members } ∧
        ∀ l, s.cur.members.getLsbD l = true → ((t.unit s.cur.u).lane l).pc = s.cur.pc)) ∧
  (∀ (q : BitVec 3) (d a b : Fin 64) (bp : Fin 8) (s : State), uniReady q s = true → s.noRegion = true → s.quiet = true →
    let u := s.issuer.u
    let va := u.getPair bp.val
    let g := s.grid s.issuer.grid
    (s.calm = true → ∃ t, exec (.sysc q d a b) s = .next t ∧ t.mem = s.mem ∧
      (t.unit s.cur.u).sysc = some { dest := d.val, num := u.getS a.val, arg := u.getS b.val, members := s.cur.members,
                                     vc := (s.order.endRegion (.unit s.cur.u)).2 } ∧
      (t.unit s.cur.u).u = u ∧ ∀ l, s.cur.members.getLsbD l = true → ((t.unit s.cur.u).lane l).pc = s.cur.pc) ∧
    (s.issuer.reck = false →
      (s.stands.leader = false → UniDone (.launch q bp) s fun u => u.setQ 0 false) ∧
      (s.stands.leader = true → s.calm = true → va.toNat % 128 = 0 → g.depth ≠ 10 →
        s.stands.walkWaits s.issuer.part (s.asid s.issuer) s.issuer.slice va = false →
        let x := s.stands.translate s.issuer.part (s.asid s.issuer) s.issuer.slice va
        ∀ y, x.2 = .ok y →
        (y.p = false → ∃ t, exec (.launch q bp) s = .next t ∧ t.mem = x.1.mem ∧
          (t.slice s.issuer.slice).childQ = (x.1.slice s.issuer.slice).childQ ∧ Went s t fun u => u.setQ 0 false) ∧
        ∀ r c z, y.p = true → (x.1.slice s.issuer.slice).childQ.length < 256 → x.1.uniReach va 128 false [] = .go r c z →
          lineSound r c.key = true → r.raceTest c false none = none →
          ∃ t child, exec (.launch q bp) s = .next t ∧ t.mem = r.mem ∧
            (t.slice s.issuer.slice).childQ = (r.slice s.issuer.slice).childQ ++ [child] ∧
            child.recb = r.bytes c.key 128 ∧ child.depth = g.depth + 1 ∧
            child.prio = Nat.min (r.byte (c.key + 0x21)).toNat g.prio ∧ child.parent = s.issuer.grid ∧
            Went s t fun u => u.setQ 0 true)))

/-- R24, R164, R165: YIELD, and SLEEP with 0, yield; SLEEP of n blocks the members at the word until CLK reaches its value plus n; EXIT
ends the members, and the warp or Reckoner with its last thread. None of them touches memory. R275: TBAR, when no user interrupt is to be
taken, blocks its members at the word until every live thread of the team has arrived. The last arrival makes every live thread of the
team's live warps go on, and the generation advances. -/
def Obligations.YieldsAndBarriersComplete : Prop :=
  (∀ (q : BitVec 3) (a : Fin 64) (s : State), uniReady q s = true → s.noRegion = true → s.quiet = true →
    let n := s.issuer.u.getS a.val
    (s.uintNow = false →
      YieldDone (.yield q) s id (fun _ t => t) ∧
      (n = 0#32 → YieldDone (.sleep q a) s id fun _ t => t) ∧
      (n ≠ 0#32 → YieldDone (.sleep q a) s id fun _ t =>
        { t with wait := .sleep (s.clk s.issuer + n.setWidth 64) s.cur.members, pc := s.cur.pc })) ∧
    (∃ t, exec (.exit q) s = .next t ∧ t.mem = s.mem ∧
      (∀ l, s.cur.members.getLsbD l = true → ((t.unit s.cur.u).lane l).status = .exited) ∧
      (∀ l, s.cur.members.getLsbD l = false → ((t.unit s.cur.u).lane l).status = (s.issuer.lane l).status) ∧
      (t.unit s.cur.u).live = (s.issuer.live && !(s.issuer.liveMask &&& ~~~s.cur.members == 0#32)))) ∧
  (∀ (q : BitVec 3) (s : State), uniReady q s = true → s.noRegion = true → s.quiet = true → s.issuer.reck = false →
    s.uintNow = false → s.issuer.live = true →
    let team := s.team s.issuer.team
    let waits := fun (l : Nat) => match (s.issuer.lane l).wait with
      | .barrier _ => true
      | _ => false
    let last := (team.warps.filter fun u => (s.unit u).live).all fun u =>
      if u = s.cur.u then (lanesOf (s.issuer.liveMask &&& ~~~s.cur.members)).all waits else (s.unit u).arrived
    ∃ t, exec (.tbar q) s = .next t ∧ t.mem = s.mem ∧
      (last = false → (t.team s.issuer.team).barGen = team.barGen ∧
        ∀ l, s.cur.members.getLsbD l = true → ((t.unit s.cur.u).lane l).wait = .barrier s.cur.members ∧
          ((t.unit s.cur.u).lane l).pc = s.cur.pc) ∧
      (last = true → s.cur.u ∈ team.warps → (t.team s.issuer.team).barGen = team.barGen + 1 ∧
        ∀ u ∈ team.warps, (s.unit u).live = true → ∀ l, l < 32 → ((t.unit u).lane l).status = .live →
          ((t.unit u).lane l).wait = .none))

/-- R166, R167, R168, R293: TRAP raises Software in every member with TADDR s[sa] and TPC the next word, once their older words have
finished; SBRK raises Breakpoint so, but where a debugger is attached the members halt with the trap pending and its frame written; TMASK
writes the mask of every member; TRET returns the members in trap mode: latches, valid bits, mask 0, the slot and the offset of the
frame, and the queue that it re-issues, where that would not bring a member above 8 words in flight (log 117). When a debugger is
attached is the model's reading (log 37). R169 to R171: UINT gives q0 := 1 and makes the interrupt pending at its target, with the
payload and the sender, where the target exists and none is pending, once the unit's older words have finished; else q0 := 0 and nothing
more. UIRET outside a handler is SNOP; in one it restores s62 and s63 and sends the members to the interrupted offset and slot. -/
def Obligations.TrapsAndUserInterruptsComplete : Prop :=
  (∀ (q : BitVec 3) (a : Fin 64) (m : Bool) (s : State), uniReady q s = true →
    let traps := fun (i : Instr) (cause : Nat) (ta : DWord) =>
      exec i s = .next (s.stands.raiseLanes s.cur.u s.cur.members s.cur.next [] fun _ => trapRec cause ta)
    (s.noRegion = true → s.quiet = true →
      traps (.trap q a) 0x0D ((s.issuer.u.getS a.val).setWidth 64) ∧
      ((s.grid s.issuer.grid).debug = false → traps (.sbrk q) 0x0E 0#64) ∧
      ((s.grid s.issuer.grid).debug = true → ∃ t, exec (.sbrk q) s = .next t ∧ t.mem = s.mem ∧
        ∀ l, s.cur.members.getLsbD l = true →
          ((t.unit s.cur.u).lane l).pend = some ((s.past.lane l).trapMode, (s.past.lane l).mask) ∧
          ((t.unit s.cur.u).lane l).frameWord 0 = 0x0E#32 ∧ ((t.unit s.cur.u).lane l).frameWord 4 = s.cur.next)) ∧
    GroupDone (.tmask q m) s id (fun _ t => { t with mask := m }) ∧
    ((lanesOf s.cur.members).all (fun l => !((s.past.lane l).trapMode) || (s.past.lane l).retReady) = true →
      let back := s.past.lanesWhere s.cur.members Thread.trapMode
      ∃ w, exec (.tret q) s = .next (s.issued.setUnit s.cur.u w) ∧
        w = { s.issuer with th := w.th, sealCtx := (s.issuer.sealBack back).sealCtx } ∧
        ∀ l, w.lane l = if s.cur.members.getLsbD l then
            (if (s.past.lane l).trapMode then (s.past.lane l).tret s.issuer.reck (fun k => (s.ovl s.issuer k).tag) else s.past.lane l)
          else s.issuer.lane l)) ∧
  (∀ (q : BitVec 3) (a b : Fin 64) (s : State), uniReady q s = true →
    (s.noRegion = true →
      let tgt := s.stands.uintTarget s.issuer (s.issuer.u.getS a.val)
      (tgt = none → UniDone (.uint q a b) s fun u => u.setQ 0 false) ∧
      (∀ k, tgt = some k → ((s.unit k).u.uint.isSome = true → UniDone (.uint q a b) s fun u => u.setQ 0 false) ∧
        ((s.unit k).u.uint = none → s.calm = true → ∃ t, exec (.uint q a b) s = .next t ∧ t.mem = s.mem ∧ (t.unit s.cur.u).u.getQ 0 = true ∧
          (t.unit k).u.uint.map (fun i => (i.payload, i.sender)) =
            some (s.issuer.u.getS b.val, if s.issuer.reck then 0xFFFFFFFF#32 else BitVec.ofNat 32 s.issuer.k)))) ∧
    (s.issuer.u.uframe = none → UniDone (.uiret q) s id) ∧
    (∀ f, s.issuer.u.uframe = some f →
      GroupDone (.uiret q) s (fun u => { (u.setS 62 f.s62).setS 63 f.s63 with uframe := none }) fun _ t =>
        ({ t with pc := f.off, slot := f.slot, stale := false } : Thread).dropLatches))

/-- R34, R35, R174: REGQ with a valid quota, where nothing makes it wait, sets the quota and q0 := 1: a smaller one drops the registers
above it and returns them to the pool, a larger one takes them from the pool; where the pool cannot give them the members block at the
word. A quota that is not valid raises Quota with TADDR s[sa]. REGPOOL reads the pool as it is once the grants of this cycle have been
made: what it holds, where no grow is pending. R35: the first pending grow of a team is granted when the pool holds it: the quota and q0
:= 1, and its threads go on. When every live warp is blocked in a grow and the next does not fit, all that are pending are refused: q0 :=
0, the quota as it was, and their threads go on. Nothing holds the warps concerned still (R293, R298). -/
def Obligations.QuotaIsTraded : Prop :=
  (∀ (q : BitVec 3) (d a : Fin 64) (s : State), uniReady q s = true → s.issuer.reck = false →
    let x := s.issuer.u.getS a.val
    let n := x.toNat
    let old := s.issuer.quota
    let team := s.team s.issuer.team
    UniDone (.regpool q d) s (fun u => u.setS d.val (BitVec.ofNat 32 (s.stands.poolNow s.issuer.team))) ∧
    (team.grows = [] → s.stands.poolNow s.issuer.team = team.pool) ∧
    (s.noRegion = true → s.quiet = true →
      (¬ (n % 8 = 0 ∧ 16 ≤ n ∧ n ≤ 120) → exec (.regq q a) s =
        .next (s.stands.raiseLanes s.cur.u s.cur.members s.cur.pc [] fun _ => trapRec 0x0C (x.setWidth 64))) ∧
      (n % 8 = 0 ∧ 16 ≤ n ∧ n ≤ 120 → s.regqHeld s.cur.u = false →
        (n ≤ old → ∃ t, exec (.regq q a) s = .next t ∧ (t.unit s.cur.u).quota = n ∧ (t.unit s.cur.u).u = s.issuer.u.setQ 0 true ∧
          (t.team s.issuer.team).pool = team.pool + (old - n) ∧
          ∀ l r, l < 32 → ((t.unit s.cur.u).lane l).getV r = if r < n then (s.past.lane l).getV r else 0#32) ∧
        (old < n → team.grows = [] → n - old ≤ team.pool → ∃ t, exec (.regq q a) s = .next t ∧ (t.unit s.cur.u).quota = n ∧
          (t.team s.issuer.team).pool = team.pool - (n - old) ∧ Went s t fun u => u.setQ 0 true) ∧
        (old < n → team.pool < n - old → ∃ t, exec (.regq q a) s = .next t ∧ t.mem = s.mem ∧ (t.unit s.cur.u).quota = old ∧
          (t.team s.issuer.team).pool = team.pool ∧
          ∀ l, s.cur.members.getLsbD l = true → (t.unit s.cur.u).lane l =
            { (s.past.lane l).dropLatches with wait := .grow n s.cur.members, pc := s.cur.pc })))) ∧
  (∀ (tm u : Nat) (g : Grow) (s : State), (s.team tm).firstGrow = some g → g.u = u →
    let team := s.team tm
    let need := g.n - (s.unit u).quota
    let live := team.warps.filter fun k => (s.unit k).live
    let woken := fun (t : State) (g : Grow) => ∀ l, g.members.getLsbD l = true →
      ((s.unit g.u).lane l).wait = .grow g.n g.members → (t.unit g.u).lane l = ((s.unit g.u).lane l).wake
    (need ≤ team.pool → s.wakeable u = true → ∃ t, exec (.regqGrant tm) s = .next t ∧ t.mem = s.mem ∧ (t.team tm).pool = team.pool - need ∧
      (t.unit u).quota = Nat.max g.n (s.unit u).quota ∧ (t.unit u).u = (s.unit u).u.setQ 0 true ∧ woken t g) ∧
    (team.pool < need → live.all (fun k => s.growBlocked team k && s.wakeable k) = true →
      ∃ t, exec (.regqRefuse tm) s = .next t ∧ t.mem = s.mem ∧ (t.team tm).grows = team.grows.filter (·.waiting) ∧
        (t.team tm).pool = team.pool ∧ ∀ x ∈ team.grows, x.waiting = false →
          (t.unit x.u).quota = (s.unit x.u).quota ∧ (t.unit x.u).u = (s.unit x.u).u.setQ 0 false ∧ woken t x))

/-- R264, R265: a uniform load whose access passes its checks, on a sound line and with no race, puts the bytes at its address,
little-endian, into its register or pair; a uniform store writes its register or pair there. A store leaves every other byte, but for the
page-table entry whose D bit it sets (R212); a load leaves every byte. R266: SAADD and SACAS, when the access passes its checks, on a
sound line and with no race, give the word at their address before to s[sd] and write the sum, or s[sb] where the word equals s[sd];
every other byte but the page-table entry's stays. -/
def Obligations.UniformMemoryWordsComplete : Prop :=
  (∀ (q : BitVec 3) (d : Fin 64) (d2 : Fin 32) (sc : BitVec 2) (bp : Fin 8) (b : Option (Fin 64)) (o : Bool) (s r : State) (c : Acc1)
    (y : Xlat), uniReady q s = true →
    let va := uniAddr s.issuer.u bp b
    let ord := if o then some 2#2 else none
    let loads := fun (i : Instr) (n : Nat) (regs : List Nat) (f : Uni → Uni) => s.stands.uniReach va n false regs = .go r c y → lineSound r c.key = true →
      r.raceTest c false ord = none → (lanesOf s.cur.members).all (fun l => !((s.joined.lane l).inTx)) = true →
      ∃ t, exec i s = .next t ∧ t.mem = r.mem ∧ Went s t f
    let stores := fun (i : Instr) (n v : Nat) => s.stands.uniReach va n true [] = .go r c y → r.raceTest c true ord = none →
      s.noRegion = true → (∀ k, y.entryByte k = true → k < c.key ∨ c.key + n ≤ k) →
      ∃ t, exec i s = .next t ∧ t.bytes c.key n = leBytes n v ∧ Went s t id ∧
        ∀ k, k < c.key ∨ c.key + n ≤ k → y.entryByte k = false → t.byte k = r.byte k
    loads (.sld q d sc bp b o) 4 [d.val] (fun u => u.setS d.val (BitVec.ofNat 32 (leNat (r.bytes c.key 4)))) ∧
    loads (.sld64 q d2 sc bp b o) 8 (pairRegs d2.val) (fun u => u.setPair d2.val (BitVec.ofNat 64 (leNat (r.bytes c.key 8)))) ∧
    stores (.sst q d sc bp b o) 4 (s.issuer.u.getS d.val).toNat ∧
    stores (.sst64 q d2 sc bp b o) 8 (s.issuer.u.getPair d2.val).toNat) ∧
  (∀ (q : BitVec 3) (d b : Fin 64) (sc od : BitVec 2) (bp : Fin 8) (s r : State) (c : Acc1) (y : Xlat), uniReady q s = true →
    s.noRegion = true → s.stands.uniReach (s.issuer.u.getPair bp.val) 4 true [d.val] = .go r c y → lineSound r c.key = true →
    r.raceTest c true (some sc) = none → (∀ k, y.entryByte k = true → k < c.key ∨ c.key + 4 ≤ k) →
    let old : Word := BitVec.ofNat 32 (leNat (r.bytes c.key 4))
    let does := fun (i : Instr) (new : Word) => ∃ t, exec i s = .next t ∧ t.bytes c.key 4 = leBytes 4 new.toNat ∧
      Went s t (fun u => u.setS d.val old) ∧ ∀ k, k < c.key ∨ c.key + 4 ≤ k → y.entryByte k = false → t.byte k = r.byte k
    does (.saadd q d sc bp b od) (old + s.issuer.u.getS b.val) ∧
    does (.sacas q d sc bp b od) (if old = s.issuer.u.getS d.val then s.issuer.u.getS b.val else old))

/-- R158, R270, R272, R273: CADD and CADDR, when their counter passes its checks and lies on a sound line, add to it, holding at the
largest value; CREAD reads it where no held engine fault is to be reported first. No other byte of memory changes. R274: WAITGE and
WAITTO, when no held engine fault and no user interrupt comes first and the counter's line is sound, go on where the counter has reached
its threshold, q0 := 1 in WAITTO, which gives q0 := 0 where its deadline has come; else the members block at the word. R231, R238, R276:
FENCE completes once every older access of the warp has been performed, and FENCEX once those of its first class have, no command or
matrix instruction of that class being open; both change the order of accesses alone. -/
def Obligations.CountersAndFencesComplete : Prop :=
  (∀ (q : BitVec 3) (d : Fin 32) (sc : BitVec 2) (bp : Fin 8) (b : CSrc) (s r : State) (c : CtrRef), uniReady q s = true →
    let va := s.issuer.u.getPair bp.val
    (s.noRegion = true → s.stands.ctrReach va true = .go r c → lineSound r c.key = true → ∀ i ∈ [Instr.cadd q sc bp b, .caddr q sc bp b],
      ∃ t, exec i s = .next t ∧ Went s t id ∧
        (t.counterVal c.key).toNat = Nat.min (2 ^ 64 - 1) ((r.counterVal c.key).toNat + (s.issuer.u.csrc b).toNat) ∧
        ∀ k, k < c.key ∨ c.key + 8 ≤ k → t.byte k = r.byte k) ∧
    (s.stands.ctrReach va false = .go r c → lineSound r c.key = true →
      s.issuer.held.all (fun h => !(h.failedAdd || h.ctr == va)) = true → ∃ t, exec (.cread q d sc bp) s = .next t ∧ t.mem = r.mem ∧ Went s t fun u => u.setPair d.val (r.counterVal c.key))) ∧
  (∀ (q : BitVec 3) (tm : Fin 64) (sc : BitVec 2) (bp : Fin 8) (b : CSrc) (s r : State) (c : CtrRef), uniReady q s = true →
    s.noRegion = true → s.quiet = true → s.uintNow = false →
    let va := s.issuer.u.getPair bp.val
    let th := s.issuer.u.csrc b
    let till := s.clk s.issuer + (s.issuer.u.getS tm.val).setWidth 64
    s.stands.ctrReach va false = .go r c → lineSound r c.key = true →
    s.issuer.held.all (fun h => !(h.failedAdd || h.ctr == va)) = true →
    let goes := fun (i : Instr) (f : Uni → Uni) => ∃ t, exec i s = .next t ∧ t.mem = r.mem ∧ (t.unit s.cur.u).u = f s.issuer.u ∧
      ∀ l, s.cur.members.getLsbD l = true → (t.unit s.cur.u).lane l = (s.past.lane l).dropLatches
    let blocks := fun (i : Instr) (dl : Option DWord) => ∃ t, exec i s = .next t ∧ t.mem = r.mem ∧ (t.unit s.cur.u).u = s.issuer.u ∧
      ∀ l, s.cur.members.getLsbD l = true → (t.unit s.cur.u).lane l =
        { (s.past.lane l).dropLatches with wait := .counter va th sc dl s.cur.members, pc := s.cur.pc }
    (th.toNat ≤ (r.counterVal c.key).toNat → goes (.waitge q sc bp b) id ∧ goes (.waitto q tm sc bp b) fun u => u.setQ 0 true) ∧
    ((r.counterVal c.key).toNat < th.toNat → blocks (.waitge q sc bp b) none ∧
      (till.toNat ≤ (s.clk s.issuer).toNat → goes (.waitto q tm sc bp b) fun u => u.setQ 0 false) ∧
      ((s.clk s.issuer).toNat < till.toNat → blocks (.waitto q tm sc bp b) (some till)))) ∧
  (∀ (q : BitVec 3) (sc : BitVec 2) (c1 c2 : Fin 7) (s : State), uniReady q s = true → s.noRegion = true →
    (s.calm = true → exec (.fence q sc) s = .next (fenceOrder s.stands (.unit s.cur.u) sc)) ∧
    ((c1.val = 0 → s.calm = true) → (c1.val = 3 → s.cores.all (fun p => p.2.mq.all fun o => !(o.u == s.cur.u)) = true) →
      (c1.val ≠ 0 → s.cmds.all (fun k => !(k.u == s.cur.u && k.cls == c1.val)) = true) →
      exec (.fencex q sc c1 c2) s = .next (fencexOrder s.stands s.cur.u c1.val c2.val
        (s.classClock s.cur.u c1.val))))

/-- R267, R268: PGREQ whose pages are all walked without a stop, with a counter that passes its checks on a sound line, adds 1 at once
where the range is resident, and else leaves a request for the kernel. PGADV leaves its advice, and for `.will` a request that names no
counter. Neither changes another byte or a register. R226, R269: PALLOC of n bytes, outside regions, gives a place in the pool for n
rounded up to 128 and q0 := 1, or 0 and q0 := 0 for size 0 or where the pool has none; PFREE of 0 does nothing, of a live block returns
it, of anything else tells the kernel. R271: CNEW, outside regions, hands out a counter of the pool with its scope, value 0 and q0 := 1,
once its home is ready, or 0 and q0 := 0 where there is none; CFREE of 0 does nothing, and of a live counter that nobody waits on returns
it. R226, R271: what an allocation gives lies in the pool, is aligned as the pool is, and meets no live block: for taken blocks in order
of address, none meeting the next. -/
def Obligations.ResidencyAndPoolWordsComplete : Prop :=
  (∀ (q : BitVec 3) (n rp bp : Fin 8) (b : Fin 64) (k : Fin 4) (s r0 r : State) (c : CtrRef), uniReady q s = true →
    let p := s.part s.issuer.part
    let cx := p.ctx (s.asid s.issuer)
    let va := (s.issuer.u.getPair rp.val).toNat
    let len := (s.issuer.u.getS b.val).toNat
    (s.noRegion = true → s.stands.walkPages p cx (pagesOf va len) = (r0, none) → r0.ctrReach (s.issuer.u.getPair n.val) true = .go r c →
      lineSound r c.key = true → ∃ t, exec (.pgreq q n rp b) s = .next t ∧ Went s t id ∧ (∀ k, k < c.key ∨ c.key + 8 ≤ k → t.byte k = r.byte k) ∧
        (r.rangeResident p cx va len = true →
          (t.counterVal c.key).toNat = Nat.min (2 ^ 64 - 1) ((r.counterVal c.key).toNat + 1) ∧
          (t.part s.issuer.part).pgreqs = (r.part s.issuer.part).pgreqs) ∧
        (r.rangeResident p cx va len = false → t.mem = r.mem ∧ (t.part s.issuer.part).pgreqs = (r.part s.issuer.part).pgreqs ++
          [{ id := r.nextId, asid := s.asid s.issuer, va, len, ctr := some (s.issuer.u.getPair n.val).toNat, grid := s.issuer.grid }])) ∧
    (let at_ := (s.issuer.u.getPair bp.val).toNat
     let told := s.stands.modPart s.issuer.part fun p => { p with advice := p.advice ++
       [{ asid := s.asid s.issuer, va := at_, len, kind := k.val }] }
     (k ≠ 0 → exec (.pgadv q k bp b) s = .next told) ∧
     (k = 0 → exec (.pgadv q k bp b) s = .next (({ told with nextId := s.nextId + 1 } : State).modPart s.issuer.part fun p =>
       { p with pgreqs := p.pgreqs ++ [{ id := s.nextId, asid := s.asid s.issuer, va := at_, len, ctr := none, grid := s.issuer.grid }] })))) ∧
  (∀ (q : BitVec 3) (d bp : Fin 8) (b : Fin 64) (s : State), uniReady q s = true → s.noRegion = true →
    let cx := (s.part s.issuer.part).ctx (s.asid s.issuer)
    let n := ((s.issuer.u.getS b.val).toNat + 127) / 128 * 128
    let va := (s.issuer.u.getPair bp.val).toNat
    let pick := choosePlace s.tick cx.dpbase cx.dpsize 128 n cx.blocks
    let ctxs := fun (f : Ctx → Ctx) => s.stands.modCtx s.issuer.part (s.asid s.issuer) f
    (n = 0 ∨ pick = none → UniDone (.palloc q d b) s fun u => (u.setPair d.val 0#64).setQ 0 false) ∧
    (∀ p, n ≠ 0 → pick = some p → exec (.palloc q d b) s =
      .next ((ctxs fun k => { k with blocks := insertBlock (p, n) k.blocks }).modUni s.cur.u fun u =>
        (u.setPair d.val (BitVec.ofNat 64 p)).setQ 0 true)) ∧
    (va = 0 → UniDone (.pfree q bp) s id) ∧
    (va ≠ 0 → cx.blocks.any (fun k => k.1 == va) = true →
      exec (.pfree q bp) s = .next (ctxs fun k => { k with blocks := k.blocks.filter fun x => !(x.1 == va) })) ∧
    (va ≠ 0 → cx.blocks.any (fun k => k.1 == va) = false →
      exec (.pfree q bp) s = .next (s.stands.raiseEvent s.issuer.part (eventRec 5 0 0 0 (s.grid s.issuer.grid).num 0 va 0)))) ∧
  (∀ (q : BitVec 3) (d bp : Fin 8) (sc : BitVec 2) (s r : State) (c : CtrRef), uniReady q s = true → s.noRegion = true →
    let cx := (s.part s.issuer.part).ctx (s.asid s.issuer)
    let va := s.issuer.u.getPair bp.val
    let pick := choosePlace s.tick cx.cpbase cx.cpsize 8 8 cx.taken
    let with1 := fun (p : Nat) => s.stands.modCtx s.issuer.part (s.asid s.issuer) fun k => { k with ctrs := { va := p, scope := sc } :: k.ctrs }
    (pick = none → UniDone (.cnew q d sc) s fun u => (u.setPair d.val 0#64).setQ 0 false) ∧
    (∀ p, pick = some p → (with1 p).counterAt s.issuer.part (s.asid s.issuer) s.issuer.slice (BitVec.ofNat 64 p) = (r, .ok (.ok c)) →
      c.ready = true → ∃ t, exec (.cnew q d sc) s = .next t ∧
        Went s t (fun u => (u.setPair d.val (BitVec.ofNat 64 p)).setQ 0 true) ∧
        (t.part s.issuer.part).ctxs = ((with1 p).part s.issuer.part).ctxs ∧
        t.counterVal c.key = 0#64 ∧ ∀ k, k < c.key ∨ c.key + 8 ≤ k → t.byte k = r.byte k) ∧
    (va = 0#64 → UniDone (.cfree q bp) s id) ∧
    (va ≠ 0#64 → s.stands.ctrReach va true = .go r c → r.waitedOn s.issuer.part (s.asid s.issuer) va = false →
      exec (.cfree q bp) s = .next (r.modCtx s.issuer.part (s.asid s.issuer) fun k =>
        { k with ctrs := k.ctrs.filter fun x => !(x.va == va.toNat) }))) ∧
  (∀ (tick base size al n va : Nat) (taken : List (Nat × Nat)), 0 < n → 0 < al →
    taken.Pairwise (fun a b => a.1 + a.2 ≤ b.1) → al ∣ base → (∀ b ∈ taken, al ∣ b.1 + b.2 ∧ b.1 ≤ base + size) →
    choosePlace tick base size al n taken = some va →
    base ≤ va ∧ va + n ≤ base + size ∧ al ∣ va ∧ ∀ b ∈ taken, va + n ≤ b.1 ∨ b.1 + b.2 ≤ va)

/-! ### Speculation (R203 to R207, R240 to R250) -/

/-- R204, R240, R277: TRY on a SIMT warp, outside regions, once every older access of the warp has been performed: where the headroom is
short the members go to the target with CODE 0x08 and nothing is saved; else each opens a region with the named octets at the checkpoint.
SPM takes the literal's low 15 bits. R243: COMMIT leaves members outside TRY regions alone and, once the warp's older accesses have been
performed, closes the regions that have buffered nothing, with ABC := 0; of a lone member whose region has buffered one global store that
passes its checks it performs the store. R204, R244, R250: an abort of a TRY region gives back every register of the octets it named, as
it was when TRY issued, whatever the region did below the checkpoint; the other registers keep what the region left; the lane goes to the
target in the slot of the TRY with ABC = CODE, no latch valid and no region. -/
def Obligations.TryRegionsOpenCommitAndAbort : Prop :=
  (∀ (q : BitVec 3) (off : BitVec 21) (lit : Word) (s : State), uniReady q s = true → s.noRegion = true → s.calm = true →
    s.issuer.reck = false → s.cur.members ≠ 0#32 → lit &&& 0x7FFF8000#32 = 0#32 →
    let m : BitVec 15 := lit.setWidth 15
    let tgt := s.cur.next + off.signExtend 32 * 4#32
    (s.issuer.quota < tryNeed m s.past.heldSize →
      GroupDone (.tryOp q off lit) s (fun u => { u with spm := m.setWidth 32, ablanes := s.cur.members }) fun _ t =>
        { t.dropLatches with abc := 0x08#32, pc := tgt }) ∧
    (tryNeed m s.past.heldSize ≤ s.issuer.quota →
      GroupDone (.tryOp q off lit) s (fun u => { u with spm := m.setWidth 32 }) fun _ t => t.openTry s.issuer.quota m tgt)) ∧
  (∀ (q : BitVec 3) (l : Nat) (b : BufStore) (s r : State) (x : Xlat) (k : Loc), uniReady q s = true → s.issuer.reck = false →
    ((lanesOf s.cur.members).all (fun l => !((s.past.lane l).inTry) || s.calm && (s.past.lane l).sp.buf.isEmpty) = true →
      GroupDone (.commit q) s id fun _ t => if t.inTry then
        { t.dropLatches with abc := 0#32, sp := { t.sp with region := .none, buf := [] } } else t) ∧
    (l < 32 → s.cur.members = laneBit l → s.calm = true → (s.past.lane l).inTry = true → (s.past.lane l).sp.buf = [b] → b.isLocal = false →
      s.stands.permit s.issuer.part (s.asid s.issuer) s.issuer.slice (BitVec.ofNat 64 b.addr) b.bytes.length true = (r, .ok x) →
      (r.part s.issuer.part).locate x.pa = some k → x.sn = false → r.lineReady k.key (x.pol == 2) = true →
      raceOf r (.unit s.cur.u) (r.order.clock (.unit s.cur.u)) .glob (locOf s.issuer.part x.pa) b.bytes.length true none = none →
      (∀ n, x.entryByte n = true → n < k.key ∨ k.key + b.bytes.length ≤ n) →
      ∃ t, exec (.commit q) s = .next t ∧ t.bytes k.key b.bytes.length = b.bytes ∧
        (∀ n, n < k.key ∨ k.key + b.bytes.length ≤ n → x.entryByte n = false → t.byte n = r.byte n) ∧
        ((t.unit s.cur.u).lane l).inTry = false ∧ ((t.unit s.cur.u).lane l).abc = 0#32)) ∧
  (∀ (t x : Thread) (quota code xcode : Nat) (spm : BitVec 15) (tgt : Word), tryNeed spm 0 ≤ quota →
    x.sp.region = (t.openTry quota spm tgt).sp.region →
    (∀ r, quota - 8 * (octets spm).length ≤ r → x.getV r = (t.openTry quota spm tgt).getV r) →
    let a := x.abort code xcode
    (∀ k i, spm.getLsbD k = true → i < 8 → a.getV (8 * k + i) = t.getV (8 * k + i)) ∧
    (∀ r, spm.getLsbD (r / 8) = false → a.getV r = x.getV r) ∧
    a.pc = tgt ∧ a.slot = t.slot ∧ a.abc = BitVec.ofNat 32 (code + 256 * (xcode % 256)) ∧ a.l0 = none ∧ a.l1 = none ∧ a.l2 = none ∧
    a.l3 = none ∧ a.inRegion = false ∧ a.sp.buf = [])

/-- R205, R207, R248: TXOPEN on a SIMT warp, outside regions, once every older access of the warp has been performed: the members open a
transaction; where members are due for serial mode, the lowest takes the partition's token if no lane holds it, one that holds it already
runs in serial mode, and the group waits for it in order if another lane has it. R203, R207, R277: TXCANCEL aborts the members in a
transaction with CODE 0x01 and XCODE the low byte of s[sa], and no other. -/
def Obligations.TransactionsOpenAndCancel : Prop :=
  (∀ (q : BitVec 3) (off : BitVec 21) (l : Nat) (s : State), uniReady q s = true → s.noRegion = true → s.calm = true →
    s.issuer.reck = false →
    let tgt := s.cur.next + off.signExtend 32 * 4#32
    let due := (lanesOf s.cur.members).filter fun l => (s.past.lane l).serialDue s.cur.pc
    let token := (s.stands.advance s.cur.u s.cur.members s.cur.pc).tokenOf s.issuer.part
    let opens := fun (k : Nat) (t : State) => exec (.txopen q off) s = .next t ∧ t.mem = s.mem ∧
      ∀ j, s.cur.members.getLsbD j = true → (t.unit s.cur.u).lane j = (s.past.lane j).openTx s.cur.pc tgt (j == k)
    (due = [] → (s.part s.issuer.part).tokenQ.all (fun x => x.1 != s.cur.u) = true →
      GroupDone (.txopen q off) s id fun _ t => t.openTx s.cur.pc tgt false) ∧
    (due.head? = some l → token = none → ∃ t, opens l t ∧ (t.part s.issuer.part).token = some (s.cur.u, l)) ∧
    (∀ k, due.head? = some l → token = some (s.cur.u, k) → k ∈ due → ∃ t, opens k t) ∧
    (∀ u k, due.head? = some l → token = some (u, k) → ¬ (u = s.cur.u ∧ k ∈ due) →
      exec (.txopen q off) s = .next (s.queueToken s.cur.u l))) ∧
  (∀ (q : BitVec 3) (a : Fin 64) (s : State), uniReady q s = true → s.issuer.reck = false →
    exec (.txcancel q a) s = .next (s.stands.abortLanes s.cur.u (s.past.lanesWhere s.cur.members Thread.inTx) 0x01
      ((s.issuer.u.getS a.val).toNat % 256)))

/-- R206, R207, R247: TXCLOSE is a yield that leaves members outside transactions alone. Where no lane holds the serial token and the
warp's older accesses have been performed, a lone member whose logged sectors all hold what it read, and whose page-table entries hold no
poison, commits: its writes are applied, p6 := 1 and ABC := 0; one whose sectors differ aborts with CODE 0x02 and p6 := 0, and memory is
as before. R206, R247: applying a transaction writes exactly the bytes it logged, each with the value logged last. -/
def Obligations.TransactionsClose : Prop :=
  (∀ (q : BitVec 3) (l : Nat) (s r y : State), uniReady q s = true → s.quiet = true → s.issuer.reck = false →
    let x := s.past.lane l
    ((lanesOf s.cur.members).all (fun l => !((s.past.lane l).inTx)) = true → YieldDone (.txclose q) s id fun _ t => t) ∧
    (l < 32 → s.cur.members = laneBit l → x.inTx = true → x.serial = false → s.calm = true →
      s.stands.tokenOf s.issuer.part = none → s.stands.txMustWait s.past x.sp = false →
      (s.stands.validate s.issuer.part x.sp.uncs x.sp.rlog = (r, .same) → r.txEntries s.past x.sp = (y, false) →
        ∃ t, exec (.txclose q) s = .next t ∧
        t.mem = ((y.applyTx s.issuer.part s.cur.u x.sp).txDirty s.past x.sp).mem ∧
        ((t.unit s.cur.u).lane l).getP 6 = true ∧ ((t.unit s.cur.u).lane l).abc = 0#32 ∧ ((t.unit s.cur.u).lane l).inTx = false) ∧
      (s.stands.validate s.issuer.part x.sp.uncs x.sp.rlog = (r, .differs) → ∃ t, exec (.txclose q) s = .next t ∧ t.mem = s.mem ∧
        ((t.unit s.cur.u).lane l).getP 6 = false ∧ ((t.unit s.cur.u).lane l).abc.toNat % 128 = 0x02 ∧
        ((t.unit s.cur.u).lane l).inTx = false))) ∧
  (∀ (pn u k : Nat) (sp : Spec) (s : State),
    (s.applyTx pn u sp).byte k = sp.wlog.foldl (fun b p => if p.1 = k then p.2 else b) (s.byte k))

/-- R249, R250: a cause that arises in lanes that are all in regions raises no trap: each aborts with CODE 0x05, all as one event that
ABLANES names, and memory is untouched. R203, R244, R250: an aborted transaction leaves its target, ABC with CODE, XCODE and the bit that
says the next attempt is serial, the call stack cut back to its depth at TXOPEN, no latch, no log and the abort count at its offset one
higher. -/
def Obligations.AbortsRestore : Prop :=
  (∀ (u : Nat) (m tpc : Word) (q : List Entry) (r : Nat → TrapRec) (s : State), m ≠ 0#32 →
    (lanesOf m).all (fun l => ((s.unit u).lane l).inRegion && !((s.unit u).lane l).serial) = true →
    let e := s.raiseLanes u m tpc q r
    e.mem = s.mem ∧ e.teams = s.teams ∧ (e.unit u).u.ablanes = m ∧
    ∀ l, (e.unit u).lane l = if m.getLsbD l then ((s.unit u).lane l).abort 0x05 0 else (s.unit u).lane l) ∧
  (∀ (t : Thread) (code xcode slot depth : Nat) (tgt off : Word), code < 128 → depth ≤ t.stack.length →
    t.sp.region = .tx tgt slot depth off false →
    let a := t.abort code xcode
    let n := if t.sp.abOff = off then Nat.min 4 (t.sp.abCount + 1) else 1
    a.pc = tgt ∧ a.slot = slot ∧ a.inRegion = false ∧ a.sp.wlog = [] ∧ a.sp.rlog = [] ∧ a.stack.length = depth ∧ a.v = t.v ∧
    a.l0 = none ∧ a.l1 = none ∧ a.l2 = none ∧ a.l3 = none ∧ a.sp.abOff = off ∧ a.sp.abCount = n ∧
    a.abc.toNat = code + (if n = 4 then 128 else 0) + 256 * (xcode % 256))

/-! ### Tiles, engines and the matrix path (R120 to R142, R176 to R199) -/

/-- R130, R179 to R181: TILEDEF and METADEF of an EMPTY tile without a held fault record base, extent and kind, where the base is a
multiple of 256 and the extent positive and inside the window; TILEREL makes a READY tile without readers EMPTY, and else waits for it;
TSTATE reads state, kind, readers and base / 256. -/
def Obligations.TileWordsComplete : Prop :=
  ∀ (q : BitVec 3) (d t a b : Fin 64) (tm : Nat) (s : State), uniReady q s = true → s.stands.tileTeam s.past = some tm →
    s.issuer.held.all (fun h => !(h.team == tm && h.tile == some t.val)) = true →
    let e := s.tile tm t.val
    let base := (s.issuer.u.getS a.val).toNat
    let ext := (s.issuer.u.getS b.val).toNat
    let sets := fun (i : Instr) (f : TileEnt → TileEnt) => exec i s = .next (s.stands.modTile tm t.val f)
    (s.noRegion = true → e.f = false → e.st = .empty → base % 256 = 0 → 0 < ext → base + ext ≤ (s.team tm).win →
      sets (.tiledef q t a b) (fun e => { e with base, extent := ext, kind := false, f := false }) ∧
      sets (.metadef q t a b) fun e => { e with base, extent := ext, kind := true, f := false }) ∧
    (s.noRegion = true → e.st = .ready ∧ e.readers = 0 → sets (.tilerel q t) fun e => { e with st := .empty }) ∧
    (s.noRegion = true → ¬ (e.st = .ready ∧ e.readers = 0) → exec (.tilerel q t) s =
      .next (s.modLanes s.cur.u s.cur.members fun _ x => { x with wait := .tile t.val })) ∧
    (let st := match e.st with
      | .empty => 0
      | .filling => 1
      | .ready => 2
      | .draining => 3
     ∃ r, exec (.tstate q d t) s = .next r ∧ r.mem = s.mem ∧ r.teams = s.teams ∧
      Went s r fun u => u.setS d.val (BitVec.ofNat 32 (st + (if e.kind then 4 else 0) + 8 * (e.readers % 256) + 2048 * (e.base / 256))))

/-- R131, R140, R142, R176, R182: an engine word outside regions, once the unit's older words have finished, whose tile is as R131 asks
and under no held fault, whose record is aligned and inside the window, and whose chain has room, appends its command with the operands
and CCNT that it captures, and moves its tile: CPYIN and GATHER an EMPTY one to FILLING, CPYOUT and SCATTER a READY one to DRAINING.
Memory and the uniform state stay. R131, R182: what an engine word does whose tile or record is not as it must be, once the members'
older words have finished: CPYIN and GATHER raise Tile-State with reason 7 on a tile that is not EMPTY and Tile-Bounds with the tile
number on one without extent, CPYOUT and SCATTER wait for one that is not READY; then every word with a local record raises Misaligned
where the record is not 64-byte aligned, and Protection where it does not lie inside the window, with its address. -/
def Obligations.EngineWordsQueueOrTrap : Prop :=
  (∀ (q : BitVec 3) (t : Fin 64) (bp dp : Fin 8) (b : Fin 64) (tm : Nat) (s : State), uniReady q s = true → s.noRegion = true →
    s.calm = true → s.stands.tileTeam s.past = some tm →
    let u := s.issuer.u
    let e := s.tile tm t.val
    let sval := u.getS b.val
    let free := s.issuer.held.all (fun h => !(h.team == tm && h.tile == some t.val)) = true
    let fits := fun (n : Nat) => sval.toNat % 64 = 0 ∧ sval.toNat + n ≤ (s.team tm).win
    let queues := fun (i : Instr) (op : CmdOp) (cls : Nat) (tile : Option Nat) (p p2 : DWord) (v : Word) =>
      (s.cmds.filter fun c => c.team == tm && c.cls == cls).length < 16 →
      ∃ r c, exec i s = .next r ∧ r.mem = s.mem ∧ r.cmds = s.cmds ++ [c] ∧ c.id = s.nextId ∧ c.u = s.cur.u ∧ c.team = tm ∧
        c.cls = cls ∧ c.op = op ∧ c.tile = tile ∧ c.bp = p ∧ c.bp2 = p2 ∧ c.sval = v ∧ c.ccnt = u.ccnt ∧ c.st = .queued ∧
        (r.unit s.cur.u).u = u ∧
        (∀ n, r.tile tm n = if tile = some n then (match op with
            | .cpyin | .gather => { s.tile tm n with st := .filling }
            | .cpyout | .scatter => { s.tile tm n with st := .draining }
            | _ => s.tile tm n) else s.tile tm n)
    (free → e.st = .empty → 0 < e.extent →
      (fits 192 → queues (.cpyin q t bp b) .cpyin 1 (some t.val) (u.getPair bp.val) 0#64 sval) ∧
      (fits 64 → queues (.gather q t bp b) .gather 2 (some t.val) (u.getPair bp.val) 0#64 sval)) ∧
    (free → e.st = .ready →
      (fits 192 → queues (.cpyout q t bp b) .cpyout 1 (some t.val) (u.getPair bp.val) 0#64 sval) ∧
      (fits 64 → queues (.scatter q t bp b) .scatter 2 (some t.val) (u.getPair bp.val) 0#64 sval)) ∧
    (fits 384 → queues (.cpygg q dp bp b) .cpygg 1 none (u.getPair bp.val) (u.getPair dp.val) sval) ∧
    (fits 64 → queues (.coll q bp b) .coll 4 none (u.getPair bp.val) 0#64 sval) ∧
    queues (.sealb q bp b) .sealb 5 none (u.getPair bp.val) 0#64 sval ∧
    queues (.sealu q bp b) .sealu 5 none (u.getPair bp.val) 0#64 sval ∧
    queues (.sealf q bp) .sealf 5 none (u.getPair bp.val) 0#64 0#32 ∧
    queues (.ckpt q bp) .ckpt 6 none (u.getPair bp.val) 0#64 0#32) ∧
  (∀ (q : BitVec 3) (t : Fin 64) (bp dp : Fin 8) (b : Fin 64) (tm : Nat) (s : State), uniReady q s = true → s.noRegion = true →
    s.quiet = true → s.stands.tileTeam s.past = some tm →
    s.issuer.held.all (fun h => !(h.team == tm && h.tile == some t.val)) = true →
    let e := s.tile tm t.val
    let sval := s.issuer.u.getS b.val
    let traps := fun (i : Instr) (cause : Nat) (ta : DWord) =>
      exec i s = .next (s.stands.raiseLanes s.cur.u s.cur.members s.cur.pc [] fun _ => trapRec cause ta)
    let waits := fun (i : Instr) => exec i s = .next (s.modLanes s.cur.u s.cur.members fun _ x => { x with wait := .tile t.val })
    let placed := fun (i : Instr) (n : Nat) => (sval.toNat % 64 ≠ 0 → traps i 0x04 (sval.setWidth 64)) ∧
      (sval.toNat % 64 = 0 → (s.team tm).win < sval.toNat + n → traps i 0x06 (sval.setWidth 64))
    (e.st ≠ .empty → traps (.cpyin q t bp b) 0x0A 7#64 ∧ traps (.gather q t bp b) 0x0A 7#64) ∧
    (e.st = .empty → e.extent = 0 → traps (.cpyin q t bp b) 0x09 (BitVec.ofNat 64 t.val) ∧
      traps (.gather q t bp b) 0x09 (BitVec.ofNat 64 t.val)) ∧
    (e.st ≠ .ready → waits (.cpyout q t bp b) ∧ waits (.scatter q t bp b)) ∧
    (e.st = .empty → 0 < e.extent → placed (.cpyin q t bp b) 192 ∧ placed (.gather q t bp b) 64) ∧
    (e.st = .ready → placed (.cpyout q t bp b) 192 ∧ placed (.scatter q t bp b) 64) ∧
    placed (.cpygg q dp bp b) 384 ∧ placed (.coll q bp b) 64)

/-- R136, R142, R199 to R201: on a Reckoner, outside regions, MSEL binds a quad of the launch's team and releases the hold, MREL releases
the hold, MZERO and MSCALE queue themselves on their core, MSCALE with the word v(8o) of each row as its factors, and MWAIT goes on once
no matrix instruction is open and none of the unit's has faulted. The factors are read at issue, which is the model's reading (log 58).
-/
def Obligations.MatrixControlCompletes : Prop :=
  ∀ (q : BitVec 3) (c : Fin 4) (co : Option (Fin 4)) (a : Fin 64) (acc : Bool) (oct : Fin 15) (tm : Nat) (s : State),
    uniReady q s = true → s.noRegion = true → s.issuer.reck = true →
    let k := s.issuer.coreKey + c.val
    let f := (s.issuer.u.getS a.val).toNat
    let room := (((s.core k).mq.filter fun o => o.u == s.cur.u).length < 8)
    let queues := fun (i : Instr) (kind : MatKind) (factor : Tab Word) => ∃ t o, exec i s = .next t ∧ t.mem = s.mem ∧ Went s t id ∧
      (t.core k).mq = (s.core k).mq ++ [o] ∧ o.u = s.cur.u ∧ o.kind = kind ∧ o.acc = acc ∧ o.factor = factor ∧
      o.ccnt = s.issuer.u.ccnt ∧ o.started = false
    (s.stands.teamOn s.issuer.grid k = some tm →
      (f + 3 < (s.team tm).warps.length → exec (.msel q c a) s =
        .next (s.stands.modCore k fun x => { x with bind := some (tm, f), hold := none })) ∧
      (room → queues (.mzero q acc c) .mzero []) ∧
      (room → (s.core k).bind.isSome = true → s.stands.quadShort k (8 * oct.val) (8 * oct.val) = false → s.stands.quadWaits k [8 * oct.val] = false →
        queues (.mscale q acc oct c) .mscale (s.stands.readRows k oct.val 1))) ∧
    (exec (.mrel q c) s = .next (s.stands.modCore k fun x => { x with hold := none })) ∧
    (s.issuer.held.all (fun h => !h.failedAdd && h.cls != 3) = true → s.matOpen s.cur.u (co.map fun c => s.issuer.coreKey + c.val) = false →
      ∃ t, exec (.mwait q co) s = .next t ∧ t.mem = s.mem ∧ t.cores = s.cores ∧ Went s t id)

/-- R121, R134 to R137, R139, R195 to R198: a matrix word of a Reckoner that holds no tile fault queues, where each of its cells has a
team of the launch on its core and on the core of its B, a bound quad, format slots that form a matrix operation, a B tile that is READY,
no metadata tile and large enough, for MMAS a metadata tile beside it that is READY and large enough, A in the hold, or in registers
below the quota and outside every held area of a quad without outstanding results, and room in the queue. MMA and MMAS read A from the
hold or from the quad's registers, add a reader to each tile, and queue on their core; H = 1 keeps what was read in the hold, H = 0
leaves it empty. MMAG is an MMA on core 0 on a board of one cell, and else queues a cell on the core of each cell of the board. That A is
read at issue is the model's reading (log 58); of an MMAG on several cells the statement says how the queues grow, and no more. R136,
R139, R178, R197, R198, R200: the Tile-State reasons of MMA in the order of its checks: 1 where no team of the launch is on the core, 2
where the core has no quad bound, 4 where the format slots do not form a matrix operation, 3 where the tile is a metadata tile. MSEL
gives 1, and 8 where the quad would reach beyond the team; MMAG from a Reckoner outside board row 0 gives 5. -/
def Obligations.MatrixWordsQueueOrTrap : Prop :=
  (∀ (q : BitVec 3) (m : MmaOps) (tm : Nat) (cells : List MatCell) (s : State), uniReady q s = true → s.noRegion = true →
    s.issuer.reck = true → s.issuer.held.all (fun h => h.tile.isNone) = true →
    let k := s.issuer.coreKey + m.core.val
    let g := s.issuer.grid
    let n := m.tile.val
    let sa := s.fslot s.issuer m.slotA.val
    let sb := s.fslot s.issuer m.slotB.val
    let can := fun (sparse : Bool) (c : MatCell) => ∃ tb, (s.teamOn g c.dst).isSome = true ∧ s.teamOn g c.b = some tb ∧
      (s.core c.src).bind.isSome = true ∧ slotsMatch sa sb = true ∧
      (s.tile tb n).kind = false ∧ tileNeed sb sparse ≤ (s.tile tb n).extent ∧ (s.tile tb n).st = .ready ∧
      (sparse = true → n ≠ 63 ∧ (s.tile tb (n + 1)).kind = true ∧ fmtDepth (slotFmt sb) / 2 * 48 ≤ (s.tile tb (n + 1)).extent ∧
        (s.tile tb (n + 1)).st = .ready) ∧
      ((s.core c.src).hold.isSome = true ∨ s.stands.quadShort c.src (8 * m.oct.val) (8 * m.oct.val + (if slotScaled sa then 8 else 7)) = false ∧
        s.stands.quadWaits c.src (aRegs m.oct.val true) = false) ∧
      s.matFull s.cur.u c.dst = false
    let queues := fun (i : Instr) (kind : MatKind) (tiles : List Nat) => ∃ t o, exec i s = .next t ∧ t.mem = s.mem ∧
      (t.core k).mq = (s.core k).mq ++ [o] ∧ o.u = s.cur.u ∧ o.kind = kind ∧ o.acc = m.acc ∧ o.z = m.z ∧ o.tile = n ∧
      o.bTeam = tm ∧ o.ccnt = s.issuer.u.ccnt ∧ o.started = false ∧ o.slotA = sa ∧ o.slotB = sb ∧
      o.a = (match (s.core k).hold with
        | some h => h.a
        | none => s.stands.readRows k m.oct.val 8) ∧
      (t.core k).hold = (if m.h then some { a := o.a, sb := o.sa } else none) ∧
      ∀ j, (t.tile tm j).readers = (s.tile tm j).readers + (if j ∈ tiles then 1 else 0)
    (s.teamOn g k = some tm → can false { dst := k, src := k, b := k } → queues (.mma q m) .mma [n]) ∧
    (s.teamOn g k = some tm → can true { dst := k, src := k, b := k } → queues (.mmas q m) .mmas [n, n + 1]) ∧
    (boardShape (s.grid g).recb = (1, 1) → exec (.mmag q m) s = exec (.mma q { m with core := 0 }) s) ∧
    (let shape := boardShape (s.grid g).recb
     shape ≠ (1, 1) → s.boardRow g shape.2 0 = some s.issuer.coreKey → s.boardCells g shape = cells.map some →
      (∀ c ∈ cells, can false c) → ∃ t, exec (.mmag q m) s = .next t ∧ t.mem = s.mem ∧
        ∀ d, (t.core d).mq.length = (s.core d).mq.length + (cells.filter fun c => c.dst == d).length)) ∧
  (∀ (q : BitVec 3) (m : MmaOps) (a : Fin 64) (tm : Nat) (s : State), uniReady q s = true → s.noRegion = true → s.quiet = true →
    s.issuer.reck = true → s.issuer.held = [] →
    let k := s.issuer.coreKey + m.core.val
    let ok := slotsMatch (s.fslot s.issuer m.slotA.val) (s.fslot s.issuer m.slotB.val)
    let shape := boardShape (s.grid s.issuer.grid).recb
    let traps := fun (i : Instr) (reason : Nat) => exec i s =
      .next (s.stands.raiseLanes s.cur.u s.cur.members s.cur.pc [] fun _ => trapRec 0x0A (BitVec.ofNat 64 reason))
    (s.teamOn s.issuer.grid k = none → traps (.mma q m) 1 ∧ traps (.msel q m.core a) 1) ∧
    (s.teamOn s.issuer.grid k = some tm →
      ((s.core k).bind = none → traps (.mma q m) 2) ∧
      ((s.core k).bind ≠ none → ok = false → traps (.mma q m) 4) ∧
      ((s.core k).bind ≠ none → ok = true → (s.tile tm m.tile.val).kind = true → traps (.mma q m) 3) ∧
      ((s.team tm).warps.length ≤ (s.issuer.u.getS a.val).toNat + 3 → traps (.msel q m.core a) 8)) ∧
    (shape ≠ (1, 1) → s.boardRow s.issuer.grid shape.2 0 ≠ some s.issuer.coreKey → traps (.mmag q m) 5))

/-! ### Issue, guards, legality and traps (R28 to R33, R46, R56 to R60, R163, R286 to R292) -/

/-- R46: a word, whatever it is, whose guard is false in every member does nothing but move the members past it. -/
def Obligations.GuardedOffWordsSkip : Prop :=
  ∀ (i : Instr) (w : Word) (r : List Word) (s : State), encode i = w :: r → s.fresh = true →
    let g : BitVec 3 := (w >>> 21).setWidth 3
    (w.getLsbD 31 = true → qguard s.issuer.u g = false → exec i s = .next s.stands) ∧
    (w.getLsbD 31 = false → (if s.issuer.reck then g ≠ 7#3 else s.actMask g = 0#32) → exec i s = .next s.stands)

/-- R56: a word that acts on the other kind of unit than its own raises Wrong-Set in every member, at the word, before every check but
those of the fetch (R60): every L-set word on a Reckoner, and the words of the table that only a SIMT warp or only a Reckoner issues. R57
to R60, R163: a reserved word that acts raises Reserved-Instruction in the whole group, at the word; a fetch outside the overlay, or
after a return into a slot whose tag has changed, raises Overlay-Tag in the threads that would issue. R31, R33, R60: an L-set word of any
shape that names or implies a register at or above the quota raises Quota in the whole group with no effect; one that is legal and reads
a lost latch raises Latch-Lost, with TADDR the lowest such latch, in the lanes where it is lost, here every lane in which it acts, all of
them in regions or none in serial mode. R46, R48, R60: an instruction whose literal words lie past the end of its overlay raises Literal
with TADDR 0 in the whole group, at the word, where it acts, whatever it would have raised after that; guarded off it does nothing but
move the members past it. -/
def Obligations.IllegalWordsTrap : Prop :=
  (∀ (i : Instr) (w : Word) (r : List Word) (s : State), encode i = w :: r → s.fresh = true → s.quiet = true →
    let g : BitVec 3 := (w >>> 21).setWidth 3
    let op := w.toNat / 2 ^ 24 % 128
    let traps := exec i s = .next ((s.issued.setUnit s.cur.u s.joined).raiseLanes s.cur.u s.cur.members s.cur.pc [] fun _ => trapRec 0x02 0#64)
    (w.getLsbD 31 = false → s.issuer.reck = true → g = 7#3 → traps) ∧
    (w.getLsbD 31 = true → qguard s.issuer.u g = true →
      (if s.issuer.reck then op ∈ [0x1A, 0x1B, 0x2D, 0x2E, 0x2F, 0x41, 0x44, 0x45, 0x46, 0x47, 0x48, 0x67, 0x68, 0x69]
        else 0x57 ≤ op ∧ op ≤ 0x5E) → traps)) ∧
  (∀ (op : BitVec 7) (g : BitVec 3) (rest : BitVec 21) (s : State), s.fresh = true → s.quiet = true →
    let traps := fun (i : Instr) => exec i s =
      .next ((s.issued.setUnit s.cur.u s.joined).raiseLanes s.cur.u s.cur.members s.cur.pc [] fun _ => trapRec 0x01 0#64)
    (s.issuer.reck = false → s.actMask g ≠ 0#32 → traps (.reservedOpcodeWord false op g rest)) ∧
    (qguard s.issuer.u g = true → 0x6C ≤ op.toNat → traps (.reservedOpcodeWord true op g rest)) ∧
    ((s.inOverlay s.cur.pc = false ∨ (s.issuer.lane ((lanesOf s.cur.members).headD 0)).stale = true) →
      exec .fetchOutsideOverlay s =
        .next (s.issued.raiseLanes s.cur.u s.cur.members s.cur.pc [] fun _ => trapRec 0x10 0#64))) ∧
  (∀ (g : BitVec 3) (d : Dest) (d1 : Fin 120) (d2 : Fin 119) (d4 : Fin 117) (d8 : Fin 113) (e : Data) (p : Fin 7) (x y n : Fin 8) (v : Fin 64)
    (a b : Src) (md : BitVec 4) (bp : Fin 8) (h sc od : BitVec 2) (o acc : Bool) (im : BitVec 7) (cb : Fin 24) (k : Nat) (s : State),
    s.fresh = true → s.quiet = true → s.issuer.reck = false → s.actMask g ≠ 0#32 →
    let traps := fun (i : Instr) (regs lat : List Nat) =>
      (regsAbove regs s.issuer.quota = true → exec i s =
        .next ((s.issued.setUnit s.cur.u s.joined).raiseLanes s.cur.u s.cur.members s.cur.pc [] fun _ => trapRec 0x0C 0#64)) ∧
      (s.joined.namesHeld regs = false → regsAbove regs s.issuer.quota = false →
        (lanesOf (s.actMask g)).all (fun l => (s.joined.lane l).lostLatch lat == some k) = true →
        (lanesOf (s.actMask g)).all (fun l => (s.joined.lane l).inRegion) || (lanesOf (s.actMask g)).all (fun l => !((s.joined.lane l).serial)) →
        exec i s = .next (s.stands.raiseLanes s.cur.u (s.actMask g) s.cur.pc [] fun _ => trapRec 0x03 (BitVec.ofNat 64 k)))
    let ra := srcRegs a
    let la := srcLatches a
    let slot := s.fslot s.issuer n.val
    (∀ i ∈ [Instr.mov g d a, .iabs g d a, .clz g d a, .popc g d a, .brev g d a, .frcp g d a, .frsq g d a, .fsqrt g d a, .fexp2 g d a,
        .flog2 g d a, .fsinpi g d a, .fcospi g d a, .ftanh g d a, .cvtfi g d a, .cvtif g d a, .upklo g d a, .upkhi g d a,
        .qscale g d a n md], traps i (destRegs d ++ ra) la) ∧
    (oneLit a b = true → ∀ i ∈ [Instr.iadd g d a b, .isub g d a b, .imul g d a b, .imulh g d a b, .imulhu g d a b, .imin g d a b,
        .imax g d a b, .umin g d a b, .umax g d a b, .andOp g d a b, .orOp g d a b, .xorOp g d a b, .andn g d a b, .shl g d a b,
        .shr g d a b, .sar g d a b, .bfe g d a b, .bfes g d a b, .sel g d a b, .fadd g d a b, .fsub g d a b, .fmul g d a b, .fmin g d a b,
        .fmax g d a b, .fscale g d a b, .badd2 g d a b, .bmul2 g d a b, .bmax2 g d a b, .hadd2 g d a b, .hmul2 g d a b, .hmax2 g d a b,
        .pkbf g d a b, .pkhf g d a b, .cvtsr g d a b], traps i (destRegs d ++ ra ++ srcRegs b) (la ++ srcLatches b)) ∧
    (oneLit a b = true → ∀ i ∈ [Instr.imac g d1 a b, .bfi g d1 a b, .fmac g d1 a b, .bmac2 g d1 a b, .hmac2 g d1 a b],
      traps i ([d1.val] ++ ra ++ srcRegs b) (la ++ srcLatches b)) ∧
    (oneLit a b = true → traps (.fmal g d a b) (destRegs d ++ ra ++ srcRegs b) ([implicitL0] ++ la ++ srcLatches b)) ∧
    (oneLit a b = true → ∀ i ∈ [Instr.icmpeq g p a b, .icmpne g p a b, .icmplt g p a b, .icmple g p a b, .ucmplt g p a b, .ucmple g p a b,
        .fcmpeq g p a b, .fcmplt g p a b, .fcmple g p a b, .fcmpun g p a b], traps i (ra ++ srcRegs b) (la ++ srcLatches b)) ∧
    (∀ i ∈ [Instr.cvtn g d a n md, .cvtw g d a n md], traps i (destRegs d ++ ra) (lcLatches slot ++ la)) ∧
    (∀ i ∈ [Instr.shfl g d d1 b, .lswap g d d1 b, .hswap g d d1 b], traps i (destRegs d ++ [d1.val] ++ srcRegs b) (srcLatches b)) ∧
    (∀ i ∈ [Instr.pand g p x y, .por g p x y, .pxor g p x y], traps i (predRegs x.val ++ predRegs y.val) []) ∧
    traps (.pnot g p x) (predRegs x.val) [] ∧ traps (.vbc g d v) (destRegs d) [] ∧
    (∀ i ∈ [Instr.ptov g d x, .ballot g d x], traps i (destRegs d ++ predRegs x.val) []) ∧
    (∀ i ∈ [Instr.vtop g p a, .trapl g a, .rollb g a], traps i ra la) ∧
    (∀ i ∈ [Instr.ldg8 g d a bp h o, .ldg16 g d a bp h o, .ldg32 g d a bp h o, .ldl32 g d a im], traps i (destRegs d ++ ra) ([] ++ la)) ∧
    (∀ i ∈ [Instr.stg8 g e a bp h o, .stg16 g e a bp h o, .stg32 g e a bp h o, .radd g e a bp sc o, .raddf g e a bp sc o,
        .rmax g e a bp sc o, .stl32 g e a im], traps i (dataRegs e ++ ra) (dataLatches e ++ la)) ∧
    (∀ i ∈ [Instr.aadd g d1 a bp sc od, .amin g d1 a bp sc od, .amax g d1 a bp sc od, .aand g d1 a bp sc od, .aor g d1 a bp sc od,
        .axchg g d1 a bp sc od], traps i ([d1.val] ++ ra) ([] ++ la)) ∧
    (∀ i ∈ [Instr.ldg64 g d2 a bp h o, .stg64 g d2 a bp h o, .aadd64 g d2 a bp sc od, .acas g d2 a bp sc od, .ldl64 g d2 a im,
        .stl64 g d2 a im], traps i (regSpan d2.val 2 ++ ra) ([] ++ la)) ∧
    (∀ i ∈ [Instr.ldg128 g d4 a bp h o, .stg128 g d4 a bp h o, .ldl128 g d4 a im, .stl128 g d4 a im],
      traps i (regSpan d4.val 4 ++ ra) ([] ++ la)) ∧
    (∀ i ∈ [Instr.drain g d8 acc cb, .accw g d8 acc cb], traps i (regSpan d8.val 8) [])) ∧
  (∀ (run : Instr → State → Out State) (w : Word) (ws : List Word) (s : State), s.fresh = true → s.quiet = true →
    decode (w :: ws) = .error .literalMissing →
    let g : BitVec 3 := (w >>> 21).setWidth 3
    let acts := if w.getLsbD 31 then qguard s.issuer.u g else if s.issuer.reck then g == 7#3 else s.actMask g != 0#32
    (acts = true → runWords run (w :: ws) s =
      .next ((s.issued.setUnit s.cur.u s.joined).raiseLanes s.cur.u s.cur.members s.cur.pc [] fun _ => trapRec 0x11 0#64)) ∧
    (acts = false → runWords run (w :: ws) s = .next s.stands))

/-- R28: a word that writes a v register or discards its result shifts the latches: L0 takes the result, and L1, L2 and L3 what L0, L1
and L2 held; a result still to come moves with its position, and past L3 it is lost. -/
def Obligations.ResultsShiftTheLatches : Prop :=
  ∀ (t : Thread) (n : Fin 120) (x : Word) (d : Dest),
    (t.result d x).l0 = some x ∧ (t.result d x).l1 = t.l0 ∧ (t.result d x).l2 = t.l1 ∧ (t.result d x).l3 = t.l2 ∧
    (∀ r, (t.result (.reg n) x).getV r = if r = n.val then x else t.getV r) ∧ (∀ r, (t.result .discard x).getV r = t.getV r) ∧
    (t.result d x).flights.map (·.latch) = t.flights.map fun f => if f.latch < 3 then f.latch + 1 else 7

/-- R286, R289, R290: a live thread that is not masked and whose unit has a handler enters it: trap mode and the mask 1, the latches
invalid, the PC at TVEC in the slot it executes; the frame holds cause, TCONF, TADDR, TPC, slot, the count of queued words, the latches
with their valid bits, and each queued word with its operands. The other threads, and memory, are as before. R168, R291: a thread that
enters its handler and returns from it with the frame as it was written is as it was before, at TPC, with its latches, its previous issue
and the queued words to be re-issued. R292: a trap in a thread of a SIMT warp that is masked, or whose unit has no handler, is fatal:
every thread of the team stops, and the kernel receives a team fault whose cause is Double-Trap with the trap's cause as its origin, or
the trap's cause. -/
def Obligations.TrapsEnterAndReturn : Prop :=
  (∀ (u l : Nat) (tpc : Word) (q : List Entry) (r : TrapRec) (s : State), l < 32 → ((s.unit u).lane l).status = .live →
    ((s.unit u).lane l).mask = false → (s.unit u).u.tvec ≠ 0xFFFFFFFF#32 →
    let t := (s.unit u).lane l
    let e := s.takeTrap u l tpc q r
    let x := (e.unit u).lane l
    let all := q ++ t.replay
    e.mem = s.mem ∧ e.teams = s.teams ∧ (∀ k, k ≠ l → (e.unit u).lane k = (s.unit u).lane k) ∧ (∀ k, k ≠ u → e.unit k = s.unit k) ∧
    x.trapMode = true ∧ x.mask = true ∧ x.pc = (s.unit u).u.tvec ∧ x.slot = t.slot ∧ x.status = .live ∧ x.v = t.v ∧ x.p = t.p ∧
    x.l0 = none ∧ x.l1 = none ∧ x.l2 = none ∧ x.l3 = none ∧
    x.frameWord 0 = BitVec.ofNat 32 r.cause ∧ x.frameWord 1 = r.conf ∧ x.frameWord 2 = r.taddr.setWidth 32 ∧
    x.frameWord 3 = (r.taddr >>> 32).setWidth 32 ∧ x.frameWord 4 = tpc ∧ x.frameWord 5 = BitVec.ofNat 32 t.slot ∧
    x.frameWord 6 = BitVec.ofNat 32 all.length ∧
    (∀ k, k < 4 → ∀ v, t.latch k = some v → x.frameWord (8 + k) = v) ∧
    (∀ k, k < 4 → (x.frameWord 12).getLsbD k = (t.latch k).isSome) ∧
    (∀ n f, all[n]? = some f → (x.frameEntry n).word = f.word ∧ (x.frameEntry n).lit = f.lit ∧ (x.frameEntry n).latch = f.latch % 8 ∧
      (x.frameEntry n).base = f.base ∧ (x.frameEntry n).a = f.a ∧ (x.frameEntry n).b = f.b ∧
      ∀ k, k < 4 → (x.frameEntry n).d.getD k 0#32 = f.d.getD k 0#32)) ∧
  (∀ (t : Thread) (tvec tpc : Word) (q : List Entry) (r : TrapRec) (dead : Nat → Word) (tag : Nat → Option Nat), t.slot < 2 →
    q.length ≤ 8 → (∀ e ∈ q, e.latch < 8 ∧ e.d.length = 4) →
    let x := (t.enterTrap tvec tpc q r dead tag).tret false tag
    x.pc = tpc ∧ x.slot = t.slot ∧ x.stale = false ∧ x.l0 = t.l0 ∧ x.l1 = t.l1 ∧ x.l2 = t.l2 ∧ x.l3 = t.l3 ∧ x.mask = false ∧
    x.trapMode = false ∧ x.lastGroup = t.lastGroup ∧ x.replay = q ∧ x.v = t.v ∧ x.p = t.p ∧ x.stack = t.stack ∧ x.abc = t.abc) ∧
  (∀ (u l : Nat) (tpc : Word) (q : List Entry) (r : TrapRec) (s : State), ((s.unit u).lane l).status = .live →
    (s.unit u).reck = false →
    let t := (s.unit u).lane l
    let team := s.team (s.unit u).team
    let e := s.takeTrap u l tpc q r
    let pn := (s.grid team.grid).part
    (t.mask = true ∨ (s.unit u).u.tvec = 0xFFFFFFFF#32) → team.st = .placed →
    (∀ k ∈ team.warps, (s.unit k).live = true → (e.unit k).live = false ∧ (e.unit k).liveMask = 0#32) ∧
    ∃ pre, (e.part pn).events = (s.part pn).events ++ pre ++
      [eventRec 4 (if t.mask then 0x15 else r.cause) (if t.mask then r.cause else 0) 0 (s.grid team.grid).num team.idx r.taddr.toNat tpc.toNat])

/-- R6, R45, R46, R154: the words that name no memory leave every byte of main memory as it was, whatever they come to, a trap included:
the L-set words but the global ones, and the uniform words of the integer, float, test, special-register and control families. -/
def Obligations.WordsWithoutMemoryLeaveIt : Prop :=
  ∀ (i : Instr) (w : Word) (r : List Word) (s t : State), encode i = w :: r →
    let op := w.toNat / 2 ^ 24 % 128
    (w.getLsbD 31 = false ∧ (op < 0x52 ∨ (0x5C ≤ op ∧ op < 0x62) ∨ 0x6D ≤ op) ∨
      w.getLsbD 31 = true ∧ (op < 0x22 ∨ (0x24 ≤ op ∧ op < 0x2D) ∨ op = 0x2E ∨ op = 0x2F ∨ (0x5F ≤ op ∧ op < 0x6C))) →
    exec i s = .next t → t.mem = s.mem

/-! ### Memory, machine, encoding -/

/-- R6, R217, R235: a store that completes no race leaves its bytes at its place and every other byte as it was; a load gives the bytes
there and changes none; an atomic on a sound line gives the old value, little-endian, and writes the new one. R217, R234, R235, R282: a
load of a poisoned line gives poison and no bytes, and an atomic there performs nothing, but a reduction is performed; an access whose
race test finds another agent is not performed and leaves memory as it was. -/
def Obligations.AccessesArePerformed : Prop :=
  (∀ (a : Acc1) (bs : List Byte) (o : Option (BitVec 2)) (op : AtomOp) (x : DWord) (y : Word) (sc od : BitVec 2) (s : State),
    (s.raceTest a true o = none → bs.length = a.len → (s.perfStore a bs o).2 = .ok () ∧
      (s.perfStore a bs o).1.bytes a.key a.len = bs ∧
      ∀ k, k < a.key ∨ a.key + a.len ≤ k → (s.perfStore a bs o).1.byte k = s.byte k) ∧
    (s.raceTest a false o = none → lineSound s a.key = true →
      (s.perfLoad a o).2 = .ok (s.bytes a.key a.len) ∧ (s.perfLoad a o).1.mem = s.mem) ∧
    (s.raceTest a true (some sc) = none → lineSound s a.key = true →
      let old : DWord := BitVec.ofNat 64 (leNat (s.bytes a.key (atomSize op)))
      let e := s.perfAtomic a op x y sc od
      e.2 = .ok old ∧ e.1.bytes a.key (atomSize op) = leBytes (atomSize op) (atomApply op old x y).toNat ∧
      ∀ k, k < a.key ∨ a.key + atomSize op ≤ k → e.1.byte k = s.byte k)) ∧
  (∀ (a : Acc1) (bs : List Byte) (o : Option (BitVec 2)) (op : AtomOp) (x : DWord) (y : Word) (sc od : BitVec 2) (g : Agent) (s : State),
    (s.poisoned (a.key / 128) = true → (s.perfLoad a o).2 = .error .poison ∧ (s.perfLoad a o).1.mem = s.mem) ∧
    (s.poisoned (a.key / 128) = true → reduces op = false →
      (s.perfAtomic a op x y sc od).2 = .error .poison ∧ (s.perfAtomic a op x y sc od).1.mem = s.mem) ∧
    (s.raceTest a true (some sc) = none → reduces op = true → ∃ old : DWord, (s.perfAtomic a op x y sc od).2 = .ok old ∧
      (s.perfAtomic a op x y sc od).1.bytes a.key (atomSize op) = leBytes (atomSize op) (atomApply op old x y).toNat) ∧
    (s.raceTest a true o = some g → s.perfStore a bs o = (s, .error (.race g))) ∧
    (lineSound s a.key = true → s.raceTest a false o = some g →
      (s.perfLoad a o).2 = .error (.race g) ∧ (s.perfLoad a o).1.mem = s.mem))

/-- R300, R307, R335: after power-on reset nothing of a slice is ready and ACTCTL holds its reset value. That there is power, that every
slice is FREE without an owner and no partition is fused when power first comes up, and with it no grid, unit or command known, is the
model's choice (log 1); so is the IRQROUTE of a slice that nobody owns (log 101). The model's memory form (log 2): after reset memory
lists nothing and is in its canonical form. -/
def Obligations.ResetState : Prop :=
  (State.reset.powered = true ∧ State.reset.parts = [] ∧ State.reset.grids = [] ∧ State.reset.units = [] ∧ State.reset.teams = [] ∧
  State.reset.cmds = [] ∧ State.reset.agenda = [] ∧ State.reset.cur.active = false ∧ State.reset.slices.length = 24 ∧
  ∀ i, i < 24 → (State.reset.slice i).st = .free ∧ (State.reset.slice i).srdy = 0#32 ∧ (State.reset.slice i).part = none ∧
    (State.reset.slice i).irqroute = 0x80000000#32 ∧ (State.reset.slice i).actctl = 0x01E3C78F#32) ∧
  (Memory.wf State.reset = true ∧ ∀ k, State.reset.byte k = 0#8)

/-- The model's memory form (log 2): every step from a state whose memory is in canonical form leads to one in canonical form, so that
equal memories are equal lists. -/
def Obligations.EveryStepKeepsMemoryCanonical : Prop :=
  ∀ (s t : State), Memory.wf s = true → step s = .next t → Memory.wf t = true

/-- R37, R41, R47: a Reckoner's turn in which no interrupt is taken fetches the word at its PC and runs the instruction it decodes to,
and leaves nothing being issued; so does an issue slot with one warp bound, which then keeps its account of the issue (R25). The
instruction is run once the uniform loads whose registers it reads have completed (R82); one that does not issue then is run as things
stand. What moves, and when, is the model's choice (log 4). -/
def Obligations.StepRunsTheDecodedWord : Prop :=
  ∀ (sl n slot u : Nat) (c : Choice) (r : List Choice) (i : Instr) (s t : State), s.powered = true → s.agenda = c :: r →
    let now := { s.tickOn with agenda := r }
    s.tickOn.aged = none → s.tickOn.lapsed = none →
    let at_ := fun (s : State) =>
      let m := s.groupOf u
      let x := (s.unit u).lane ((lanesOf m).headD 0)
      let o := s.ovl (s.unit u) x.slot
      let ws := o.wordsAt x.pc
      let y := s.atWord u m (wordLen (ws.headD 0#32))
      m ≠ 0#32 ∧ x.stale = false ∧ o.outside x.pc = false ∧ decode ws = .ok i ∧
        (exec i (y.settleFor i) = .next t ∧ t.cur.done = true ∨
          ∃ z, exec i (y.settleFor i) = .next z ∧ z.cur.done = false ∧ exec i y = .next t)
    (c = .reck sl n → now.reckOf sl n = some u → now.reckUint u = false → at_ now → step s = .next t.clearCur) ∧
    (c = .issue sl n slot → now.slotOrder sl n slot = [u] → at_ (now.startIssue u) → t.cur.done = true →
      (now.unit u).sched.hold < holdLimit → step s = .next (t.clearCur.slotIssued (64 * sl + n) slot u []))

/-- R42 to R48: for every word instruction with fields that the encoding admits, the decoder reads from its words, with whatever words
follow, the instruction itself: no operand is dropped. -/
def Obligations.DecodeEncodeRoundTrip : Prop :=
  ∀ (i : Instr) (r : List Word), i.wf = true → encode i ≠ [] → decode (encode i ++ r) = .ok i

/-- R42, R43, R45 to R49, R54, R55, R57: words that the spec writes out decode to the instructions it says they are. -/
def Obligations.SpecWordsDecode : Prop :=
  (decode [0x12E03EFE#32, 0x00000002#32]).toOption = some (.shl 7#3 (.reg 0) .tid (.lit 2#32)) ∧
  (decode [0x8AE61870#32]).toOption = some (.sxor 7#3 12 12 14) ∧
  (decode [0x2BE501F9#32]).toOption = some (.fmac 7#3 20 (.reg 3) (.latch 1)) ∧
  (decode [0x56621420#32]).toOption = some (.ldg128 3#3 8 (.reg 40) 2 0#2 false) ∧
  (decode [0x8E4F3DFD#32]).toOption = some (.saddi 2#3 30 30 0x1FD#9) ∧
  (decode [0xD8EDD14A#32]).toOption = some (.mma 7#3 { slotA := 3, slotB := 3, acc := true, h := false, z := true, tile := 5, oct := 2, core := 2 }) ∧
  (decode [0x03E0FEFE#32, 0xFFFFFFFF#32]).toOption = some (.iadd 7#3 (.reg 3) .tid (.lit 0xFFFFFFFF#32)) ∧
  (decode [0x4CE501A0#32]).toOption = some (.qscale 7#3 (.reg 20) (.reg 3) 2 0#4) ∧
  (decode [0xE7E18E00#32]).toOption = some (.qany 7#3 3 7) ∧
  (decode [0xC4E00034#32, 0x00000001#32]).toOption = some (.tryOp 7#3 0x34#21 1#32) ∧
  (decode [0x73403F00#32, 0x00000001#32]).toOption = some (.rollb 2#3 (.lit 1#32)) ∧
  (decode [0xCDE00480#32]).toOption = some (.cpyin 7#3 0 2 16)

/-! ### What befalls threads (R25, R27, R30, R162, R164, R170, R172, R217, R274, R288, R321) -/

/-- R30, R217, R252, R257, R258: a global load in flight that may be performed, on a sound line and with no race, is performed: its
registers, the latch that awaits it and p7 := 1; on a page that is not resident it delivers zeros with p7 := 0. An atomic gives the old
value and writes the new one; every other byte but the page-table entry's stays. R217, R253, R259: a store in flight that may be
performed, and completes no race, leaves its data at its address; a reduction adds into its word; p7 := 1, and every other byte but the
page-table entry's stays. On a page that is not resident neither has an effect, and p7 := 0. -/
def Obligations.FlightsArePerformed : Prop :=
  (∀ (u seq l : Nat) (f : Flight) (s r : State) (x : Xlat) (c : Loc), performable s u seq l f = true →
    let a := flightAcc s r u f x c
    let acq := if (wordO f.word).getLsbD 0 then some 2#2 else none
    (∀ n, f.kind = .load n → Reaches s u f r x c → lineSound r c.key = true → r.raceTest a false acq = none →
      ∃ t, exec (.loadDataReturn u seq (laneBit l)) s = .next t ∧ t.mem = r.mem ∧
        OneLane s t u l fun y => y.finish f (.values (loadWords (r.bytes c.key n)) true)) ∧
    (∀ n, f.kind = .load n → s.check (s.unit u).part (s.asid (s.unit u)) (s.unit u).slice f.va n false = (r, .nonres) →
      ∃ t, exec (.loadDataReturn u seq (laneBit l)) s = .next t ∧ t.mem = r.mem ∧
        OneLane s t u l fun y => y.finish f (.values (loadWords (List.replicate n 0#8)) false)) ∧
    (∀ op, f.kind = .atomic op → Reaches s u f r x c → lineSound r c.key = true → r.raceTest a true (some (wordM f.word)) = none →
      (∀ k, x.entryByte k = true → k < c.key ∨ c.key + atomSize op ≤ k) →
      let old : DWord := BitVec.ofNat 64 (leNat (r.bytes c.key (atomSize op)))
      ∃ t, exec (.loadDataReturn u seq (laneBit l)) s = .next t ∧
        t.bytes c.key (atomSize op) = leBytes (atomSize op) (atomApply op old (atomArgs f.d).1 (atomArgs f.d).2).toNat ∧
        (∀ k, k < c.key ∨ c.key + atomSize op ≤ k → x.entryByte k = false → t.byte k = r.byte k) ∧
        OneLane s t u l fun y => y.finish f (.values (oldWords op old) true))) ∧
  (∀ (u seq l : Nat) (f : Flight) (s r : State) (x : Xlat) (c : Loc), performable s u seq l f = true →
    let a := flightAcc s r u f x c
    let rel := if (wordO f.word).getLsbD 1 then some 2#2 else none
    let n := f.kind.size
    let leaves := fun (bs : List Byte) => ∃ t, exec (.storePerformed u seq (laneBit l)) s = .next t ∧ t.bytes c.key n = bs ∧
      (∀ k, k < c.key ∨ c.key + n ≤ k → x.entryByte k = false → t.byte k = r.byte k) ∧
      OneLane s t u l fun y => y.finish f (.values [] true)
    (∀ m, f.kind = .store m → Reaches s u f r x c → r.raceTest a true rel = none → (storeBytes m f.d).length = m →
      (∀ k, x.entryByte k = true → k < c.key ∨ c.key + n ≤ k) → leaves (storeBytes m f.d)) ∧
    (∀ op, f.kind = .reduce op → Reaches s u f r x c → lineSound r c.key = true → r.raceTest a true (some (wordM f.word)) = none →
      (∀ k, x.entryByte k = true → k < c.key ∨ c.key + n ≤ k) →
      leaves (leBytes n (atomApply op (BitVec.ofNat 64 (leNat (r.bytes c.key n))) (atomArgs f.d).1 (atomArgs f.d).2).toNat)) ∧
    (f.kind.yields = .none → f.kind.writes = true →
      s.check (s.unit u).part (s.asid (s.unit u)) (s.unit u).slice f.va n true = (r, .nonres) →
      ∃ t, exec (.storePerformed u seq (laneBit l)) s = .next t ∧ t.mem = r.mem ∧ OneLane s t u l fun y => y.finish f .kept))

/-- R286, R288: a thread whose oldest unfinished word has faulted takes that trap, with it and every younger unfinished word in the queue
and TPC its first word not issued. R27, R249: a slot whose current warp has held it for 2^22 issues while another of equal priority was
ready ends every region of that warp with 0x07, and makes the group it would issue take Watchdog at the PC where it then stands, with
TADDR 0. R321: a live warp whose age count has reached 65,536 gains one level of effective priority, up to the lower of base + 8 and 39,
and its age count clears. -/
def Obligations.PendingTrapsAndAgingHappen : Prop :=
  (∀ (u l sl core slot : Nat) (f : Flight) (fs : List Flight) (r : TrapRec) (s : State),
    let t := (s.unit u).lane l
    ((s.unit u).frozen = none → (s.part (s.unit u).part).stalled = false → t.status = .live → t.flights = f :: fs → f.fault = some r →
      exec (.trapEntry u l) s = .next (s.takeTrap u l t.pc ((f :: fs).map Flight.entry) r)) ∧
    (Tab.find? (s.core (64 * sl + core)).cur slot = some u → 2 ^ 22 ≤ (s.unit u).sched.hold → s.groupOf u ≠ 0#32 →
      (s.unit u).busy (s.groupOf u) = false →
      let gone := s.abortLanes u 0xFFFFFFFF#32 0x07 0
      exec (.watchdog sl core slot) s = .next ((lanesOf (s.groupOf u)).foldl
        (fun s l => s.takeTrap u l ((s.unit u).lane l).pc [] (trapRec 0x0F 0#64)) gone))) ∧
  (∀ (u : Nat) (s : State), (s.unit u).live = true → 65536 ≤ (s.unit u).sched.age →
    ∃ t, exec (.warpAging u) s = .next t ∧ (t.unit u).sched.age = 0 ∧
      (t.unit u).sched.eff = Nat.min ((s.unit u).sched.eff + 1) (Nat.min ((s.unit u).sched.base + 8) 39) ∧
      (t.unit u).u = (s.unit u).u ∧ (t.unit u).th = (s.unit u).th ∧ (∀ k, k ≠ u → t.unit k = s.unit k) ∧ t.mem = s.mem)

/-- R164, R172, R274: a wait ends when what it waits for has come: a counter at its threshold, which a WAITTO reports with q0 := 1, a
WAITTO's deadline before it with q0 := 0, a sleep's end, the kernel's reply to a SYSC, which its register takes. The group that waited
goes on past its word; memory is as the counter's checks leave it. A group that finds the line of its counter poisoned takes Memory-Error
(R282), which is the model's reading of when the wait reads it (log 45). -/
def Obligations.WaitsEnd : Prop :=
  ∀ (u l hart : Nat) (va th : DWord) (sc : BitVec 2) (dl : Option DWord) (m : Word) (till : DWord) (c : Sysc) (reply : Word) (k : CtrRef)
    (s r y : State), s.wakeable u = true →
    let w := s.unit u
    let past := fun (t : State) => ∀ k, (t.unit u).lane k = if (w.sameWait l).getLsbD k then (w.lane k).wake else w.lane k
    ((w.lane l).wait = .counter va th sc dl m → s.waitRef w va = (r, some k) →
      (r.reachCtr k = (y, false) → th.toNat ≤ (y.counterVal k.key).toNat →
        ∃ t, exec (.waitSatisfied u l) s = .next t ∧ t.mem = y.mem ∧ past t ∧
          (t.unit u).u = if dl.isSome then w.u.setQ 0 true else w.u) ∧
      (r.reachCtr k = (y, true) → exec (.waitSatisfied u l) s = .next ((lanesOf (w.sameWait l)).foldl (fun s n =>
        (s.modLanes u (1#32 <<< n) fun _ t => { t with wait := .none }).takeTrap u n ((s.unit u).lane n).pc []
          (trapRec 0x07 va)) y))) ∧
    (∀ d, (w.lane l).wait = .counter va th sc (some d) m → d.toNat ≤ (s.clk w).toNat →
      (s.waitRef w va = (r, none) ∨ (s.waitRef w va = (r, some k) ∧ (r.counterVal k.key).toNat < th.toNat)) →
      ∃ t, exec (.waittoTimeout u l) s = .next t ∧ t.mem = s.mem ∧ past t ∧ (t.unit u).u = w.u.setQ 0 false) ∧
    ((w.lane l).wait = .sleep till m → till.toNat ≤ (s.clk w).toNat →
      ∃ t, exec (.sleepWake u l) s = .next t ∧ t.mem = s.mem ∧ past t ∧ (t.unit u).u = w.u) ∧
    (w.sysc = some c → (s.part w.part).slices.contains (hart / 8) = true →
      ∃ t, exec (.syscReply u reply hart) s = .next t ∧ t.mem = s.mem ∧ (t.unit u).sysc = none ∧
        (t.unit u).u = w.u.setS c.dest reply ∧
        ∀ k, (t.unit u).lane k = if c.members.getLsbD k then { w.lane k with pc := (w.lane k).pc + 4#32 } else w.lane k)

/-- R161, R162: once no warp executes from the slot that an OVLOAD names and no other copy into it is under way, its image is copied
there; when the copy is done the slot's tag is the image's address, and the warp goes on past the OVLOAD. That the slot has no tag while
the copy runs is the model's reading (log 44). R170: a warp all of whose live threads are blocked takes its pending interrupt in the
group with the lowest PC, and a Reckoner at the boundary where it stands: the frame saves offset, slot, s62 and s63, which take payload
and sender, and the members go to UIVEC with no latch. -/
def Obligations.OverlaysAndInterruptsArrive : Prop :=
  (∀ (u : Nat) (o : OvWait) (code : List Word) (s r : State), s.wakeable u = true → (s.unit u).ovw = some o → (s.unit u).reck = false →
    o.slot < 2 →
    let w := s.unit u
    (o.copying = false → s.slotBusy w.coreKey o.slot = false → s.loadPending w.coreKey o.slot = false → s.loadImage w.part (s.asid w) w.slice o.va.toNat = (r, .ok code) →
      ∃ t, exec (.overlaySlotCopy u) s = .next t ∧ t.mem = r.mem ∧ t.ovl w o.slot = { tag := none, code } ∧
        (t.unit u).ovw = some { o with copying := true }) ∧
    (o.copying = true → ∃ t, exec (.overlayCopyDone u) s = .next t ∧ t.mem = s.mem ∧
      t.ovl w o.slot = { tag := some o.va.toNat, code := (s.ovl w o.slot).code } ∧ (t.unit u).ovw = none ∧
      ∀ k, (t.unit u).lane k = if o.members.getLsbD k then { w.lane k with pc := (w.lane k).pc + 4#32 } else w.lane k)) ∧
  (∀ (u : Nat) (i : UIntr) (s : State), (s.unit u).u.uint = some i →
    let w := s.unit u
    let m := if w.reck then 1#32 else w.blockedGroup
    let l := (lanesOf m).headD 0
    (if w.reck then s.reckUint u = true
      else w.uintReady = true ∧ s.mayIssue u = true ∧ w.wd = .no ∧ m ≠ 0#32 ∧
        (lanesOf w.liveMask).all (fun l => (w.lane l).wait != .none) = true) →
    ∃ t, exec (.uintDelivery u) s = .next t ∧ t.mem = s.mem ∧ (t.unit u).u.uint = none ∧
      (t.unit u).u.uframe = some { off := (w.lane l).pc, slot := (w.lane l).slot, s62 := w.u.getS 62, s63 := w.u.getS 63 } ∧
      (t.unit u).u.getS 62 = i.payload ∧ (t.unit u).u.getS 63 = i.sender ∧
      ∀ k, (t.unit u).lane k = if m.getLsbD k then { (w.lane k).dropLatches with wait := .none, pc := w.u.uivec } else w.lane k)

/-! ### What befalls matrix instructions and engine commands (R77, R122, R140 to R142, R188 to R195, R219, R332, R333) -/

/-- R77, R122, R195, R198, R199: the first instruction of a core's matrix queue starts while the partition is not stalled and the
firewall holds no completion add of the core's matrix engine (R306); when it completes, every element of its accumulator takes the value
of its kind, computed group by group from what it read, every element of the other accumulator keeps its value, and the instruction
leaves the queue. -/
def Obligations.MatrixInstructionsRun : Prop :=
  ∀ (sl core : Nat) (o : MatOp) (q : List MatOp) (s : State), (s.core (64 * sl + core)).mq = o :: q →
    let key := 64 * sl + core
    (o.started = false → (s.part (s.unit o.u).part).stalled = false → (∀ c ∈ s.cmds, c.cls = 3 → key ∉ c.done) →
      ∃ t, exec (.matrixExecuteStart sl core) s = .next t ∧ t.mem = s.mem ∧ (t.core key).acc = (s.core key).acc ∧
        (t.core key).mq = { o with started := true } :: q) ∧
    (o.started = true → o.ccnt = 0#64 → (s.matReads o).2 = none →
      ∃ t, exec (.matrixComplete sl core) s = .next t ∧ t.mem = s.mem ∧ (t.core key).mq = q ∧
        ∀ (n : Bool) (row col : Nat), row < 128 → col < 192 →
          let old := (tabArray (s.core key).acc 49152).getD (accKey n row col) 0#32
          Tab.get 0#32 (t.core key).acc (accKey n row col) =
            if n = o.acc then match o.kind with
              | .mma | .mmas => (s.matIn o).element row col (if o.z then 0#32 else old)
              | .mscale => BitVec.ofNat 32 (f32.fmul 0#2 false old.toNat (Tab.get 0#32 o.factor (8 * row)).toNat).code
              | .mzero => 0#32
            else old)

/-- R140 to R142, R183: a command whose turn it is starts: its record is read and checked, and a copy or gather command with a bad record
fails. A running copy, gather or seal command completes with its whole effect: it leaves its chain, its tile becomes READY, and its
counter gains 1. A failing command faults: it leaves its chain, its tile is EMPTY or READY with F, no counter moves, and the fault is
held for its issuer. -/
def Obligations.EngineCommandsRun : Prop :=
  ∀ (id : Nat) (c : Cmd) (s r q : State) (b : List Byte) (k : Cmd) (va : DWord) (x : CtrRef), s.cmd id = some c →
    let now := (s.bearAgent c.agent c.start).modCmd id fun y => { y with st := .running }
    let c' := { c with recb := b, st := .running }
    (s.canStart c = true → now.readRecord c = (r, .ok b) → (r.modCmd id fun _ => c').startKind c' = (q, .ok k) →
      exec (.engineCommandStart id) s = .next (q.modCmd id fun _ => k)) ∧
    (s.canStart c = true → now.readRecord c = (r, .ok b) → c.op ∈ [.cpyin, .cpyout, .cpygg, .gather, .scatter] →
      (r.modCmd id fun _ => c').copyRecordOk c' = false →
      ∃ t, exec (.engineCommandStart id) s = .next t ∧ t.mem = s.mem ∧
        t.cmd id = some { c' with st := .failing (c.sval.setWidth 64) }) ∧
    (c.st = .running → s.runCmd c = (r, none) → (r.team c.team).st = .placed →
      let r' := match c.tile with
        | some tl => r.modTile c.team tl c.tileDone
        | none => r
      let w := r'.unit c.u
      (c.ccnt = 0#64 ∧ q = r' ∨ c.ccnt ≠ 0#64 ∧ x.ready = true ∧
        r'.counterAt w.part (r'.grid c.grid).asid w.slice c.ccnt = (q, .ok (.ok x))) →
      ∃ t, exec (.engineCommandComplete id) s = .next t ∧ t.cmd id = none ∧ (∀ tl, c.tile = some tl → (t.tile c.team tl).st = .ready) ∧
        t.mem = if c.ccnt = 0#64 then r.mem else (q.counterAdd w.part w.slice x 1#64).mem) ∧
    (c.st = .failing va → c.marked = [] → (s.unit c.u).live = true → (s.team c.team).st = .placed →
      ∃ t, exec (.engineCommandFault id) s = .next t ∧ t.cmd id = none ∧ t.mem = s.mem ∧
        (t.unit c.u).held = (s.unit c.u).held ++
          [{ team := c.team, tile := c.tile, ctr := c.ccnt, failedAdd := false, sealu := c.op == .sealu, cls := c.cls, taddr := va }] ∧
        ∀ tl, c.tile = some tl → (t.tile c.team tl).f = true ∧
          (t.tile c.team tl).st = if c.op = .cpyin ∨ c.op = .gather then .empty else .ready)

/-- R189: a collective, a get or a put reads its SEND and sends it, once, when its association can carry it; a step may bring it messages
of the others, each in a packet that has been accepted (R326), one of each member. Once it has sent and every block that it receives has
come, it writes its RECV and completes: it leaves its chain, and memory is as that write leaves it. A message of the same operation whose
fields differ makes it fault, with TADDR the address of its record. A put completes with the packet of the peer's acknowledgement. When a
member sends is the model's choice (log 118). R189, R304, R306, R326: a remote access that an accepted packet has brought is performed: a
put that lies in one line and whose page the port mapping grants leaves its bytes there, unless it races; one that the mapping does not
grant writes nothing and freezes the port. A frozen port drops the packet and counts it. A get leaves memory as the checks of its page
do, and what it reads, if nothing forbids it, goes out at the port. What the mapping grants, and how a packet carries an access, are free
values (log 13, log 118). -/
def Obligations.CollectivesAndRemoteAccessesRun : Prop :=
  (∀ (id n : Nat) (inputs : List Msg) (c : Cmd) (s r q p : State) (send : List Byte),
    let k := collAt c.recb
    let sends := fun (x : State) => (k.linked = true → x.portOpen (x.unit c.u).slice (chanKey k.chan) = true) ∧
      x.engReadSpan c k.send k.sendLen = (q, .ok send) ∧ (q.collFlit c).sendMessages c send = some p
    let does := fun (opc : Nat) (i : List Msg → Instr) => s.collReady id opc = some c →
      ((k.matched = true → ∀ m ∈ inputs, m.n = s.collNo c) → s.takeMsgs c inputs = some r →
        ((k.matched = true → ∀ m ∈ inputs, m.head = k.head) → k.takes c.msgs inputs = true →
          (c.copies = [] → sends r → exec (i inputs) s =
            .next (p.modCmd id fun _ => { c with copies := [(k.rank, send)], msgs := c.msgs ++ inputs })) ∧
          (c.copies ≠ [] → inputs ≠ [] → exec (i inputs) s = .next (r.modCmd id fun _ => { c with msgs := c.msgs ++ inputs }))) ∧
        (k.matched = true → (∃ m ∈ inputs, m.head ≠ k.head) → exec (i inputs) s =
          .next (r.modCmd id fun x => { x with st := .failing (c.sval.setWidth 64) }))) ∧
      (c.copies ≠ [] → c.ccnt = 0#64 → collDone c = true → s.runPlan c (c.left { locals := [], ops := collOps c }) = (q, n, none) →
        ∃ t, exec (i []) s = .next t ∧ t.mem = q.mem ∧ t.cmd id = none)
    does 0 (.collAllReduce id) ∧ does 1 (.collReduceScatter id) ∧ does 2 (.collAllGather id) ∧ does 3 (.collBroadcast id) ∧
    does 5 (.collGet id) ∧ does 6 (.collAllToAll id) ∧
    (s.collReady id 4 = some c → c.copies = [] → sends s →
      exec (.collPut id false) s = .next (p.modCmd id fun _ => { c with copies := [(k.rank, send)] })) ∧
    (s.collReady id 4 = some c → c.copies ≠ [] → c.ccnt = 0#64 → s.takeMsgs c [ackMsg k] = some r →
      ∃ t, exec (.collPut id true) s = .next t ∧ t.mem = s.mem ∧ t.cmd id = none)) ∧
  (∀ (sl pn as ctx va len : Nat) (acc : RemoteAccess) (bytes : List Byte) (s s0 r : State) (x : Xlat) (l : Loc),
    (s.slice sl).part = some pn → (s.slice sl).srdy.getLsbD 8 = true → (s.slice sl).srdy.getLsbD 9 = true →
    s.takeAccess sl (Config.wireAccess acc) = some (as, s0) →
    ((s.slice sl).portFrozen = true →
      exec (.fabricRemoteAccess sl acc) s = .next (s0.modSlice sl fun y => { y with portDrops := y.portDrops + 1 })) ∧
    ((s.slice sl).portFrozen = false → acc = .put ctx va bytes 0 → lineChunks va bytes.length = [(va, bytes.length)] →
      (s0.active pn).permit pn ctx sl (BitVec.ofNat 64 va) 1 true = (r, .ok x) → (r.part pn).locate x.pa = some l →
      r.lineReady l.key (x.pol == 2) = true → x.sn = false →
      let a := x.acc (.port sl) (r.order.clock (.port sl)) pn l bytes.length
      ∃ t, exec (.fabricRemoteAccess sl acc) s = .next t ∧
        (Config.portGrants pn x.pa = true → r.raceTest a true none = none → (∀ k, x.entryByte k = true → k < l.key ∨ l.key + bytes.length ≤ k) →
          t.bytes l.key bytes.length = bytes ∧
          ∀ k, k < l.key ∨ l.key + bytes.length ≤ k → x.entryByte k = false → t.byte k = r.byte k) ∧
        (Config.portGrants pn x.pa = false → t.mem = r.mem ∧ (t.slice sl).portFrozen = true)) ∧
    ((s.slice sl).portFrozen = false → acc = .get ctx va len → lineChunks va len = [(va, len)] →
      (s0.modSlice sl fun y => { y with portOut := [] }).permit pn ctx sl (BitVec.ofNat 64 va) 1 false = (r, .ok x) →
      (r.part pn).locate x.pa = some l → r.lineReady l.key (x.pol == 2) = true →
      (Tab.find? r.rot.assocs (assocKey sl as)).any (fun y => !y.barred && !y.needRekey) = true →
      let a := x.acc (.port sl) (r.order.clock (.port sl)) pn l len
      ∃ t, exec (.fabricRemoteAccess sl acc) s = .next t ∧ t.mem = r.mem ∧
        (Config.portGrants pn x.pa = true → lineSound r l.key = true → r.raceTest a false none = none →
          (t.slice sl).portOut = (r.slice sl).portOut ++ r.bytes l.key len)))

/-- R194, R219, R332, R333: a marked page of a save is copied and no longer marked. A save that cannot reach the store completes with
status 4, else its shards are stored and the status is 0 where all were verified and 2 where not; a restore's status is 4, what the
choice of a step gives, or 0 after its targets have been written, by the step that it chose once. Each completes by writing its status
word. R190: a seal context that is to be voided is, once every seal command of its unit has ended: a void record is written in its area,
and the context closes, unless a write of the record violates the firewall. -/
def Obligations.CheckpointsAndSealsRun : Prop :=
  (∀ (id va p n readback k : Nat) (bs : List Byte) (c : Cmd) (step : DWord) (ok reach : Bool) (ss : List Shard) (s r q : State),
    s.cmd id = some c → c.op = .ckpt → c.st = .running → c.ccnt = 0#64 →
    let status := fun (y : State) (v : Nat) => y.engWriteSpan c (fieldAt c.recb 32 8) (leBytes 8 v)
    let ends := fun (i : Instr) => ∃ t, exec i s = .next t ∧ t.mem = q.mem ∧ t.rot = q.rot ∧ t.cmd id = none
    let ours := s.rot.shards.filter fun x => x.store == c.store
    (c.marked.contains va = true → c.pageParts va = [(p, n)] → s.engCopy c p n = (r, .ok bs) →
      exec (.ckptPageCopy id va) s = .next ((r.modCmd id fun y => { y with copies := y.copies ++ [(p, bs)] }).unmarkPage c va)) ∧
    (fieldAt c.recb 0 1 = 0 → c.marked = [] → status s 4 = (q, none) → ends (.ckptSave id false readback)) ∧
    (fieldAt c.recb 0 1 = 0 → c.marked = [] →
      saveShards (fieldAt c.recb 1 1 == 1) s.rot.shards readback (c.shards.map c.shardOf) = (ss, ok) →
      status { s with rot := { s.rot with shards := ss } } (if ok then 0 else 2) = (q, none) → ends (.ckptSave id true readback)) ∧
    let writes := fun (y : State) (ws : List (Nat × List Byte)) =>
      y.runPlan c (c.left { locals := [], ops := restoreOps ws }) = (r, n, none) ∧ status r 0 = (q, none)
    (fieldAt c.recb 0 1 = 1 → c.copies = [] → status s 4 = (q, none) → ends (.ckptRestore id false)) ∧
    (fieldAt c.recb 0 1 = 1 → c.copies = [] → chooseStep ours c.shards c.step = .error k → status s k = (q, none) →
      ends (.ckptRestore id true)) ∧
    (fieldAt c.recb 0 1 = 1 → c.copies = [] → chooseStep ours c.shards c.step = .ok step →
      (let ws := restoreLines (ours.filter fun x => x.step == step) c.shards
       writes (s.modCmd id fun x => { x with copies := ws }) ws) → ends (.ckptRestore id true)) ∧
    (fieldAt c.recb 0 1 = 1 → c.copies ≠ [] → writes s c.copies → ends (.ckptRestore id reach))) ∧
  (∀ (u reason : Nat) (k : Seal) (s : State), (s.unit u).sealCtx = some k → k.void = some reason → s.mayStart u = true →
    (s.slice (s.unit u).slice).srdy.getLsbD 10 = true → (∀ c ∈ s.cmds, c.u = u → c.cls ≠ 5) →
    let c := s.voidCmd u
    ∀ r, (({ s with nextId := s.nextId + 1, cmds := s.cmds ++ [c] } : State).bearAgent c.agent c.start).voidSeal c reason = (r, none) →
      ∃ t, exec (.sealContextVoid u reason) s = .next t ∧ t.mem = r.mem ∧ (t.unit u).sealCtx = none)

/-! ### The slot controller (R40, R127, R173, R218, R267, R268, R294 to R298, R312 to R324) -/

/-- R313 to R315, R173: the slot controller takes the next record of a queue whose TAIL is ahead, copies it, adds 1 to HEAD, and accepts
it as a grid with its ranges, or refuses it with a dispatch event that holds the reason, which is 1 where the record could not be copied;
a child record of a slice likewise, with its parent. -/
def Obligations.RecordsAreTaken : Prop :=
  ∀ (pn qid sl why : Nat) (q : Queue) (tail head : CtrRef) (b : List Byte) (k : Child) (rest : List Child) (ranges : List (Nat × Nat))
    (cp : Option (List Byte)) (s r r0 r' r'' c : State),
    let ag := Agent.slotCtl pn
    ((s.part pn).queues.find? (fun x => x.qid == qid) = some q → s.ctlCounter pn q.asid q.tail = (r, some tail) → tail.ready = true →
      r.reachCtr tail = (r0, false) → r0.slotUp pn = true → q.n < (r0.counterVal tail.key).toNat →
      let slot := q.ring + 128 * (q.n % 2 ^ q.logsz)
      r0.copyWaits pn q.asid slot = false → (∀ h, (r0.ctlCounter pn q.asid q.head).2 = some h → h.ready = true) →
      (acquireAt r0 ag 2#2 tail.loc).copyRecord pn q.asid slot = (r', cp) → r'.ctlCounter pn q.asid q.head = (r'', some head) →
      let added := r''.counterAdd pn (r''.part pn).corner head 1#64
      let now := (releaseAt added ag 2#2 head.loc).modQueue pn qid fun x => { x with n := x.n + 1 }
      (cp = some b → now.checkRecord pn q.asid q.primax b = (c, .ok ranges) →
        ∃ t, exec (.recordTake pn qid) s = .next t ∧ t.mem = c.mem ∧ (t.part pn).queues = (now.part pn).queues ∧
          (t.grid c.nextId).st = .accepted ∧ (t.grid c.nextId).recb = b ∧ (t.grid c.nextId).part = pn ∧
          (t.grid c.nextId).asid = q.asid ∧ (t.grid c.nextId).prio = fieldAt b 0x21 1 ∧ (t.grid c.nextId).ranges = ranges) ∧
      (cp = some b → now.checkRecord pn q.asid q.primax b = (c, .error (.refused why)) →
        ∃ t, exec (.recordTake pn qid) s = .next t ∧ t.mem = c.mem ∧ (t.part pn).queues = (now.part pn).queues ∧ t.grids = c.grids ∧
          (t.part pn).events = (c.part pn).events ++ [eventRec 1 why 0 0 qid q.n 0 0]) ∧
      (cp = none →
        ∃ t, exec (.recordTake pn qid) s = .next t ∧ t.mem = added.mem ∧ (t.part pn).queues = (now.part pn).queues ∧
          t.grids = now.grids ∧ (t.part pn).events = (now.part pn).events ++ [eventRec 1 1 0 0 qid q.n 0 0])) ∧
    ((s.slice sl).part = some pn → (s.slice sl).childQ = k :: rest → s.slotUp pn = true →
      let now := s.modSlice sl fun y => { y with childQ := rest }
      let g := s.grid k.parent
      let primax := if 40 ≤ g.prio then 47 else 39
      (now.checkRecord pn g.asid primax k.recb = (c, .ok ranges) →
        ∃ t, exec (.childQueueTake sl) s = .next t ∧ t.mem = c.mem ∧ (t.slice sl).childQ = rest ∧ (t.grid c.nextId).st = .accepted ∧
          (t.grid c.nextId).recb = k.recb ∧ (t.grid c.nextId).parent = some k.parent ∧ (t.grid c.nextId).prio = k.prio ∧
          (t.grid c.nextId).ranges = ranges) ∧
      (now.checkRecord pn g.asid primax k.recb = (c, .error (.refused why)) →
        ∃ t, exec (.childQueueTake sl) s = .next t ∧ t.mem = c.mem ∧ (t.slice sl).childQ = rest ∧ t.grids = c.grids ∧
          (t.part pn).events = (c.part pn).events ++ [eventRec 2 why 0 0 (c.grid k.parent).num 0 0 0]))

/-- R40, R316, R324: a grid whose dependence is met and whose ranges are valid becomes eligible, once their tables can be reached. A grid
that is over retires: its counter gains 1, or the kernel learns that there is none. The oldest event becomes the next record of the ring,
and PROD counts it. R267, R268, R317: a residency request whose pages are valid makes them resident, adds 1 to its counter and is gone;
one that is not is gone with a residency event; one that `.will` made has no counter. A range that may be evicted, and that `.free` does
not name, becomes non-resident, and the advice that named it is gone. -/
def Obligations.GridsAndResidencyAdvance : Prop :=
  (∀ (grid pn : Nat) (s r q : State) (c : CtrRef) (ring : EvRing) (e : List Byte) (rest : List (List Byte)),
    let g := s.grid grid
    let dep := fieldAt g.recb 0x38 8
    let ctr := fieldAt g.recb 0x30 8
    let p := s.part pn
    (g.st = .accepted → s.slotUp g.part = true →
      (dep = 0 ∧ r = s ∨ dep ≠ 0 ∧ s.ctlCounter g.part g.asid dep = (q, some c) ∧ c.ready = true ∧ q.reachCtr c = (r, false) ∧
        fieldAt g.recb 0x40 8 ≤ (r.counterVal c.key).toNat) →
      (∀ x ∈ g.ranges, r.tablesReady g.part g.asid x.1 x.2 = true ∧
        r.firstInvalid (r.part g.part) ((r.part g.part).ctx g.asid) x.1 x.2 = none) →
      ∃ t, exec (.gridEligible grid) s = .next t ∧ (t.grid grid).st = .eligible ∧ (t.grid grid).recb = g.recb ∧
        (g.ranges = [] → t.mem = r.mem)) ∧
    (s.gridOver grid = true → s.slotUp g.part = true → ctr = 0 →
      ∃ t, exec (.gridRetire grid) s = .next t ∧ (t.grid grid).st = .retired ∧ t.mem = s.mem) ∧
    (s.gridOver grid = true → s.slotUp g.part = true → ctr ≠ 0 → s.ctlCounter g.part g.asid ctr = (r, some c) → c.ready = true →
      ∃ t, exec (.gridRetire grid) s = .next t ∧ (t.grid grid).st = .retired ∧
        t.mem = (r.counterAdd g.part (r.part g.part).corner c 1#64).mem) ∧
    (s.gridOver grid = true → s.slotUp g.part = true → ctr ≠ 0 → s.ctlCounter g.part g.asid ctr = (r, none) →
      ∃ t, exec (.gridRetire grid) s = .next t ∧ (t.grid grid).st = .retired ∧
        (t.part g.part).events = (r.part g.part).events ++ [eventRec 5 0 0 0 g.num 0 ctr 0]) ∧
    (p.ring = some ring → p.events = e :: rest → s.slotUp pn = true → (p.prod + 2 ^ 64 - p.sccons.toNat) % 2 ^ 64 ≠ 2 ^ ring.logsz →
      s.physReady pn (ring.addr + 32 * (p.prod % 2 ^ ring.logsz)) 32 = true → s.physReady pn ring.prod 8 = true →
      ∃ t, exec (.eventRecordWrite pn) s = .next t ∧ (t.part pn).events = rest ∧ (t.part pn).prod = p.prod + 1 ∧
        t.mem = ((s.physWrite pn (ring.addr + 32 * (p.prod % 2 ^ ring.logsz)) e).physWrite pn ring.prod (leBytes 8 (p.prod + 1))).mem)) ∧
  (∀ (pn id asid va n ctr : Nat) (q : PgReq) (c : CtrRef) (s r : State),
    let p := s.part pn
    let gone := fun (y : State) => y.modPart pn fun p => { p with pgreqs := p.pgreqs.filter fun x => !(x.id == id) }
    (p.pgreqs.find? (fun x => x.id == id) = some q → s.tablesReady pn q.asid q.va q.len = true → q.ctr = some ctr →
      s.firstInvalid p (p.ctx q.asid) q.va q.len = none →
      (s.makeResident pn q.asid q.va q.len).ctlCounter pn q.asid ctr = (r, some c) → c.ready = true →
      ∃ t, exec (.pgreqResidentAdd pn id) s = .next t ∧ t.mem = ((gone r).counterAdd pn (r.part pn).corner c 1#64).mem ∧
        ∀ x ∈ (t.part pn).pgreqs, x.id ≠ id) ∧
    (p.pgreqs.find? (fun x => x.id == id) = some q → s.tablesReady pn q.asid q.va q.len = true → q.ctr = none →
      exec (.pgreqResidentAdd pn id) s = .next (gone (s.makeResident pn q.asid q.va q.len))) ∧
    (p.pgreqs.find? (fun x => x.id == id) = some q → s.tablesReady pn q.asid q.va q.len = true → q.ctr = some ctr →
      (s.firstInvalid p (p.ctx q.asid) q.va q.len).isSome = true →
      ∃ t, exec (.pgreqResidentAdd pn id) s = .next t ∧ t.mem = s.mem ∧ (∀ x ∈ (t.part pn).pgreqs, x.id ≠ id) ∧
        (t.part pn).events = p.events ++ [eventRec 6 0 0 0 (s.grid q.grid).num 0 q.va 0]) ∧
    (s.slotUp pn = true → s.mayEvict pn asid va n = true → s.tablesReady pn asid va n = true → (∀ a ∈ p.advice, a.kind ≠ 2) →
      ∃ t, exec (.rangeEvict pn asid va n) s = .next t ∧ t.mem = ((pagesOf va n).foldl (fun y g => y.setResident pn asid g false) s).mem ∧
        ∀ a ∈ (t.part pn).advice, ¬ (a.asid = asid ∧ a.va = va ∧ a.len = n)))

/-- R316, R318, R320, R322, R20, R22, R33: the ranges of the first waiting grid for which something can be done are made resident, and
what can be done is written into the slot tables, which changes no thread or team, nor any byte unless the grid is the first of its
context. A place record starts its team: on a core that holds the image, the team and each of its warps stand with the record's quota,
start values and entry. A time slice that ends while no other grid waits starts anew; that it does, and that a millisecond is 3,000,000
cycles of the corner's CLK, is the model's reading (log 91). Which grid goes first is the model's choice (log 87). R215, R294 to R297,
R318: a withdrawal record withdraws every live unit of its teams, once their context's save area has room. A team whose units have been
prepared, whose commands have ended and whose tiles no queued matrix instruction reads is saved. A warp whose handler runs masked past
the grace window is prepared all the same. A return record places saved teams again, those of a grid with flag bit 0 all that it names at
once: the team stands on the core, and its units go on there with the registers they had. -/
def Obligations.TeamsArePlacedAndMove : Prop :=
  (∀ (grid sl ix c k n : Nat) (vs : List Nat) (p : Placing) (b : Bind) (s r q : State),
    let g := s.grid grid
    (s.slotUp g.part = true → (s.part g.part).stalled = false → s.wants grid = true → s.bestPlan grid = some (vs, p) →
      (∀ i ∈ (s.gridOrder g.part fun h => h.st == .eligible).takeWhile fun i => i != grid,
        s.wants i = true → ∀ x, s.bestPlan i = some x → s.chosen i x.1 x.2 = none) →
      s.bringRanges grid = some (q, true) → q.writePlan grid vs p = some r →
      ∃ t, exec (.gridPlace grid) s = .next t ∧ ((q.ctxOf g).bound = true → t.mem = q.mem) ∧ t.units = q.units ∧ t.teams = q.teams ∧
        t.grid grid = (q.grid grid).takeRun p.fresh ∧ (g.ranges = [] → q = s)) ∧
    (s.bindAt sl ix 1 = some b → b.grid = grid → g.closed = false → b.coreList = [c] → b.nteam = 1 → 0 < s.coreRoom grid [] sl c →
      recReck g.recb = false →
      ((s.startSlice grid).bindDone sl ix).pickSlot (64 * sl + c) (fieldAt g.recb 0 8) [] = some k →
      (if k = 0 then (s.core (64 * sl + c)).ov0 else (s.core (64 * sl + c)).ov1).tag = some (fieldAt g.recb 0 8) →
      ∃ t, exec (.bindPlace sl ix) s = .next t ∧ t.mem = s.mem ∧ (t.team s.nextId).st = .placed ∧ (t.team s.nextId).idx = b.team0 ∧
        (t.team s.nextId).slice = sl ∧ (t.team s.nextId).core = c ∧ (t.team s.nextId).win = recWindow g.recb ∧
        ∀ i, i < recWarps g.recb →
          let w := t.unit (s.nextId + 1 + i)
          w.live = true ∧ w.team = s.nextId ∧ w.k = i ∧ w.quota = fieldAt g.recb 0x20 1 ∧ w.u = startUni g.recb ∧
          w.sched.base = g.prio ∧ w.th = (List.range (Nat.min 32 (recThreads g.recb - 32 * i))).map fun l =>
            (l, startThread (fieldAt g.recb 8 4) k)) ∧
    (quantum (fieldAt g.recb 0x27 1) = some n → g.st = .eligible → s.slotUp g.part = true → (s.part g.part).stalled = false →
      s.gridCores grid ≠ [] → g.since.toNat + n ≤ (s.cornerClk g.part).toNat → (∀ i, i ≠ grid → s.wants i = false) →
      exec (.timeSliceExpiry grid) s = .next (s.modGrid grid fun y => { y with since := s.cornerClk g.part }))) ∧
  (∀ (sl ix tm u core : Nat) (b : Bind) (s : State),
    (s.bindAt sl ix 2 = some b → s.saveRoom (s.grid b.grid) (s.withdrawn sl b) = true →
      ∃ t, exec (.bindWithdraw sl ix) s = .next t ∧ t.mem = s.mem ∧
        ∀ x ∈ s.withdrawn sl b, ∀ y ∈ (s.team x).warps, (s.unit y).live = true → (t.unit y).wd ≠ .no) ∧
    ((s.team tm).st = .placed → s.clusterReck (s.team tm).grid (s.team tm).slice ((s.team tm).core / 4) = none →
      (s.part (s.grid (s.team tm).grid).part).stalled = false → (∃ y ∈ (s.team tm).warps, (s.unit y).live = true) →
      (∀ y ∈ (s.team tm).warps, s.prepared y = true ∧ ∀ l, ((s.unit y).lane l).inRegion = false) →
      (∀ k ∈ s.cmds, k.team ≠ tm ∧ k.u ∉ (s.team tm).warps) →
      (∀ p ∈ s.cores, ∀ o ∈ p.2.mq, o.u ∉ (s.team tm).warps ∧ o.bTeam ≠ tm) →
      ∃ t, exec (.teamSave tm) s = .next t ∧ t.mem = s.mem ∧ (t.team tm).st = .saved ∧
        ∀ y ∈ (s.team tm).warps, (s.unit y).live = true → (t.unit y).wd = .saved ∧ (t.unit y).u = (s.unit y).u ∧
          (t.unit y).th = (s.unit y).th ∧ (t.unit y).quota = (s.unit y).quota) ∧
    ((s.unit u).live = true → (s.unit u).wd = .preparing → (s.unit u).halted = false → (s.part (s.unit u).part).stalled = false →
      (s.unit u).lanesWhere allLanes (fun t => t.pend.isSome) = 0#32 → s.lingers u = true → (s.unit u).wdAt.toNat + 300000 ≤ (s.clk (s.unit u)).toNat →
      exec (.graceWindowEnd u) s = .next (s.modUnit u fun w => { w with wd := .graceOver })) ∧
    (s.bindAt sl ix 3 = some b → s.savedRecks b.grid = [] →
      let r := b.coreList.foldl (fun y c => y.returnTo b.grid sl c) (s.startSlice b.grid)
      let back := (s.savedTeams b.grid).length - (r.savedTeams b.grid).length
      (if recWhole (s.grid b.grid).recb then b.nteam ≤ back else 0 < back) →
      ∃ t, exec (.bindReturn sl ix) s = .next t ∧ t.mem = s.mem ∧ t.teams = r.teams ∧ t.units = r.units) ∧
    ((s.team tm).warps = [u] →
      let t := s.returnTeam sl core tm
      (t.team tm).st = .placed ∧ (t.team tm).slice = sl ∧ (t.team tm).core = core ∧ (t.team tm).mem = (s.team tm).mem ∧
      (t.unit u).wd = .no ∧ (t.unit u).u = (s.unit u).u ∧ (t.unit u).k = (s.unit u).k ∧
      ∀ l, ((t.unit u).lane l).pc = ((s.unit u).lane l).pc ∧ ((t.unit u).lane l).v = ((s.unit u).lane l).v))

/-! ### Register blocks, the monitor and the debugger (R7, R214 to R216, R293, R299 to R301, R305 to R308, R312, R324, R336, R343) -/

/-- R7, R279 to R281, R300, R306, R324, R336, R343: what a register of a slice whose FW is 1 reads after a write by its partition: the
written bits of the plain ones, the bits that a written 1 clears, a route to a slice of the partition, a word of a range entry whose
stacks the partition holds. ACTCTL takes its thresholds and both stacks count anew. A write of SRDY or SCSTAT, and one of SRCTL or FWCTL
whose command bit is 0, is ignored; one of SCCMD sets its block and BUSY, and is ignored while BUSY is 1. Nothing in memory changes. -/
def Obligations.RegistersAreWritten : Prop :=
  ∀ (sl pn off : Nat) (v : DWord) (w : Word) (s : State), (s.slice sl).part = some pn →
    (s.slice sl).srdy.getLsbD 2 = true →
    let old := s.regRead sl off
    let reads := fun (i : Instr) (x : DWord) => ∃ t, exec i s = .next t ∧ t.mem = s.mem ∧ t.regRead sl off = x
    let acked := if v.getLsbD 63 then old &&& 0x7FFFFFFFFFFFFFFF#64 else old
    (off = 0x000 ∨ off = 0x050 ∨ off = 0x088 → reads (.registerWrite sl off v) acked) ∧
    (off = 0x020 → reads (.registerWrite sl off v)
      (if (s.part pn).slices.contains (v.toNat / 8 % 32) then v &&& 0x800000FF#64 else old)) ∧
    (off = 0x040 ∨ off = 0x068 → reads (.registerWrite sl off v) (old &&& ~~~v)) ∧
    (off = 0x048 → reads (.registerWrite sl off v) (v &&& 0xFFFFFFFFFFFF#64)) ∧
    (off = 0x060 → v.getLsbD 30 = false → reads (.registerWrite sl off v) (v &&& 0x80FFFFFF#64)) ∧
    (off = 0x070 → reads (.registerWrite sl off v) (v &&& 0xFFFFFFFFFFFFF#64)) ∧
    (off = 0x0B0 → reads (.registerWrite sl off v) v) ∧
    (0x100 ≤ off → off < 0x300 → off % 8 = 0 → (off - 0x100) / 32 < (s.part pn).ranges.length →
      let r := (s.part pn).ranges.getD ((off - 0x100) / 32) rangeZero
      reads (.addressRangeWrite sl off v)
        (match off % 32 / 8 with
         | 0 | 1 => v &&& 0x000FFFFFFFFF0000#64
         | 2 => if rangeWithin (rangeBits { r with stk := v }) (s.part pn).slices then v &&& 0xFFFFFFFFFFFF#64 else old
         | _ => v &&& 0xFFFFF00EF#64)) ∧
    (off = 0x080 → reads (.actctlWrite sl w) ((w &&& 0x0FFFFFFF#32).setWidth 64) ∧
      ∃ t, exec (.actctlWrite sl w) s = .next t ∧ (t.stack (2 * sl)).counts = [] ∧ (t.stack (2 * sl + 1)).counts = [] ∧
        (t.stack (2 * sl)).win = (s.slice sl).clk ∧ (t.stack (2 * sl + 1)).win = (s.slice sl).clk) ∧
    (off = 0x018 ∨ off = 0x0A8 ∨ (off = 0x010 ∧ v.getLsbD 0 = false) ∨ (off = 0x008 ∧ v.getLsbD 31 = false) →
      exec (.registerWrite sl off v) s = .next s) ∧
    (off = 0x0A0 → ∃ t, exec (.registerWrite sl off v) s = .next t ∧ t.mem = s.mem ∧
      if (s.part pn).scstat.getLsbD 0 then t.part pn = s.part pn
      else t.part pn = { s.part pn with sccmd := v &&& 0x000FFFFFFFFFFFC0#64, scstat := (s.part pn).scstat ||| 1#32 })

/-- R298, R300, R306, R307, R308: THAW ends a Stall freeze and restarts the window. RELALL releases the slice's harts and port, and its
held commands fail, which a Stall freeze puts off. A slice reset, which a resize step that is moving the slice holds up, gives the
slice's registers their reset values, clears its cores, and is busy until the functions that were ready are ready again; the block is
written while FW is 1. A function that comes up sets its bit. -/
def Obligations.SlicesAreControlled : Prop :=
  ∀ (sl pn bit : Nat) (v : Word) (s : State),
    let up := (s.slice sl).srdy.getLsbD 2 = true
    (up → (s.slice sl).part = some pn → v.getLsbD 30 = true → (∀ k ∈ (s.part pn).slices, (s.slice k).relPend = false) →
      ∃ t, exec (.pmctlThaw sl v) s = .next t ∧ t.mem = s.mem ∧ (t.part pn).stalled = false ∧ (t.part pn).activity = false ∧
        (t.part pn).pmctl = v &&& 0x80FFFFFF#32 ∧ (t.part pn).pmAt = (s.slice (s.part pn).corner).clk) ∧
    (up → (s.slice sl).part = some pn → (s.part pn).stalled = true →
      ∃ t, exec (.firewallReleaseAll sl) s = .next t ∧ t.mem = s.mem ∧ (t.slice sl).portFrozen = false ∧ (t.slice sl).relPend = true ∧
        t.units = s.units ∧ t.cmds = s.cmds ∧ ∀ p ∈ t.harts, p.1 / 8 = sl → p.2.frozen = false) ∧
    (up → (s.slice sl).part = some pn → (s.part pn).stalled = false → (∀ u, (s.unit u).frozen = none) → (s.cmds.map (·.id)).Nodup →
      (∀ c ∈ s.cmds, ∀ pa, c.st ≠ .addHeld pa) →
      ∃ t, exec (.firewallReleaseAll sl) s = .next t ∧ t.mem = s.mem ∧ (t.slice sl).portFrozen = false ∧
        t.cmds = s.cmds.map (fun c => match c.st with
          | .held va _ => if (s.unit c.u).slice = sl then { c with st := .failing va } else c
          | .queued | .running | .failing _ | .addHeld _ => c) ∧
        ∀ p ∈ t.harts, p.1 / 8 = sl → p.2.frozen = false) ∧
    (up → (s.slice sl).part.isSome = true → (s.slice sl).srBusy = false → s.moving sl = false →
      ∃ t, exec (.sliceReset sl) s = .next t ∧ (s.cmds = [] → t.mem = s.mem) ∧ (t.slice sl).srdy = 0#32 ∧
        (t.slice sl).srBusy = ((s.slice sl).srdy != 0#32) ∧ (t.slice sl).fwviol = 0#64 ∧ (t.slice sl).vcnt = 0 ∧
        (t.slice sl).mevstat = 0#32 ∧ (t.slice sl).actctl = 0x01E3C78F#32 ∧ (t.slice sl).binds = [] ∧
        ∀ k, k / 64 = sl → t.core k = Core.init) ∧
    (s.powered = true → sl < 24 → s.srdyBit sl bit = true → (s.slice sl).srdy.getLsbD bit = false →
      (bit ≠ 2 → (s.slice sl).srdy.getLsbD 2 = true) →
      ∃ t, exec (.functionReady sl bit) s = .next t ∧ t.mem = s.mem ∧ (t.slice sl).srdy = (s.slice sl).srdy ||| (1#32 <<< bit) ∧
        ∀ k, k ≠ sl → t.slice k = s.slice k)

/-- R216: a write of TLBINV starts an operation of its OP, which is busy; when it is done it is not, no slice of the partition holds a
translation that it names, and memory is as it was. R312, R324: a command block that keeps its limits registers a queue, with the QID in
the block, takes a queue off the list, or sets the event ring; RESULT is 0, or 3 for a queue that is not watched. A block that breaks a
limit gives RESULT 1, and so does one that cannot be read, which is the model's reading (log 73). BUSY is 0 then. -/
def Obligations.TranslationsAndSlotCommandsAct : Prop :=
  (∀ (sl pn : Nat) (v : DWord) (s : State),
    let starts := fun (op : Nat) (i : Instr) => (s.slice sl).part = some pn → (s.slice sl).srdy.getLsbD 2 = true →
      (s.part pn).tlbinv.getLsbD 63 = false →
      v.toNat / 2 ^ 61 % 4 = op → ∃ t, exec i s = .next t ∧ t.mem = s.mem ∧
        (t.part pn).tlbinv = (v &&& 0x607FFFFFFFFFFFFF#64) ||| 0x8000000000000000#64
    starts 0 (.tlbinvPage sl v) ∧ starts 1 (.tlbinvContext sl v) ∧ starts 2 (.tlbinvReload sl v) ∧ starts 3 (.tlbinvAll sl v) ∧
    ((s.part pn).tlbinv.getLsbD 63 = true →
      let x := (s.part pn).tlbinv
      (x.toNat / 2 ^ 61 % 4 = 2 → s.physReady pn ((s.part pn).ctx (x.toNat % 65536)).desc 128 = true) →
      ∃ t, exec (.tlbinvDone pn) s = .next t ∧ t.mem = s.mem ∧ (t.part pn).tlbinv = x &&& 0x7FFFFFFFFFFFFFFF#64 ∧
        ∀ k ∈ (s.part pn).slices, ∀ e ∈ (t.slice k).tlb, tlbHit (x.toNat / 2 ^ 61 % 4) (x.toNat % 65536) (x.toNat / 2 ^ 16 % 2 ^ 39) e = false)) ∧
  (∀ (sl pn : Nat) (v : DWord) (b q : List Byte) (asid : Nat) (c : CtrRef) (s r r1 r2 r3 r4 : State),
    (s.slice sl).part = some pn → (s.slice sl).srdy.getLsbD 2 = true → ((s.part pn).scstat.getLsbD 0 = true → (s.part pn).sccmd = v &&& 0x000FFFFFFFFFFFC0#64) →
    let now := s.writeSccmd sl v
    let block := (now.part pn).sccmd.toNat
    now.slotUp pn = true → now.physReady pn block 64 = true →
    let ends := fun (i : Instr) (result : Nat) (f : State → Prop) =>
      ∃ t, exec i s = .next t ∧ (t.part pn).scstat = BitVec.ofNat 32 (256 * result) ∧ f t
    (now.scBlock pn = (r, none) ∨ now.scBlock pn = (r, some b) ∧ scBlockOk b = false →
      ∀ i ∈ [Instr.scRegisterQueue sl v, .scRemoveQueue sl v, .scSetEventRing sl v], ends i 1 fun t => t.mem = r.mem) ∧
    (now.scBlock pn = (r, some b) → scBlockOk b = true → fieldAt b 0 1 = 1 → r.physReady pn (fieldAt b 8 8) 64 = true →
      r.physReady pn (fieldAt b 16 8) 128 = true → r.physRead pn (fieldAt b 8 8) 64 = (r1, some q) → queueOk q = true →
      r1.bringCtx pn (fieldAt b 16 8) = (r2, some asid) → (r1.part pn).queues.length < 1024 →
      r2.ctlCounter pn asid (fieldAt q 24 8) = (r3, some c) → c.ready = true → r3.reachCtr c = (r4, false) →
      ends (.scRegisterQueue sl v) 0 fun t => ∃ qid, (∀ k ∈ (r4.part pn).queues, k.qid ≠ qid) ∧
        let w := r4.physWrite pn (block + 4) (leBytes 4 qid)
        t.mem = w.mem ∧ (t.part pn).queues = (w.part pn).queues ++
          [{ qid, asid, ring := fieldAt q 0 8, logsz := fieldAt q 8 1, primax := fieldAt q 9 1, tail := fieldAt q 16 8,
             head := fieldAt q 24 8, n := (r4.counterVal c.key).toNat }]) ∧
    (now.scBlock pn = (r, some b) → scBlockOk b = true → fieldAt b 0 1 = 2 →
      if (r.part pn).queues.any fun k => k.qid == fieldAt b 4 4 then
        ends (.scRemoveQueue sl v) 0 fun t => t.mem = r.mem ∧
          (t.part pn).queues = (r.part pn).queues.filter fun k => !(k.qid == fieldAt b 4 4)
      else ends (.scRemoveQueue sl v) 3 fun t => t.mem = r.mem ∧ (t.part pn).queues = (r.part pn).queues) ∧
    (now.scBlock pn = (r, some b) → scBlockOk b = true → fieldAt b 0 1 = 3 → fieldAt b 8 8 % 4096 = 0 → 4 ≤ fieldAt b 24 1 →
      fieldAt b 24 1 ≤ 16 → fieldAt b 32 8 % 8 = 0 →
      ends (.scSetEventRing sl v) 0 fun t => t.mem = r.mem ∧
        (t.part pn).ring = some { addr := fieldAt b 8 8, logsz := fieldAt b 24 1, prod := fieldAt b 32 8 }))

/-- R293, R299 to R301: a window with activity is followed by the next; one without writes the snapshot, sets STALL and freezes the
partition. A debugger halts a warp and lets it go on; a thread that a Breakpoint holds goes on at its frame's word when the cause was
written to 0, and at the handler else. A grid that the kernel ends has no live thread and no team to place. When a debugger is attached
is the model's reading (log 37), and so is it that a dropped Breakpoint restores mask and mode (log 77). -/
def Obligations.MonitorAndDebuggerAct : Prop :=
  ∀ (pn u l grid : Nat) (was : Bool × Bool) (s : State),
    let p := s.part pn
    let w := s.unit u
    let now := (s.slice p.corner).clk
    let attached := w.live = true ∧ (s.grid w.grid).debug = true ∧ (s.part w.part).stalled = false
    (p.live = true → p.pmctl.getLsbD 31 = true → p.stalled = false → s.monitored pn = true →
      p.pmAt.toNat + 3000 * Nat.max 1 (p.pmctl.toNat % 2 ^ 24) ≤ now.toNat →
      (p.activity = true →
        exec (.progressWindowEnd pn) s = .next (s.modPart pn fun x => { x with activity := false, pmAt := now })) ∧
      (p.activity = false → s.snapReady pn = true →
        ∃ t, exec (.progressWindowEnd pn) s = .next t ∧ t.mem = (s.snapshot pn).mem ∧ (t.part pn).stalled = true ∧
          (t.part pn).pmstat.getLsbD 0 = true)) ∧
    (w.live = true → w.halted = false → (s.part w.part).stalled = false → s.holdsToken u = false →
      ∃ t, exec (.debugHalt u) s = .next t ∧ t.mem = s.mem ∧ (t.unit u).halted = true ∧ (t.grid w.grid).debug = true ∧
        ∀ k, ((t.unit u).lane k).v = if (w.lane k).inRegion then ((t.unit u).lane k).v else (w.lane k).v) ∧
    (attached → w.halted = true → (w.lane l).pend = none →
      ∃ t, exec (.debugResume u l false) s = .next t ∧ t.mem = s.mem ∧ (t.unit u).halted = false ∧ (t.unit u).th = w.th ∧
        (t.unit u).u = w.u) ∧
    (attached → l < 32 → (w.lane l).pend = some was →
      (∃ t, exec (.debugResume u l true) s = .next t ∧ t.mem = s.mem ∧ (t.unit u).halted = false ∧
        (t.unit u).lane l = (w.lane l).skipBreak w.reck (fun k => (s.ovl w k).tag) was ∧
        ∀ k, k ≠ l → (t.unit u).lane k = w.lane k) ∧
      (was.2 = false → w.u.tvec ≠ 0xFFFFFFFF#32 →
        ∃ t, exec (.debugResume u l false) s = .next t ∧ t.mem = s.mem ∧ (t.unit u).halted = false ∧
          (t.unit u).lane l = { w.lane l with pend := none } ∧ ∀ k, k ≠ l → (t.unit u).lane k = w.lane k)) ∧
    ((s.grid grid).st = .accepted ∨ (s.grid grid).st = .eligible → (s.part (s.grid grid).part).stalled = true →
      ∃ t, exec (.gridEndByKernel grid) s = .next t ∧ (∀ x ∈ s.units, x.2.grid = grid → (t.unit x.1).live = false) ∧
        (t.grid grid).placed = (s.grid grid).teams ∧ (t.grid grid).ended = (s.grid grid).teams ∧ (t.grid grid).holes = [])

/-! ### Partitions, power, the root of trust, stacks and hosts (R227, R302 to R311, R325 to R351) -/

/-- R302, R303, R306, R307, R309 to R311, R330: fusing a rectangle of FREE slices makes it a partition with its corner, world and ranges,
every slice owned and routed to the corner, the functions that have failed there recorded, and hart 0 started. Booting measures the
image, and hart 0 runs it only if its signature holds; a failed check is kept for SPDM. A resize notes the new rectangle; a slice that
joins is owned, and once every slice serves its memory lines are interleaved onto it and it takes teams; a slice that leaves is placed on
no more, its teams are withdrawn once their save areas have room, and when nothing stands on it its lines move to the others. Dissolving
leaves no partition, its slices scrubbing and its keys destroyed. The bytes measured at fusing are laid out by the model (log 93), and
what fusing asks of the number is log 80; that an image whose check fails is measured too is the model's reading of R309 and R330 (log
97). -/
def Obligations.PartitionsChange : Prop :=
  ∀ (x0 x1 y0 y1 pn sl : Nat) (world add sigOk : Bool) (ranges rs : List RangeWords) (image : List Byte) (e : Edge) (more : List Nat)
    (rect : Nat × Nat × Nat × Nat) (z : Resize) (s : State), s.rotUp = true →
    let p := s.part pn
    (let pn := 6 * y0 + x0
     x0 ≤ x1 → x1 ≤ 5 → y0 ≤ y1 → y1 ≤ 3 → (s.part pn).live = false → (∀ i ∈ rectSlices x0 x1 y0 y1, s.sliceOpen i = true) →
     ∃ t, exec (.partitionFuse x0 x1 y0 y1 world ranges) s = .next t ∧ t.mem = s.mem ∧ (t.part pn).live = true ∧
       (t.part pn).x0 = x0 ∧ (t.part pn).x1 = x1 ∧ (t.part pn).y0 = y0 ∧ (t.part pn).y1 = y1 ∧ (t.part pn).world = world ∧
       (t.part pn).slices = rectSlices x0 x1 y0 y1 ∧ (t.part pn).kernelUp = false ∧ (t.part pn).pmctl = 0x800186A0#32 ∧
       (t.part pn).ranges = (List.range 16).map (fun i => rangeBits (ranges.getD i rangeZero)) ∧
       (t.part pn).fails = (rectSlices x0 x1 y0 y1).flatMap s.failed ∧ (Tab.get Hart.init t.harts (8 * pn)).halted = false ∧
       ∀ i ∈ rectSlices x0 x1 y0 y1, (t.slice i).st = .owned ∧ (t.slice i).part = some pn ∧
         (t.slice i).irqroute = BitVec.ofNat 32 (2 ^ 31 + 8 * pn)) ∧
    (p.live = true → p.kernelUp = false → p.bootFail = false → (s.slice p.corner).srdy.getLsbD 3 = true →
      (∃ i ∈ p.slices, (s.slice i).srdy.getLsbD 8 = true ∧ (s.slice i).srdy.getLsbD 9 = true ∧ (s.slice i).portFrozen = false) →
      ∃ t, exec (.kernelBoot pn image sigOk) s = .next t ∧ t.mem = s.mem ∧ (t.part pn).kernelUp = sigOk ∧
        (t.part pn).bootFail = !sigOk ∧
        Tab.get 0#384 (t.part pn).meas 2 = Config.sha384 (measBytes (Tab.get 0#384 p.meas 2) ++ Config.bootImage p.world image) ∧
        (Tab.get Hart.init t.harts (8 * p.corner)).halted = !sigOk) ∧
    (p.live = true → p.kernelUp = true → p.resize = none → p.resized add e = some rect →
      let now := rectSlices p.x0 p.x1 p.y0 p.y1
      let new := rectSlices rect.1 rect.2.1 rect.2.2.1 rect.2.2.2
      (add = true → ∀ i ∈ new, i ∉ now → s.sliceOpen i = true) →
      ∃ t, exec (.partitionResize pn add e) s = .next t ∧ t.mem = s.mem ∧
        (t.part pn).resize = some { add, x0 := rect.1, x1 := rect.2.1, y0 := rect.2.2.1, y1 := rect.2.2.2,
                                    todo := if add then new.filter fun i => !(now.contains i) else now.filter fun i => !(new.contains i) }) ∧
    (p.resize = some z → z.todo = sl :: more →
      (z.add = true → sl ∉ p.slices → (s.slice sl).st = .free → (s.slice sl).part = none →
        ∃ t, exec (.resizeSliceStep pn) s = .next t ∧ t.mem = s.mem ∧ (t.part pn).ranges = p.ranges ∧ (t.part pn).slices = p.slices ++ [sl] ∧
          (t.part pn).resize = some z ∧ (t.slice sl).st = .owned ∧ (t.slice sl).part = some pn ∧ (t.slice sl).placing = false) ∧
      (z.add = true → sl ∈ p.slices → s.linesMove p = true → reRange p.ranges (fun x => x ||| sliceStacks sl) = some rs →
        ∃ t, exec (.resizeSliceStep pn) s = .next t ∧ (t.part pn).ranges = rs ∧
          t.mem = (s.relocate pn { p with ranges := rs } fun _ => false).mem ∧
          (more ≠ [] → (t.slice sl).placing = true ∧ (t.part pn).resize = some { z with todo := more })) ∧
      (z.add = false → (s.slice sl).placing = true →
        ∃ t, exec (.resizeSliceStep pn) s = .next t ∧ t.mem = s.mem ∧ (t.slice sl).placing = false ∧
          (s.leaveRoom sl = false → t.units = s.units)) ∧
      (z.add = false → (s.slice sl).placing = false → s.standing sl = false → s.sliceEmpty sl = true → (s.slice sl).srBusy = false →
        s.linesMove p = true →
        let all := (rectSlices z.x0 z.x1 z.y0 z.y1).foldl (fun m i => m ||| sliceStacks i) 0#64
        reRange p.ranges (fun x => if x &&& ~~~(sliceStacks sl) = 0#64 then all else x &&& ~~~(sliceStacks sl)) = some rs →
        ∃ t, exec (.resizeSliceStep pn) s = .next t ∧ (t.part pn).ranges = rs ∧
          t.mem = ((s.handOver sl (6 * z.y0 + z.x0)).relocate pn { p with ranges := rs } fun i => i == sl).mem)) ∧
    (p.live = true → p.resize = none →
      ∃ t, exec (.partitionDissolve pn) s = .next t ∧ t.mem = s.mem ∧ (∀ i ∈ p.slices, (t.slice i).st = .scrubbing ∧ (t.slice i).part = none) ∧
        (t.part pn).live = false ∧ (∀ k ∈ t.rot.keys, k.part = pn → k.dead = true))

/-- R307, R311, R347, R350: a scrub step zeroes 64 MiB of a stack, leaves every other byte, and clears the poison there; after the last
the slice is FREE. Power that fails is off, with the stacks, the journal and the keys as they were and nothing running; when it returns,
or when the root of trust is reset, a slice that was being scrubbed is TAINTED. The standby takes over with the same keys, its bit behind
its firewall's, and every SPDM transcript starts anew. What a loss of power keeps is the model's choice (log 94). -/
def Obligations.ScrubAndPower : Prop :=
  ∀ (sl : Nat) (s : State),
    let x := s.slice sl
    let lo := (2 * sl + x.chunk / 1024) * 2 ^ 36 + x.chunk % 1024 * 2 ^ 26
    let anew := fun (t : State) => ∀ p ∈ t.parts, p.2.spdm.phase = 0 ∧ p.2.spdm.transcript = [] ∧ p.2.spdm.reply = []
    (s.rotUp = true → (x.st = .scrubbing ∨ x.st = .tainted) → x.srdy.getLsbD (5 + x.chunk / 1024) = true →
      s.banksOpen (2 * sl + x.chunk / 1024) = true → ∃ t, exec (.scrubChunk sl) s = .next t ∧ (∀ k, lo ≤ k → k < lo + 2 ^ 26 → t.byte k = 0#8) ∧
        (∀ k, k < lo ∨ lo + 2 ^ 26 ≤ k → t.byte k = s.byte k) ∧ (∀ k, lo ≤ 128 * k → 128 * k < lo + 2 ^ 26 → t.poisoned k = false) ∧
        (x.chunk ≠ 2047 → (t.slice sl).chunk = x.chunk + 1 ∧ (t.slice sl).st = x.st) ∧
        (x.chunk = 2047 → (t.slice sl).chunk = 0 ∧ (t.slice sl).st = .free)) ∧
    (s.powered = true → ∃ t, exec .powerFail s = .next t ∧ t.powered = false ∧ t.mem = s.mem ∧ t.units = [] ∧ t.cmds = [] ∧
      t.rot.keys = s.rot.keys ∧ t.rot.flash = s.rot.flash ∧ t.rot.standby = false ∧
      ∀ p ∈ t.slices, p.2.srdy = 0#32) ∧
    (s.powered = false → ∃ t, exec .powerOn s = .next t ∧ t.powered = true ∧ t.mem = s.mem ∧ ∀ p ∈ t.slices, p.2.st ≠ .scrubbing) ∧
    (s.powered = true → ∃ t, exec .rotReset s = .next t ∧ t.mem = s.mem ∧ anew t ∧ ∀ p ∈ t.slices, p.2.st ≠ .scrubbing) ∧
    (s.powered = true → s.rot.standby = false →
      ∃ t, exec .rotFailover s = .next t ∧ t.mem = s.mem ∧ anew t ∧ t.rot = { s.rot with standby := true } ∧
        (t.slice 23).srdy.getLsbD 0 = ((s.slice 23).srdy.getLsbD 0 || (s.slice 23).srdy.getLsbD 2))

/-- R325, R328, R330: a handle names its partition, world and class and a key slot that no key has; a destroyed key is dead. An extend of
one of registers 5 to 15 hashes the old value and the bytes submitted. The flash gives a world what its own key deciphers, and a read
writes nothing. Hash and keys are values without a body (log 11). -/
def Obligations.RootOfTrustKeeps : Prop :=
  ∀ (pn ix i addr len : Nat) (cls : BitVec 2) (m : List Byte) (world : Bool) (s : State), s.rotUp = true → (s.part pn).live = true →
    let p := s.part pn
    let top := (if p.world then 2 ^ 31 else 0) + p.corner * 2 ^ 26 + cls.toNat * 2 ^ 24
    let named := fun (k : Key) => k.part = pn ∧ k.handle.toNat % 2 ^ 24 = i ∧ k.handle.toNat / 2 ^ 24 % 4 = cls.toNat
    (s.rot.freeIndex < 2 ^ 24 →
      ∃ t, exec (.keyHandleIssue pn cls none) s = .next t ∧ t.mem = s.mem ∧
        ∃ k, t.rot.keys = s.rot.keys ++ [k] ∧ k.handle = BitVec.ofNat 32 (top + s.rot.freeIndex) ∧ k.part = pn ∧ k.dead = false ∧ k.seq = 0#64 ∧
          ∀ x ∈ s.rot.keys, x.handle.toNat % 2 ^ 24 ≠ s.rot.freeIndex) ∧
    ((∃ k ∈ s.rot.keys, named k ∧ k.dead = false) →
      ∃ t, exec (.keyHandleIssue pn cls (some i)) s = .next t ∧ t.mem = s.mem ∧ (∀ k ∈ t.rot.keys, named k → k.dead = true) ∧
        ∀ k ∈ s.rot.keys, ¬ named k → k ∈ t.rot.keys) ∧
    (p.kernelUp = true → 5 ≤ ix → ix ≤ 15 →
      ∃ t, exec (.measurementExtend pn ix m) s = .next t ∧ t.mem = s.mem ∧
        ∀ j, Tab.get 0#384 (t.part pn).meas j = if j = ix then Config.sha384 (measBytes (Tab.get 0#384 p.meas ix) ++ m)
          else Tab.get 0#384 p.meas j) ∧
    (∃ t, exec (.flashAccess world addr none len) s = .next t ∧ t.mem = s.mem ∧ t.rot.flash = s.rot.flash ∧
      (addr % 4096 + len ≤ 4096 → 0 < len →
        t.rot.flashOut = ((s.flashPlain world (addr / 4096)).drop (addr % 4096)).take len)) ∧
    (∀ bs : List Byte, ∃ t, exec (.flashAccess world addr (some bs) len) s = .next t ∧ t.mem = s.mem ∧ t.rot.keys = s.rot.keys ∧
      (addr % 4096 + bs.length ≤ 4096 → ∀ k, k / 4096 ≠ addr / 4096 → Tab.get 0#8 t.rot.flash k = Tab.get 0#8 s.rot.flash k))

/-- R329, R330: an SPDM request is answered: as Busy; or, where the sequence has not come so far, as unexpected; or with a response that
is added to the transcript after the request and moves the sequence on; CHALLENGE_AUTH and MEASUREMENTS end with a signature over the
SHA-384 hash of it. GET_VERSION starts the transcript anew. Nothing else of the partition changes. The request codes are those of DMTF
DSP0274 and the bodies of responses are free (log 12). -/
def Obligations.SpdmIsAnswered : Prop :=
  ∀ (pn : Nat) (req : List Byte) (s : State), s.rotUp = true → (s.part pn).live = true →
    (∃ i ∈ (s.part pn).slices, (s.slice i).srdy.getLsbD 8 = true ∧ (s.slice i).srdy.getLsbD 9 = true ∧ (s.slice i).portFrozen = false) →
    let was := (s.part pn).spdm
    let answered := fun (code : Nat) (i : Instr) (need : Nat) (next : Nat) =>
      (req.getD 1 0#8).toNat = code → (code = 0x82 ∨ code = 0x83 → certSlot0 req = true) →
      ∃ d : Spdm, exec i s = .next (s.modPart pn fun p => { p with spdm := d }) ∧
        (Config.rotBusy s.tick = true → d = { was with reply := [0x13#8, 0x7F#8, 0x03#8, 0x00#8] }) ∧
        (Config.rotBusy s.tick = false → (if need ≤ 2 then was.phase = need else 3 ≤ was.phase) ∨ code = 0x84 →
          d.phase = next ∧ d.transcript = (if code = 0x84 then [] else was.transcript) ++ req ++ d.reply ∧
          d.reply.take 2 = [0x13#8, BitVec.ofNat 8 (code % 128)] ∧ d.hash = Config.sha384 d.transcript ∧
          (code = 0x83 ∨ code = 0xE0 → ∃ body,
            d.reply = body ++ leBytes 96 (Config.spdmSig pn (Config.sha384 (was.transcript ++ req ++ body))).toNat)) ∧
        (Config.rotBusy s.tick = false → ¬ (if need ≤ 2 then was.phase = need else 3 ≤ was.phase) → code ≠ 0x84 →
          d = { was with reply := [0x13#8, 0x7F#8, 0x04#8, 0x00#8] })
    answered 0x84 (.getVersion pn req) 0 1 ∧ answered 0xE1 (.getCapabilities pn req) 1 2 ∧
    answered 0xE3 (.negotiateAlgorithms pn req) 2 3 ∧ answered 0x81 (.getDigests pn req) 3 was.phase ∧
    answered 0x82 (.getCertificate pn req) 3 was.phase ∧ answered 0x83 (.challenge pn req) 3 was.phase ∧
    answered 0xE0 (.getMeasurements pn req) 3 was.phase

/-- R326, R327: a packet takes the counter and its ciphertext is kept, a retry sends that unchanged, until the link acknowledges it. A
packet whose counter is not fresh, or that does not authenticate, is dropped and counted; an accepted one is delivered, and its counter
is not fresh any more. A rekey bars new packets; when it ends, every packet acknowledged, both counters are 0. An unreachable peer ends
the barrier, and the commands that waited fail. That both counters start at 0, and when the link acknowledges, are the model's readings
(log 96, 118). -/
def Obligations.PacketsAndRekeys : Prop :=
  ∀ (sl a key : Nat) (n : DWord) (bs : List Byte) (salt : Word) (x : Assoc) (s : State), Tab.find? s.rot.assocs (assocKey sl a) = some x →
    let now := fun (i : Instr) (f : Assoc → Prop) =>
      ∃ t y, exec i s = .next t ∧ t.mem = s.mem ∧ Tab.find? t.rot.assocs (assocKey sl a) = some y ∧ f y
    (s.assocAt sl a = some x → x.barred = false → x.needRekey = false →
      now (.packetSend sl a bs) fun y => y.tx = x.tx + 1#64 ∧ y.sent = x.sent ++ [(x.tx, Config.gcmSeal x.key x.salt x.tx bs)] ∧
        (y.needRekey = true ↔ 2 ^ 64 - 2 ^ 32 ≤ (x.tx + 1#64).toNat)) ∧
    (s.assocAt sl a = some x → (∃ p ∈ x.sent, p.1 = n) →
      (Config.linkAck s.tick = false → exec (.packetRetry sl a n) s = .next s) ∧
      (Config.linkAck s.tick = true → now (.packetRetry sl a n) fun y => y = { x with sent := x.sent.filter fun p => !(p.1 == n) })) ∧
    (s.assocAt sl a = some x → (s.slice sl).portFrozen = false → x.fresh n = false →
      now (.packetReceive sl a n bs) fun y => y = { x with drops := x.drops + 1 }) ∧
    (s.assocAt sl a = some x → (s.slice sl).portFrozen = false → x.fresh n = true →
      now (.packetReceive sl a n bs) fun y => match Config.gcmOpen x.rxKey x.rxSalt n bs with
        | none => y.drops = x.drops + 1 ∧ y.fails = x.fails + 1 ∧ y.delivered = x.delivered ∧ (8 ≤ y.fails → y.needRekey = true)
        | some payload => y.fresh n = false ∧ y.fails = 0 ∧ (y.delivered = x.delivered ++ [payload] ∨ y.delivered = x.delivered)) ∧
    (s.rotUp = true → now (.rekey sl a) fun y => y = { x with barred := true }) ∧
    (s.rotUp = true → s.chanHandle sl a = true → x.barred = true → x.sent = [] →
      now (.rekeyReopen sl a key salt) fun y => y.key = key ∧ y.salt = salt ∧ y.tx = 0#64 ∧ y.rxHigh = 0#64 ∧ y.sent = [] ∧
        y.barred = false ∧ y.needRekey = false) ∧
    (x.barred = true → now (.peerUnreachable sl a) fun y => y.barred = false ∧ y.sent = [] ∧ y.key = x.key)

/-- R339, R342, R349, R350: a request to a bank that is not shut, on a line without errors, is answered under its tag: a read with the
bytes of its line, a write with its sectors stored and every other byte as before, an atomic with the old value and the new one stored, a
zero request with the line zero. A request to a bank that is shut, or whose row has reached its threshold, waits. -/
def Obligations.StackRequestsAreServed : Prop :=
  ∀ (p : Packet) (s : State), s.stackUp p.stack = true → p.line < 2 ^ 29 → (∀ h ∈ (s.stack p.stack).held, h.2.tag ≠ p.tag) →
    let key := pktKey p
    let low := 128 * p.line < 0xFFC000000
    let shut := (s.stack p.stack).shut (bankKey (pktAddr p)) (s.tick + 1)
    let clean := s.poisoned (key / 128) = false ∧ Tab.get 0 s.ecc (2 * (key / 128)) = 0 ∧ Tab.get 0 s.ecc (2 * (key / 128) + 1) = 0
    let served := fun (i : Instr) (data : List Byte) (f : State → Prop) => ∃ t, exec i s = .next t ∧ f t ∧
      { tag := p.tag, status := 0, data } ∈ (t.stack p.stack).replies
    let n := atomSize p.aop
    let old := s.bytes (key + p.off) n
    let out := fun (t : State) (lo m : Nat) => ∀ k, k < lo ∨ lo + m ≤ k → t.byte k = s.byte k
    (low → shut = false → clean → p.layout = 0#2 → served (.stackRead p) (s.bytes key 128) fun t => t.mem = s.mem) ∧
    (low → shut = false → clean → served (.stackWrite p) [] fun t =>
      (∀ i, i < 128 → t.byte (key + i) = if p.smask.getLsbD (i / 32) then p.data.getD i 0#8 else s.byte (key + i)) ∧ out t key 128) ∧
    (low → shut = false → clean → p.off % n = 0 → p.off + n ≤ 128 → served (.stackAtomic p) old fun t =>
      t.bytes (key + p.off) n = leBytes n (atomApply p.aop (BitVec.ofNat 64 (leNat old)) p.x p.y).toNat ∧ out t (key + p.off) n) ∧
    (shut = false → served (.stackZeroLine p) [] fun t =>
      (∀ i, i < 128 → t.byte (key + i) = 0#8) ∧ out t key 128 ∧ t.poisoned (key / 128) = false) ∧
    (low → shut = true → exec (.stackRead p) s = .next (s.modStack p.stack fun t => { t with held := t.held ++ [(0, p)] }))

/-- R335, R336, R338, R339, R349, R350: refresh management of a due row clears its count, records the alert and blocks the bank; 570
cycles later the block ends. A refresh window that ends clears every count of its stack. A patrol read corrects an error or poisons the
line, and leaves the bytes and the counts of rows. -/
def Obligations.StacksAreMaintained : Prop :=
  ∀ (stk pch bank line k due : Nat) (start : DWord) (s : State),
    let t := s.stack stk
    let b := pch * 64 + bank
    let x := s.slice (stk / 2)
    (Tab.find? t.blocked b = none → List.find? (fun p => p.1 / 8192 == b) t.due = some (k, due) →
      ∃ t', exec (.refreshManagement stk pch bank) s = .next t' ∧ t'.mem = s.mem ∧ Tab.get 0 (t'.stack stk).counts k = 0 ∧
        Tab.find? (t'.stack stk).blocked b = some x.clk ∧ (t'.slice (stk / 2)).mevstat = x.mevstat ||| 2#32 ∧
        (t'.slice (stk / 2)).actaddr = actAddr stk pch bank (k % 8192)) ∧
    (Tab.find? t.blocked b = some start → start.toNat + 570 ≤ x.clk.toNat → (∀ h ∈ t.held, bankKey (pktAddr h.2) ≠ b) →
      ∃ t', exec (.bankBlockEnd stk pch bank) s = .next t' ∧ t'.mem = s.mem ∧ (∀ e ∈ (t'.stack stk).blocked, e.1 ≠ b) ∧
        (t'.stack stk).held = t.held) ∧
    (stk < 48 → t.win.toNat + 96000000 ≤ x.clk.toNat →
      ∃ t', exec (.refreshWindowEnd stk) s = .next t' ∧ t'.mem = s.mem ∧ (t'.stack stk).counts = [] ∧ (t'.stack stk).base = [] ∧
        (t'.stack stk).win = x.clk) ∧
    (s.stackUp stk = true → line < 2 ^ 29 →
      let l := stk * 2 ^ 29 + line
      ∃ t', exec (.patrolRead stk line) s = .next t' ∧ t'.mem = s.mem ∧ t'.stackTab = s.stackTab ∧
        (lineSound s (128 * l) = true → Tab.get 0 t'.ecc (2 * l) = 0 ∧ Tab.get 0 t'.ecc (2 * l + 1) = 0) ∧
        (s.poisoned l = false → lineSound s (128 * l) = false → t'.poisoned l = true))

/-- R227, R304 to R306: a hart of a booted partition loads what the bytes hold that its address names, itself or through its tables,
stores into them alone, adds to a word and gets the old one, reserves with LR, writes with SC only what it has reserved, and reads the
registers of its partition's slices; a page that its tables do not map is a page fault; an access outside the partition's ranges freezes
the hart and touches nothing. That LR and SC work by a reservation with the replies 0 and 1, and the walk of the tables as Sv57, are the
model's choice from RISC-V (log 122); that an access starts a halted hart is the model's too (log 98). -/
def Obligations.HostAccessesArePerformed : Prop :=
  ∀ (pn h va pa n sl : Nat) (via : Option Nat) (at_ : HostPlace) (bs : List Byte) (y : DWord) (aq rl : Bool) (l : Loc) (s r : State),
    let p := s.part pn
    p.live = true → (p.kernelUp = true ∨ (Tab.get Hart.init s.harts h).halted = false) → p.slices.contains (h / 8) = true →
    (s.slice (h / 8)).srdy.getLsbD 3 = true → (Tab.get Hart.init s.harts h).frozen = false →
    let hart := fun (t : State) => Tab.get Hart.init t.harts h
    let ag := Agent.hart (h / 8) (h % 8)
    let out := fun (t : State) (m : Nat) => ∀ k, k < l.key ∨ l.key + m ≤ k → t.byte k = s.byte k
    let now := s.modHart h fun x => { x with reply := [], fault := false, pageFault := false, halted := false }
    let acc := fun (pa n : Nat) (s : State) (unc : Bool) =>
      ({ agent := ag, clock := s.order.clock ag, loc := locOf pn pa, key := l.key, len := n, k := false, unc := unc, cls := l.cls,
         comp := l.comp, bias := 31, req := Req.free } : Acc1)
    (now.hostPlace p via va false = (r, .ok at_) → lineChunks va n = [(va, n)] → regSlice at_.pa = none →
      (r.part pn).locate at_.pa = some l → r.lineReady l.key at_.unc = true → lineSound r l.key = true →
      r.raceTest (acc at_.pa n r at_.unc) false none = none →
      ∃ t, exec (.hostAccess pn h (.load via va n)) s = .next t ∧ t.mem = r.mem ∧ (hart t).reply = r.bytes l.key n ∧
        (hart t).fault = false ∧ (hart t).pageFault = false) ∧
    (now.hostPlace p via va false = (r, .pageFault) → lineChunks va n = [(va, n)] →
      ∃ t, exec (.hostAccess pn h (.load via va n)) s = .next t ∧ t.mem = r.mem ∧ (hart t).pageFault = true ∧ (hart t).reply = []) ∧
    (regSlice pa = none → p.locate pa = some l → s.lineReady l.key false = true →
      (lineChunks pa n = [(pa, n)] → bs.length = n → now.snapHeld pn pa = false → now.raceTest (acc pa n now false) true none = none →
        ∃ t, exec (.hostAccess pn h (.store none pa bs)) s = .next t ∧ t.bytes l.key n = bs ∧ out t n ∧ (hart t).fault = false) ∧
      (pa % 4 = 0 → lineSound s l.key = true → now.snapHeld pn pa = false → now.raceTest (acc pa 4 now false) true (some 2#2) = none →
        let old := s.bytes l.key 4
        ∃ t, exec (.hostAccess pn h (.amo none pa .add false y aq rl)) s = .next t ∧ (hart t).reply = old ∧
          t.bytes l.key 4 = leBytes 4 (BitVec.ofNat 32 (leNat old) + y.lo).toNat ∧ out t 4) ∧
      (pa % 4 = 0 → lineSound s l.key = true → now.raceTest (acc pa 4 now false) false (some 2#2) = none →
        ∃ t, exec (.hostAccess pn h (.lr none pa false aq rl)) s = .next t ∧ t.mem = s.mem ∧ (hart t).reply = s.bytes l.key 4 ∧
          (h, l.key, 4) ∈ t.resv) ∧
      (pa % 4 = 0 → lineSound s l.key = true → now.snapHeld pn pa = false → now.raceTest (acc pa 4 now false) true (some 2#2) = none →
        (h, l.key, 4) ∈ s.resv →
        ∃ t, exec (.hostAccess pn h (.sc none pa false y aq rl)) s = .next t ∧ (hart t).reply = [0#8] ∧
          t.bytes l.key 4 = leBytes 4 y.lo.toNat ∧ out t 4 ∧ ∀ x ∈ t.resv, x.1 ≠ h)) ∧
    ((∀ x ∈ s.resv, x.1 ≠ h) →
      ∃ t, exec (.hostAccess pn h (.sc via va false y aq rl)) s = .next t ∧ t.mem = s.mem ∧ (hart t).reply = [1#8]) ∧
    (regSlice pa = none → p.locate pa = none → lineChunks pa n = [(pa, n)] →
      ∃ t, exec (.hostAccess pn h (.load none pa n)) s = .next t ∧ t.mem = s.mem ∧ (hart t).frozen = true ∧ (hart t).frozenPa = pa ∧
        (hart t).reply = []) ∧
    (regSlice pa = some sl → (s.slice sl).part = some pn → (s.slice sl).srdy.getLsbD 2 = true → pa % 8 = 0 →
      ∃ t, exec (.hostAccess pn h (.load none pa 8)) s = .next t ∧ t.mem = s.mem ∧
        (hart t).reply = leBytes 8 (s.regRead sl ((pa - regBase) % 65536)).toNat) ∧
    (∃ t, exec (.hostAccess pn h .fence) s = .next t ∧ t.mem = s.mem ∧ (hart t).halted = false)
end

