-- ==== Sys2Proof/Laws/Exec.lean ====
section
/-!
SUPPORT. The arms of `exec`, one equation each, so that no proof unfolds the dispatch.
-/

namespace Sys2Proof.Machine

@[simp] theorem exec_nop (g : BitVec 3) (s : State) : exec (.nop g) s = execNop g s := rfl
@[simp] theorem exec_mov (g : BitVec 3) (d : Dest) (a : Src) (s : State) : exec (.mov g d a) s = execMov g d a s := rfl
@[simp] theorem exec_vbc (g : BitVec 3) (d : Dest) (n : Fin 64) (s : State) : exec (.vbc g d n) s = execVbc g d n s := rfl
@[simp] theorem exec_iadd (g : BitVec 3) (d : Dest) (a : Src) (b : Src) (s : State) : exec (.iadd g d a b) s = execIadd g d a b s := rfl
@[simp] theorem exec_isub (g : BitVec 3) (d : Dest) (a : Src) (b : Src) (s : State) : exec (.isub g d a b) s = execIsub g d a b s := rfl
@[simp] theorem exec_imul (g : BitVec 3) (d : Dest) (a : Src) (b : Src) (s : State) : exec (.imul g d a b) s = execImul g d a b s := rfl
@[simp] theorem exec_imulh (g : BitVec 3) (d : Dest) (a : Src) (b : Src) (s : State) : exec (.imulh g d a b) s = execImulh g d a b s := rfl
@[simp] theorem exec_imulhu (g : BitVec 3) (d : Dest) (a : Src) (b : Src) (s : State) : exec (.imulhu g d a b) s = execImulhu g d a b s := rfl
@[simp] theorem exec_imac (g : BitVec 3) (d : Fin 120) (a : Src) (b : Src) (s : State) : exec (.imac g d a b) s = execImac g d a b s := rfl
@[simp] theorem exec_imin (g : BitVec 3) (d : Dest) (a : Src) (b : Src) (s : State) : exec (.imin g d a b) s = execImin g d a b s := rfl
@[simp] theorem exec_imax (g : BitVec 3) (d : Dest) (a : Src) (b : Src) (s : State) : exec (.imax g d a b) s = execImax g d a b s := rfl
@[simp] theorem exec_umin (g : BitVec 3) (d : Dest) (a : Src) (b : Src) (s : State) : exec (.umin g d a b) s = execUmin g d a b s := rfl
@[simp] theorem exec_umax (g : BitVec 3) (d : Dest) (a : Src) (b : Src) (s : State) : exec (.umax g d a b) s = execUmax g d a b s := rfl
@[simp] theorem exec_iabs (g : BitVec 3) (d : Dest) (a : Src) (s : State) : exec (.iabs g d a) s = execIabs g d a s := rfl
@[simp] theorem exec_andOp (g : BitVec 3) (d : Dest) (a : Src) (b : Src) (s : State) : exec (.andOp g d a b) s = execAnd g d a b s := rfl
@[simp] theorem exec_orOp (g : BitVec 3) (d : Dest) (a : Src) (b : Src) (s : State) : exec (.orOp g d a b) s = execOr g d a b s := rfl
@[simp] theorem exec_xorOp (g : BitVec 3) (d : Dest) (a : Src) (b : Src) (s : State) : exec (.xorOp g d a b) s = execXor g d a b s := rfl
@[simp] theorem exec_andn (g : BitVec 3) (d : Dest) (a : Src) (b : Src) (s : State) : exec (.andn g d a b) s = execAndn g d a b s := rfl
@[simp] theorem exec_shl (g : BitVec 3) (d : Dest) (a : Src) (b : Src) (s : State) : exec (.shl g d a b) s = execShl g d a b s := rfl
@[simp] theorem exec_shr (g : BitVec 3) (d : Dest) (a : Src) (b : Src) (s : State) : exec (.shr g d a b) s = execShr g d a b s := rfl
@[simp] theorem exec_sar (g : BitVec 3) (d : Dest) (a : Src) (b : Src) (s : State) : exec (.sar g d a b) s = execSar g d a b s := rfl
@[simp] theorem exec_clz (g : BitVec 3) (d : Dest) (a : Src) (s : State) : exec (.clz g d a) s = execClz g d a s := rfl
@[simp] theorem exec_popc (g : BitVec 3) (d : Dest) (a : Src) (s : State) : exec (.popc g d a) s = execPopc g d a s := rfl
@[simp] theorem exec_brev (g : BitVec 3) (d : Dest) (a : Src) (s : State) : exec (.brev g d a) s = execBrev g d a s := rfl
@[simp] theorem exec_bfe (g : BitVec 3) (d : Dest) (a : Src) (b : Src) (s : State) : exec (.bfe g d a b) s = execBfe g d a b s := rfl
@[simp] theorem exec_bfes (g : BitVec 3) (d : Dest) (a : Src) (b : Src) (s : State) : exec (.bfes g d a b) s = execBfes g d a b s := rfl
@[simp] theorem exec_bfi (g : BitVec 3) (d : Fin 120) (a : Src) (b : Src) (s : State) : exec (.bfi g d a b) s = execBfi g d a b s := rfl
@[simp] theorem exec_sel (g : BitVec 3) (d : Dest) (a : Src) (b : Src) (s : State) : exec (.sel g d a b) s = execSel g d a b s := rfl
@[simp] theorem exec_icmpeq (g : BitVec 3) (p : Fin 7) (a : Src) (b : Src) (s : State) : exec (.icmpeq g p a b) s = execIcmpeq g p a b s := rfl
@[simp] theorem exec_icmpne (g : BitVec 3) (p : Fin 7) (a : Src) (b : Src) (s : State) : exec (.icmpne g p a b) s = execIcmpne g p a b s := rfl
@[simp] theorem exec_icmplt (g : BitVec 3) (p : Fin 7) (a : Src) (b : Src) (s : State) : exec (.icmplt g p a b) s = execIcmplt g p a b s := rfl
@[simp] theorem exec_icmple (g : BitVec 3) (p : Fin 7) (a : Src) (b : Src) (s : State) : exec (.icmple g p a b) s = execIcmple g p a b s := rfl
@[simp] theorem exec_ucmplt (g : BitVec 3) (p : Fin 7) (a : Src) (b : Src) (s : State) : exec (.ucmplt g p a b) s = execUcmplt g p a b s := rfl
@[simp] theorem exec_ucmple (g : BitVec 3) (p : Fin 7) (a : Src) (b : Src) (s : State) : exec (.ucmple g p a b) s = execUcmple g p a b s := rfl
@[simp] theorem exec_pand (g : BitVec 3) (p : Fin 7) (a : Fin 8) (b : Fin 8) (s : State) : exec (.pand g p a b) s = execPand g p a b s := rfl
@[simp] theorem exec_por (g : BitVec 3) (p : Fin 7) (a : Fin 8) (b : Fin 8) (s : State) : exec (.por g p a b) s = execPor g p a b s := rfl
@[simp] theorem exec_pxor (g : BitVec 3) (p : Fin 7) (a : Fin 8) (b : Fin 8) (s : State) : exec (.pxor g p a b) s = execPxor g p a b s := rfl
@[simp] theorem exec_pnot (g : BitVec 3) (p : Fin 7) (a : Fin 8) (s : State) : exec (.pnot g p a) s = execPnot g p a s := rfl
@[simp] theorem exec_ptov (g : BitVec 3) (d : Dest) (a : Fin 8) (s : State) : exec (.ptov g d a) s = execPtov g d a s := rfl
@[simp] theorem exec_vtop (g : BitVec 3) (p : Fin 7) (a : Src) (s : State) : exec (.vtop g p a) s = execVtop g p a s := rfl
@[simp] theorem exec_fadd (g : BitVec 3) (d : Dest) (a : Src) (b : Src) (s : State) : exec (.fadd g d a b) s = execFadd g d a b s := rfl
@[simp] theorem exec_fsub (g : BitVec 3) (d : Dest) (a : Src) (b : Src) (s : State) : exec (.fsub g d a b) s = execFsub g d a b s := rfl
@[simp] theorem exec_fmul (g : BitVec 3) (d : Dest) (a : Src) (b : Src) (s : State) : exec (.fmul g d a b) s = execFmul g d a b s := rfl
@[simp] theorem exec_fmac (g : BitVec 3) (d : Fin 120) (a : Src) (b : Src) (s : State) : exec (.fmac g d a b) s = execFmac g d a b s := rfl
@[simp] theorem exec_fmal (g : BitVec 3) (d : Dest) (a : Src) (b : Src) (s : State) : exec (.fmal g d a b) s = execFmal g d a b s := rfl
@[simp] theorem exec_fmin (g : BitVec 3) (d : Dest) (a : Src) (b : Src) (s : State) : exec (.fmin g d a b) s = execFmin g d a b s := rfl
@[simp] theorem exec_fmax (g : BitVec 3) (d : Dest) (a : Src) (b : Src) (s : State) : exec (.fmax g d a b) s = execFmax g d a b s := rfl
@[simp] theorem exec_fscale (g : BitVec 3) (d : Dest) (a : Src) (b : Src) (s : State) : exec (.fscale g d a b) s = execFscale g d a b s := rfl
@[simp] theorem exec_fcmpeq (g : BitVec 3) (p : Fin 7) (a : Src) (b : Src) (s : State) : exec (.fcmpeq g p a b) s = execFcmpeq g p a b s := rfl
@[simp] theorem exec_fcmplt (g : BitVec 3) (p : Fin 7) (a : Src) (b : Src) (s : State) : exec (.fcmplt g p a b) s = execFcmplt g p a b s := rfl
@[simp] theorem exec_fcmple (g : BitVec 3) (p : Fin 7) (a : Src) (b : Src) (s : State) : exec (.fcmple g p a b) s = execFcmple g p a b s := rfl
@[simp] theorem exec_fcmpun (g : BitVec 3) (p : Fin 7) (a : Src) (b : Src) (s : State) : exec (.fcmpun g p a b) s = execFcmpun g p a b s := rfl
@[simp] theorem exec_frcp (g : BitVec 3) (d : Dest) (a : Src) (s : State) : exec (.frcp g d a) s = execFrcp g d a s := rfl
@[simp] theorem exec_frsq (g : BitVec 3) (d : Dest) (a : Src) (s : State) : exec (.frsq g d a) s = execFrsq g d a s := rfl
@[simp] theorem exec_fsqrt (g : BitVec 3) (d : Dest) (a : Src) (s : State) : exec (.fsqrt g d a) s = execFsqrt g d a s := rfl
@[simp] theorem exec_fexp2 (g : BitVec 3) (d : Dest) (a : Src) (s : State) : exec (.fexp2 g d a) s = execFexp2 g d a s := rfl
@[simp] theorem exec_flog2 (g : BitVec 3) (d : Dest) (a : Src) (s : State) : exec (.flog2 g d a) s = execFlog2 g d a s := rfl
@[simp] theorem exec_fsinpi (g : BitVec 3) (d : Dest) (a : Src) (s : State) : exec (.fsinpi g d a) s = execFsinpi g d a s := rfl
@[simp] theorem exec_fcospi (g : BitVec 3) (d : Dest) (a : Src) (s : State) : exec (.fcospi g d a) s = execFcospi g d a s := rfl
@[simp] theorem exec_ftanh (g : BitVec 3) (d : Dest) (a : Src) (s : State) : exec (.ftanh g d a) s = execFtanh g d a s := rfl
@[simp] theorem exec_badd2 (g : BitVec 3) (d : Dest) (a : Src) (b : Src) (s : State) : exec (.badd2 g d a b) s = execBadd2 g d a b s := rfl
@[simp] theorem exec_bmul2 (g : BitVec 3) (d : Dest) (a : Src) (b : Src) (s : State) : exec (.bmul2 g d a b) s = execBmul2 g d a b s := rfl
@[simp] theorem exec_bmac2 (g : BitVec 3) (d : Fin 120) (a : Src) (b : Src) (s : State) : exec (.bmac2 g d a b) s = execBmac2 g d a b s := rfl
@[simp] theorem exec_bmax2 (g : BitVec 3) (d : Dest) (a : Src) (b : Src) (s : State) : exec (.bmax2 g d a b) s = execBmax2 g d a b s := rfl
@[simp] theorem exec_hadd2 (g : BitVec 3) (d : Dest) (a : Src) (b : Src) (s : State) : exec (.hadd2 g d a b) s = execHadd2 g d a b s := rfl
@[simp] theorem exec_hmul2 (g : BitVec 3) (d : Dest) (a : Src) (b : Src) (s : State) : exec (.hmul2 g d a b) s = execHmul2 g d a b s := rfl
@[simp] theorem exec_hmac2 (g : BitVec 3) (d : Fin 120) (a : Src) (b : Src) (s : State) : exec (.hmac2 g d a b) s = execHmac2 g d a b s := rfl
@[simp] theorem exec_hmax2 (g : BitVec 3) (d : Dest) (a : Src) (b : Src) (s : State) : exec (.hmax2 g d a b) s = execHmax2 g d a b s := rfl
@[simp] theorem exec_cvtfi (g : BitVec 3) (d : Dest) (a : Src) (s : State) : exec (.cvtfi g d a) s = execCvtfi g d a s := rfl
@[simp] theorem exec_cvtif (g : BitVec 3) (d : Dest) (a : Src) (s : State) : exec (.cvtif g d a) s = execCvtif g d a s := rfl
@[simp] theorem exec_pkbf (g : BitVec 3) (d : Dest) (a : Src) (b : Src) (s : State) : exec (.pkbf g d a b) s = execPkbf g d a b s := rfl
@[simp] theorem exec_pkhf (g : BitVec 3) (d : Dest) (a : Src) (b : Src) (s : State) : exec (.pkhf g d a b) s = execPkhf g d a b s := rfl
@[simp] theorem exec_upklo (g : BitVec 3) (d : Dest) (a : Src) (s : State) : exec (.upklo g d a) s = execUpklo g d a s := rfl
@[simp] theorem exec_upkhi (g : BitVec 3) (d : Dest) (a : Src) (s : State) : exec (.upkhi g d a) s = execUpkhi g d a s := rfl
@[simp] theorem exec_cvtn (g : BitVec 3) (d : Dest) (a : Src) (slot : Fin 8) (mode : BitVec 4) (s : State) : exec (.cvtn g d a slot mode) s = execCvtn g d a slot mode s := rfl
@[simp] theorem exec_cvtw (g : BitVec 3) (d : Dest) (a : Src) (slot : Fin 8) (mode : BitVec 4) (s : State) : exec (.cvtw g d a slot mode) s = execCvtw g d a slot mode s := rfl
@[simp] theorem exec_qscale (g : BitVec 3) (d : Dest) (a : Src) (slot : Fin 8) (mode : BitVec 4) (s : State) : exec (.qscale g d a slot mode) s = execQscale g d a slot mode s := rfl
@[simp] theorem exec_cvtsr (g : BitVec 3) (d : Dest) (a : Src) (b : Src) (s : State) : exec (.cvtsr g d a b) s = execCvtsr g d a b s := rfl
@[simp] theorem exec_shfl (g : BitVec 3) (d : Dest) (a : Fin 120) (b : Src) (s : State) : exec (.shfl g d a b) s = execShfl g d a b s := rfl
@[simp] theorem exec_lswap (g : BitVec 3) (d : Dest) (a : Fin 120) (b : Src) (s : State) : exec (.lswap g d a b) s = execLswap g d a b s := rfl
@[simp] theorem exec_hswap (g : BitVec 3) (d : Dest) (a : Fin 120) (b : Src) (s : State) : exec (.hswap g d a b) s = execHswap g d a b s := rfl
@[simp] theorem exec_ballot (g : BitVec 3) (d : Dest) (a : Fin 8) (s : State) : exec (.ballot g d a) s = execBallot g d a s := rfl
@[simp] theorem exec_ldg8 (g : BitVec 3) (d : Dest) (a : Src) (bp : Fin 8) (hint : BitVec 2) (acq : Bool) (s : State) : exec (.ldg8 g d a bp hint acq) s = execLdg8 g d a bp hint acq s := rfl
@[simp] theorem exec_ldg16 (g : BitVec 3) (d : Dest) (a : Src) (bp : Fin 8) (hint : BitVec 2) (acq : Bool) (s : State) : exec (.ldg16 g d a bp hint acq) s = execLdg16 g d a bp hint acq s := rfl
@[simp] theorem exec_ldg32 (g : BitVec 3) (d : Dest) (a : Src) (bp : Fin 8) (hint : BitVec 2) (acq : Bool) (s : State) : exec (.ldg32 g d a bp hint acq) s = execLdg32 g d a bp hint acq s := rfl
@[simp] theorem exec_ldg64 (g : BitVec 3) (d : Fin 119) (a : Src) (bp : Fin 8) (hint : BitVec 2) (acq : Bool) (s : State) : exec (.ldg64 g d a bp hint acq) s = execLdg64 g d a bp hint acq s := rfl
@[simp] theorem exec_ldg128 (g : BitVec 3) (d : Fin 117) (a : Src) (bp : Fin 8) (hint : BitVec 2) (acq : Bool) (s : State) : exec (.ldg128 g d a bp hint acq) s = execLdg128 g d a bp hint acq s := rfl
@[simp] theorem exec_stg8 (g : BitVec 3) (d : Data) (a : Src) (bp : Fin 8) (hint : BitVec 2) (rel : Bool) (s : State) : exec (.stg8 g d a bp hint rel) s = execStg8 g d a bp hint rel s := rfl
@[simp] theorem exec_stg16 (g : BitVec 3) (d : Data) (a : Src) (bp : Fin 8) (hint : BitVec 2) (rel : Bool) (s : State) : exec (.stg16 g d a bp hint rel) s = execStg16 g d a bp hint rel s := rfl
@[simp] theorem exec_stg32 (g : BitVec 3) (d : Data) (a : Src) (bp : Fin 8) (hint : BitVec 2) (rel : Bool) (s : State) : exec (.stg32 g d a bp hint rel) s = execStg32 g d a bp hint rel s := rfl
@[simp] theorem exec_stg64 (g : BitVec 3) (d : Fin 119) (a : Src) (bp : Fin 8) (hint : BitVec 2) (rel : Bool) (s : State) : exec (.stg64 g d a bp hint rel) s = execStg64 g d a bp hint rel s := rfl
@[simp] theorem exec_stg128 (g : BitVec 3) (d : Fin 117) (a : Src) (bp : Fin 8) (hint : BitVec 2) (rel : Bool) (s : State) : exec (.stg128 g d a bp hint rel) s = execStg128 g d a bp hint rel s := rfl
@[simp] theorem exec_ldl32 (g : BitVec 3) (d : Dest) (a : Src) (imm : BitVec 7) (s : State) : exec (.ldl32 g d a imm) s = execLdl32 g d a imm s := rfl
@[simp] theorem exec_ldl64 (g : BitVec 3) (d : Fin 119) (a : Src) (imm : BitVec 7) (s : State) : exec (.ldl64 g d a imm) s = execLdl64 g d a imm s := rfl
@[simp] theorem exec_ldl128 (g : BitVec 3) (d : Fin 117) (a : Src) (imm : BitVec 7) (s : State) : exec (.ldl128 g d a imm) s = execLdl128 g d a imm s := rfl
@[simp] theorem exec_stl32 (g : BitVec 3) (d : Data) (a : Src) (imm : BitVec 7) (s : State) : exec (.stl32 g d a imm) s = execStl32 g d a imm s := rfl
@[simp] theorem exec_stl64 (g : BitVec 3) (d : Fin 119) (a : Src) (imm : BitVec 7) (s : State) : exec (.stl64 g d a imm) s = execStl64 g d a imm s := rfl
@[simp] theorem exec_stl128 (g : BitVec 3) (d : Fin 117) (a : Src) (imm : BitVec 7) (s : State) : exec (.stl128 g d a imm) s = execStl128 g d a imm s := rfl
@[simp] theorem exec_aadd (g : BitVec 3) (d : Fin 120) (a : Src) (bp : Fin 8) (scope : BitVec 2) (order : BitVec 2) (s : State) : exec (.aadd g d a bp scope order) s = execAadd g d a bp scope order s := rfl
@[simp] theorem exec_aadd64 (g : BitVec 3) (d : Fin 119) (a : Src) (bp : Fin 8) (scope : BitVec 2) (order : BitVec 2) (s : State) : exec (.aadd64 g d a bp scope order) s = execAadd64 g d a bp scope order s := rfl
@[simp] theorem exec_amin (g : BitVec 3) (d : Fin 120) (a : Src) (bp : Fin 8) (scope : BitVec 2) (order : BitVec 2) (s : State) : exec (.amin g d a bp scope order) s = execAmin g d a bp scope order s := rfl
@[simp] theorem exec_amax (g : BitVec 3) (d : Fin 120) (a : Src) (bp : Fin 8) (scope : BitVec 2) (order : BitVec 2) (s : State) : exec (.amax g d a bp scope order) s = execAmax g d a bp scope order s := rfl
@[simp] theorem exec_aand (g : BitVec 3) (d : Fin 120) (a : Src) (bp : Fin 8) (scope : BitVec 2) (order : BitVec 2) (s : State) : exec (.aand g d a bp scope order) s = execAand g d a bp scope order s := rfl
@[simp] theorem exec_aor (g : BitVec 3) (d : Fin 120) (a : Src) (bp : Fin 8) (scope : BitVec 2) (order : BitVec 2) (s : State) : exec (.aor g d a bp scope order) s = execAor g d a bp scope order s := rfl
@[simp] theorem exec_axchg (g : BitVec 3) (d : Fin 120) (a : Src) (bp : Fin 8) (scope : BitVec 2) (order : BitVec 2) (s : State) : exec (.axchg g d a bp scope order) s = execAxchg g d a bp scope order s := rfl
@[simp] theorem exec_acas (g : BitVec 3) (d : Fin 119) (a : Src) (bp : Fin 8) (scope : BitVec 2) (order : BitVec 2) (s : State) : exec (.acas g d a bp scope order) s = execAcas g d a bp scope order s := rfl
@[simp] theorem exec_radd (g : BitVec 3) (d : Data) (a : Src) (bp : Fin 8) (scope : BitVec 2) (rel : Bool) (s : State) : exec (.radd g d a bp scope rel) s = execRadd g d a bp scope rel s := rfl
@[simp] theorem exec_raddf (g : BitVec 3) (d : Data) (a : Src) (bp : Fin 8) (scope : BitVec 2) (rel : Bool) (s : State) : exec (.raddf g d a bp scope rel) s = execRaddf g d a bp scope rel s := rfl
@[simp] theorem exec_rmax (g : BitVec 3) (d : Data) (a : Src) (bp : Fin 8) (scope : BitVec 2) (rel : Bool) (s : State) : exec (.rmax g d a bp scope rel) s = execRmax g d a bp scope rel s := rfl
@[simp] theorem exec_drain (g : BitVec 3) (d : Fin 113) (acc : Bool) (cb : Fin 24) (s : State) : exec (.drain g d acc cb) s = execDrain g d acc cb s := rfl
@[simp] theorem exec_accw (g : BitVec 3) (d : Fin 113) (acc : Bool) (cb : Fin 24) (s : State) : exec (.accw g d acc cb) s = execAccw g d acc cb s := rfl
@[simp] theorem exec_bra (g : BitVec 3) (off : BitVec 21) (s : State) : exec (.bra g off) s = execBra g off s := rfl
@[simp] theorem exec_call (g : BitVec 3) (off : BitVec 21) (s : State) : exec (.call g off) s = execCall g off s := rfl
@[simp] theorem exec_ret (g : BitVec 3) (s : State) : exec (.ret g) s = execRet g s := rfl
@[simp] theorem exec_trapl (g : BitVec 3) (a : Src) (s : State) : exec (.trapl g a) s = execTrapl g a s := rfl
@[simp] theorem exec_rollb (g : BitVec 3) (a : Src) (s : State) : exec (.rollb g a) s = execRollb g a s := rfl
@[simp] theorem exec_snop (q : BitVec 3) (s : State) : exec (.snop q) s = execSnop q s := rfl
@[simp] theorem exec_smov (q : BitVec 3) (d : Fin 64) (a : Fin 64) (s : State) : exec (.smov q d a) s = execSmov q d a s := rfl
@[simp] theorem exec_slit (q : BitVec 3) (d : Fin 64) (lit : Word) (s : State) : exec (.slit q d lit) s = execSlit q d lit s := rfl
@[simp] theorem exec_sadd (q : BitVec 3) (d : Fin 64) (a : Fin 64) (b : Fin 64) (s : State) : exec (.sadd q d a b) s = execSadd q d a b s := rfl
@[simp] theorem exec_ssub (q : BitVec 3) (d : Fin 64) (a : Fin 64) (b : Fin 64) (s : State) : exec (.ssub q d a b) s = execSsub q d a b s := rfl
@[simp] theorem exec_smul (q : BitVec 3) (d : Fin 64) (a : Fin 64) (b : Fin 64) (s : State) : exec (.smul q d a b) s = execSmul q d a b s := rfl
@[simp] theorem exec_smin (q : BitVec 3) (d : Fin 64) (a : Fin 64) (b : Fin 64) (s : State) : exec (.smin q d a b) s = execSmin q d a b s := rfl
@[simp] theorem exec_smax (q : BitVec 3) (d : Fin 64) (a : Fin 64) (b : Fin 64) (s : State) : exec (.smax q d a b) s = execSmax q d a b s := rfl
@[simp] theorem exec_sand (q : BitVec 3) (d : Fin 64) (a : Fin 64) (b : Fin 64) (s : State) : exec (.sand q d a b) s = execSand q d a b s := rfl
@[simp] theorem exec_sor (q : BitVec 3) (d : Fin 64) (a : Fin 64) (b : Fin 64) (s : State) : exec (.sor q d a b) s = execSor q d a b s := rfl
@[simp] theorem exec_sxor (q : BitVec 3) (d : Fin 64) (a : Fin 64) (b : Fin 64) (s : State) : exec (.sxor q d a b) s = execSxor q d a b s := rfl
@[simp] theorem exec_sshl (q : BitVec 3) (d : Fin 64) (a : Fin 64) (b : Fin 64) (s : State) : exec (.sshl q d a b) s = execSshl q d a b s := rfl
@[simp] theorem exec_sshr (q : BitVec 3) (d : Fin 64) (a : Fin 64) (b : Fin 64) (s : State) : exec (.sshr q d a b) s = execSshr q d a b s := rfl
@[simp] theorem exec_ssar (q : BitVec 3) (d : Fin 64) (a : Fin 64) (b : Fin 64) (s : State) : exec (.ssar q d a b) s = execSsar q d a b s := rfl
@[simp] theorem exec_saddi (q : BitVec 3) (d : Fin 64) (a : Fin 64) (imm : BitVec 9) (s : State) : exec (.saddi q d a imm) s = execSaddi q d a imm s := rfl
@[simp] theorem exec_sadd64 (q : BitVec 3) (d : Fin 32) (a : Fin 32) (b : Fin 32) (s : State) : exec (.sadd64 q d a b) s = execSadd64 q d a b s := rfl
@[simp] theorem exec_sbfe (q : BitVec 3) (d : Fin 64) (a : Fin 64) (b : Fin 64) (s : State) : exec (.sbfe q d a b) s = execSbfe q d a b s := rfl
@[simp] theorem exec_sclz (q : BitVec 3) (d : Fin 64) (a : Fin 64) (s : State) : exec (.sclz q d a) s = execSclz q d a s := rfl
@[simp] theorem exec_spopc (q : BitVec 3) (d : Fin 64) (a : Fin 64) (s : State) : exec (.spopc q d a) s = execSpopc q d a s := rfl
@[simp] theorem exec_scmpeq (q : BitVec 3) (d : Fin 8) (a : Fin 64) (b : Fin 64) (s : State) : exec (.scmpeq q d a b) s = execScmpeq q d a b s := rfl
@[simp] theorem exec_scmpne (q : BitVec 3) (d : Fin 8) (a : Fin 64) (b : Fin 64) (s : State) : exec (.scmpne q d a b) s = execScmpne q d a b s := rfl
@[simp] theorem exec_scmplt (q : BitVec 3) (d : Fin 8) (a : Fin 64) (b : Fin 64) (s : State) : exec (.scmplt q d a b) s = execScmplt q d a b s := rfl
@[simp] theorem exec_scmple (q : BitVec 3) (d : Fin 8) (a : Fin 64) (b : Fin 64) (s : State) : exec (.scmple q d a b) s = execScmple q d a b s := rfl
@[simp] theorem exec_scmpltu (q : BitVec 3) (d : Fin 8) (a : Fin 64) (b : Fin 64) (s : State) : exec (.scmpltu q d a b) s = execScmpltu q d a b s := rfl
@[simp] theorem exec_qop (q : BitVec 3) (f : QFun) (d : Fin 8) (a : Fin 8) (b : Fin 8) (s : State) : exec (.qop q f d a b) s = execQop q f d a b s := rfl
@[simp] theorem exec_ssel (q : BitVec 3) (d : Fin 64) (a : Fin 64) (b : Fin 64) (x : Fin 8) (s : State) : exec (.ssel q d a b x) s = execSsel q d a b x s := rfl
@[simp] theorem exec_sfirst (q : BitVec 3) (d : Fin 64) (s : State) : exec (.sfirst q d) s = execSfirst q d s := rfl
@[simp] theorem exec_vmask (q : BitVec 3) (d : Fin 64) (s : State) : exec (.vmask q d) s = execVmask q d s := rfl
@[simp] theorem exec_srd (q : BitVec 3) (d : Fin 64) (ix : Fin 40) (s : State) : exec (.srd q d ix) s = execSrd q d ix s := rfl
@[simp] theorem exec_swr (q : BitVec 3) (a : Fin 64) (ix : Fin 40) (s : State) : exec (.swr q a ix) s = execSwr q a ix s := rfl
@[simp] theorem exec_jmp (q : BitVec 3) (off : BitVec 21) (s : State) : exec (.jmp q off) s = execJmp q off s := rfl
@[simp] theorem exec_loop (q : BitVec 3) (d : Fin 64) (off : BitVec 15) (s : State) : exec (.loop q d off) s = execLoop q d off s := rfl
@[simp] theorem exec_scall (q : BitVec 3) (off : BitVec 21) (s : State) : exec (.scall q off) s = execScall q off s := rfl
@[simp] theorem exec_sret (q : BitVec 3) (s : State) : exec (.sret q) s = execSret q s := rfl
@[simp] theorem exec_jovl (q : BitVec 3) (bp : Fin 8) (b : Fin 64) (s : State) : exec (.jovl q bp b) s = execJovl q bp b s := rfl
@[simp] theorem exec_ovload (q : BitVec 3) (bp : Fin 8) (slot : Bool) (s : State) : exec (.ovload q bp slot) s = execOvload q bp slot s := rfl
@[simp] theorem exec_yield (q : BitVec 3) (s : State) : exec (.yield q) s = execYield q s := rfl
@[simp] theorem exec_exit (q : BitVec 3) (s : State) : exec (.exit q) s = execExit q s := rfl
@[simp] theorem exec_trap (q : BitVec 3) (a : Fin 64) (s : State) : exec (.trap q a) s = execTrap q a s := rfl
@[simp] theorem exec_tret (q : BitVec 3) (s : State) : exec (.tret q) s = execTret q s := rfl
@[simp] theorem exec_tmask (q : BitVec 3) (m : Bool) (s : State) : exec (.tmask q m) s = execTmask q m s := rfl
@[simp] theorem exec_uint (q : BitVec 3) (a : Fin 64) (b : Fin 64) (s : State) : exec (.uint q a b) s = execUint q a b s := rfl
@[simp] theorem exec_uiret (q : BitVec 3) (s : State) : exec (.uiret q) s = execUiret q s := rfl
@[simp] theorem exec_sysc (q : BitVec 3) (d : Fin 64) (a : Fin 64) (b : Fin 64) (s : State) : exec (.sysc q d a b) s = execSysc q d a b s := rfl
@[simp] theorem exec_sbrk (q : BitVec 3) (s : State) : exec (.sbrk q) s = execSbrk q s := rfl
@[simp] theorem exec_launch (q : BitVec 3) (bp : Fin 8) (s : State) : exec (.launch q bp) s = execLaunch q bp s := rfl
@[simp] theorem exec_regq (q : BitVec 3) (a : Fin 64) (s : State) : exec (.regq q a) s = execRegq q a s := rfl
@[simp] theorem exec_regpool (q : BitVec 3) (d : Fin 64) (s : State) : exec (.regpool q d) s = execRegpool q d s := rfl
@[simp] theorem exec_sld (q : BitVec 3) (d : Fin 64) (scope : BitVec 2) (bp : Fin 8) (b : Option (Fin 64)) (ord : Bool) (s : State) : exec (.sld q d scope bp b ord) s = execSld q d scope bp b ord s := rfl
@[simp] theorem exec_sld64 (q : BitVec 3) (d : Fin 32) (scope : BitVec 2) (bp : Fin 8) (b : Option (Fin 64)) (ord : Bool) (s : State) : exec (.sld64 q d scope bp b ord) s = execSld64 q d scope bp b ord s := rfl
@[simp] theorem exec_sst (q : BitVec 3) (d : Fin 64) (scope : BitVec 2) (bp : Fin 8) (b : Option (Fin 64)) (ord : Bool) (s : State) : exec (.sst q d scope bp b ord) s = execSst q d scope bp b ord s := rfl
@[simp] theorem exec_sst64 (q : BitVec 3) (d : Fin 32) (scope : BitVec 2) (bp : Fin 8) (b : Option (Fin 64)) (ord : Bool) (s : State) : exec (.sst64 q d scope bp b ord) s = execSst64 q d scope bp b ord s := rfl
@[simp] theorem exec_saadd (q : BitVec 3) (d : Fin 64) (scope : BitVec 2) (bp : Fin 8) (b : Fin 64) (order : BitVec 2) (s : State) : exec (.saadd q d scope bp b order) s = execSaadd q d scope bp b order s := rfl
@[simp] theorem exec_sacas (q : BitVec 3) (d : Fin 64) (scope : BitVec 2) (bp : Fin 8) (b : Fin 64) (order : BitVec 2) (s : State) : exec (.sacas q d scope bp b order) s = execSacas q d scope bp b order s := rfl
@[simp] theorem exec_pgreq (q : BitVec 3) (c : Fin 8) (r : Fin 8) (b : Fin 64) (s : State) : exec (.pgreq q c r b) s = execPgreq q c r b s := rfl
@[simp] theorem exec_pgadv (q : BitVec 3) (k : Fin 4) (bp : Fin 8) (b : Fin 64) (s : State) : exec (.pgadv q k bp b) s = execPgadv q k bp b s := rfl
@[simp] theorem exec_palloc (q : BitVec 3) (d : Fin 8) (b : Fin 64) (s : State) : exec (.palloc q d b) s = execPalloc q d b s := rfl
@[simp] theorem exec_pfree (q : BitVec 3) (bp : Fin 8) (s : State) : exec (.pfree q bp) s = execPfree q bp s := rfl
@[simp] theorem exec_cnew (q : BitVec 3) (d : Fin 8) (scope : BitVec 2) (s : State) : exec (.cnew q d scope) s = execCnew q d scope s := rfl
@[simp] theorem exec_cfree (q : BitVec 3) (bp : Fin 8) (s : State) : exec (.cfree q bp) s = execCfree q bp s := rfl
@[simp] theorem exec_cadd (q : BitVec 3) (scope : BitVec 2) (bp : Fin 8) (b : CSrc) (s : State) : exec (.cadd q scope bp b) s = execCadd q scope bp b s := rfl
@[simp] theorem exec_caddr (q : BitVec 3) (scope : BitVec 2) (bp : Fin 8) (b : CSrc) (s : State) : exec (.caddr q scope bp b) s = execCaddr q scope bp b s := rfl
@[simp] theorem exec_cread (q : BitVec 3) (d : Fin 32) (scope : BitVec 2) (bp : Fin 8) (s : State) : exec (.cread q d scope bp) s = execCread q d scope bp s := rfl
@[simp] theorem exec_waitge (q : BitVec 3) (scope : BitVec 2) (bp : Fin 8) (b : CSrc) (s : State) : exec (.waitge q scope bp b) s = execWaitge q scope bp b s := rfl
@[simp] theorem exec_waitto (q : BitVec 3) (t : Fin 64) (scope : BitVec 2) (bp : Fin 8) (b : CSrc) (s : State) : exec (.waitto q t scope bp b) s = execWaitto q t scope bp b s := rfl
@[simp] theorem exec_tbar (q : BitVec 3) (s : State) : exec (.tbar q) s = execTbar q s := rfl
@[simp] theorem exec_fence (q : BitVec 3) (scope : BitVec 2) (s : State) : exec (.fence q scope) s = execFence q scope s := rfl
@[simp] theorem exec_fencex (q : BitVec 3) (scope : BitVec 2) (c1 : Fin 7) (c2 : Fin 7) (s : State) : exec (.fencex q scope c1 c2) s = execFencex q scope c1 c2 s := rfl
@[simp] theorem exec_tryOp (q : BitVec 3) (off : BitVec 21) (spm : Word) (s : State) : exec (.tryOp q off spm) s = execTry q off spm s := rfl
@[simp] theorem exec_commit (q : BitVec 3) (s : State) : exec (.commit q) s = execCommit q s := rfl
@[simp] theorem exec_txopen (q : BitVec 3) (off : BitVec 21) (s : State) : exec (.txopen q off) s = execTxopen q off s := rfl
@[simp] theorem exec_txclose (q : BitVec 3) (s : State) : exec (.txclose q) s = execTxclose q s := rfl
@[simp] theorem exec_txcancel (q : BitVec 3) (a : Fin 64) (s : State) : exec (.txcancel q a) s = execTxcancel q a s := rfl
@[simp] theorem exec_tiledef (q : BitVec 3) (t : Fin 64) (a : Fin 64) (b : Fin 64) (s : State) : exec (.tiledef q t a b) s = execTiledef q t a b s := rfl
@[simp] theorem exec_tilerel (q : BitVec 3) (t : Fin 64) (s : State) : exec (.tilerel q t) s = execTilerel q t s := rfl
@[simp] theorem exec_tstate (q : BitVec 3) (d : Fin 64) (t : Fin 64) (s : State) : exec (.tstate q d t) s = execTstate q d t s := rfl
@[simp] theorem exec_metadef (q : BitVec 3) (t : Fin 64) (a : Fin 64) (b : Fin 64) (s : State) : exec (.metadef q t a b) s = execMetadef q t a b s := rfl
@[simp] theorem exec_cpyin (q : BitVec 3) (t : Fin 64) (bp : Fin 8) (b : Fin 64) (s : State) : exec (.cpyin q t bp b) s = execCpyin q t bp b s := rfl
@[simp] theorem exec_cpyout (q : BitVec 3) (t : Fin 64) (bp : Fin 8) (b : Fin 64) (s : State) : exec (.cpyout q t bp b) s = execCpyout q t bp b s := rfl
@[simp] theorem exec_cpygg (q : BitVec 3) (d : Fin 8) (bp : Fin 8) (b : Fin 64) (s : State) : exec (.cpygg q d bp b) s = execCpygg q d bp b s := rfl
@[simp] theorem exec_gather (q : BitVec 3) (t : Fin 64) (bp : Fin 8) (b : Fin 64) (s : State) : exec (.gather q t bp b) s = execGather q t bp b s := rfl
@[simp] theorem exec_scatter (q : BitVec 3) (t : Fin 64) (bp : Fin 8) (b : Fin 64) (s : State) : exec (.scatter q t bp b) s = execScatter q t bp b s := rfl
@[simp] theorem exec_coll (q : BitVec 3) (bp : Fin 8) (b : Fin 64) (s : State) : exec (.coll q bp b) s = execColl q bp b s := rfl
@[simp] theorem exec_sealb (q : BitVec 3) (bp : Fin 8) (b : Fin 64) (s : State) : exec (.sealb q bp b) s = execSealb q bp b s := rfl
@[simp] theorem exec_sealu (q : BitVec 3) (bp : Fin 8) (b : Fin 64) (s : State) : exec (.sealu q bp b) s = execSealu q bp b s := rfl
@[simp] theorem exec_sealf (q : BitVec 3) (bp : Fin 8) (s : State) : exec (.sealf q bp) s = execSealf q bp s := rfl
@[simp] theorem exec_ckpt (q : BitVec 3) (bp : Fin 8) (s : State) : exec (.ckpt q bp) s = execCkpt q bp s := rfl
@[simp] theorem exec_msel (q : BitVec 3) (core : Fin 4) (a : Fin 64) (s : State) : exec (.msel q core a) s = execMsel q core a s := rfl
@[simp] theorem exec_mma (q : BitVec 3) (m : MmaOps) (s : State) : exec (.mma q m) s = execMma q m s := rfl
@[simp] theorem exec_mmas (q : BitVec 3) (m : MmaOps) (s : State) : exec (.mmas q m) s = execMmas q m s := rfl
@[simp] theorem exec_mmag (q : BitVec 3) (m : MmaOps) (s : State) : exec (.mmag q m) s = execMmag q m s := rfl
@[simp] theorem exec_mscale (q : BitVec 3) (acc : Bool) (oct : Fin 15) (core : Fin 4) (s : State) : exec (.mscale q acc oct core) s = execMscale q acc oct core s := rfl
@[simp] theorem exec_mzero (q : BitVec 3) (acc : Bool) (core : Fin 4) (s : State) : exec (.mzero q acc core) s = execMzero q acc core s := rfl
@[simp] theorem exec_mrel (q : BitVec 3) (core : Fin 4) (s : State) : exec (.mrel q core) s = execMrel q core s := rfl
@[simp] theorem exec_mwait (q : BitVec 3) (core : Option (Fin 4)) (s : State) : exec (.mwait q core) s = execMwait q core s := rfl
@[simp] theorem exec_hint (q : BitVec 3) (k : BitVec 3) (bp : Fin 8) (b : Fin 64) (s : State) : exec (.hint q k bp b) s = execHint q k bp b s := rfl
@[simp] theorem exec_sfadd (q : BitVec 3) (d : Fin 64) (a : Fin 64) (b : Fin 64) (s : State) : exec (.sfadd q d a b) s = execSfadd q d a b s := rfl
@[simp] theorem exec_sfmul (q : BitVec 3) (d : Fin 64) (a : Fin 64) (b : Fin 64) (s : State) : exec (.sfmul q d a b) s = execSfmul q d a b s := rfl
@[simp] theorem exec_sfcmplt (q : BitVec 3) (d : Fin 8) (a : Fin 64) (b : Fin 64) (s : State) : exec (.sfcmplt q d a b) s = execSfcmplt q d a b s := rfl
@[simp] theorem exec_scvtfi (q : BitVec 3) (d : Fin 64) (a : Fin 64) (s : State) : exec (.scvtfi q d a) s = execScvtfi q d a s := rfl
@[simp] theorem exec_scvtif (q : BitVec 3) (d : Fin 64) (a : Fin 64) (s : State) : exec (.scvtif q d a) s = execScvtif q d a s := rfl
@[simp] theorem exec_sdivu (q : BitVec 3) (d : Fin 64) (a : Fin 64) (b : Fin 64) (s : State) : exec (.sdivu q d a b) s = execSdivu q d a b s := rfl
@[simp] theorem exec_sremu (q : BitVec 3) (d : Fin 64) (a : Fin 64) (b : Fin 64) (s : State) : exec (.sremu q d a b) s = execSremu q d a b s := rfl
@[simp] theorem exec_qany (q : BitVec 3) (d : Fin 8) (a : Fin 8) (s : State) : exec (.qany q d a) s = execQany q d a s := rfl
@[simp] theorem exec_qall (q : BitVec 3) (d : Fin 8) (a : Fin 8) (s : State) : exec (.qall q d a) s = execQall q d a s := rfl
@[simp] theorem exec_pset (q : BitVec 3) (p : Fin 7) (a : Fin 8) (s : State) : exec (.pset q p a) s = execPset q p a s := rfl
@[simp] theorem exec_sleep (q : BitVec 3) (a : Fin 64) (s : State) : exec (.sleep q a) s = execSleep q a s := rfl
@[simp] theorem exec_slit64 (q : BitVec 3) (d : Fin 32) (lo : Word) (hi : Word) (s : State) : exec (.slit64 q d lo hi) s = execSlit64 q d lo hi s := rfl
@[simp] theorem exec_reservedOpcodeWord (gset : Bool) (op : BitVec 7) (g : BitVec 3) (rest : BitVec 21) (s : State) : exec (.reservedOpcodeWord gset op g rest) s = execReservedOpcodeWord gset op g rest s := rfl
@[simp] theorem exec_fetchOutsideOverlay (s : State) : exec (.fetchOutsideOverlay) s = execFetchOutsideOverlay s := rfl
@[simp] theorem exec_loadDataReturn (u : Nat) (seq : Nat) (lanes : Word) (s : State) : exec (.loadDataReturn u seq lanes) s = execLoadDataReturn u seq lanes s := rfl
@[simp] theorem exec_storePerformed (u : Nat) (seq : Nat) (lanes : Word) (s : State) : exec (.storePerformed u seq lanes) s = execStorePerformed u seq lanes s := rfl
@[simp] theorem exec_trapEntry (u : Nat) (lane : Nat) (s : State) : exec (.trapEntry u lane) s = execTrapEntry u lane s := rfl
@[simp] theorem exec_waitSatisfied (u : Nat) (lane : Nat) (s : State) : exec (.waitSatisfied u lane) s = execWaitSatisfied u lane s := rfl
@[simp] theorem exec_waittoTimeout (u : Nat) (lane : Nat) (s : State) : exec (.waittoTimeout u lane) s = execWaittoTimeout u lane s := rfl
@[simp] theorem exec_sleepWake (u : Nat) (lane : Nat) (s : State) : exec (.sleepWake u lane) s = execSleepWake u lane s := rfl
@[simp] theorem exec_regqGrant (team : Nat) (s : State) : exec (.regqGrant team) s = execRegqGrant team s := rfl
@[simp] theorem exec_regqRefuse (team : Nat) (s : State) : exec (.regqRefuse team) s = execRegqRefuse team s := rfl
@[simp] theorem exec_matrixExecuteStart (slice : Nat) (core : Nat) (s : State) : exec (.matrixExecuteStart slice core) s = execMatrixExecuteStart slice core s := rfl
@[simp] theorem exec_matrixComplete (slice : Nat) (core : Nat) (s : State) : exec (.matrixComplete slice core) s = execMatrixComplete slice core s := rfl
@[simp] theorem exec_engineCommandStart (cmd : Nat) (s : State) : exec (.engineCommandStart cmd) s = execEngineCommandStart cmd s := rfl
@[simp] theorem exec_engineCommandComplete (cmd : Nat) (s : State) : exec (.engineCommandComplete cmd) s = execEngineCommandComplete cmd s := rfl
@[simp] theorem exec_engineCommandFault (cmd : Nat) (s : State) : exec (.engineCommandFault cmd) s = execEngineCommandFault cmd s := rfl
@[simp] theorem exec_overlaySlotCopy (u : Nat) (s : State) : exec (.overlaySlotCopy u) s = execOverlaySlotCopy u s := rfl
@[simp] theorem exec_overlayCopyDone (u : Nat) (s : State) : exec (.overlayCopyDone u) s = execOverlayCopyDone u s := rfl
@[simp] theorem exec_uintDelivery (u : Nat) (s : State) : exec (.uintDelivery u) s = execUintDelivery u s := rfl
@[simp] theorem exec_watchdog (slice : Nat) (core : Nat) (slot : Nat) (s : State) : exec (.watchdog slice core slot) s = execWatchdog slice core slot s := rfl
@[simp] theorem exec_warpAging (u : Nat) (s : State) : exec (.warpAging u) s = execWarpAging u s := rfl
@[simp] theorem exec_syscReply (u : Nat) (reply : Word) (hart : Nat) (s : State) : exec (.syscReply u reply hart) s = execSyscReply u reply hart s := rfl
@[simp] theorem exec_collAllReduce (cmd : Nat) (inputs : List Msg) (s : State) : exec (.collAllReduce cmd inputs) s = execCollAllReduce cmd inputs s := rfl
@[simp] theorem exec_collReduceScatter (cmd : Nat) (inputs : List Msg) (s : State) : exec (.collReduceScatter cmd inputs) s = execCollReduceScatter cmd inputs s := rfl
@[simp] theorem exec_collAllGather (cmd : Nat) (inputs : List Msg) (s : State) : exec (.collAllGather cmd inputs) s = execCollAllGather cmd inputs s := rfl
@[simp] theorem exec_collBroadcast (cmd : Nat) (inputs : List Msg) (s : State) : exec (.collBroadcast cmd inputs) s = execCollBroadcast cmd inputs s := rfl
@[simp] theorem exec_collPut (cmd : Nat) (acked : Bool) (s : State) : exec (.collPut cmd acked) s = execCollPut cmd acked s := rfl
@[simp] theorem exec_collGet (cmd : Nat) (inputs : List Msg) (s : State) : exec (.collGet cmd inputs) s = execCollGet cmd inputs s := rfl
@[simp] theorem exec_collAllToAll (cmd : Nat) (inputs : List Msg) (s : State) : exec (.collAllToAll cmd inputs) s = execCollAllToAll cmd inputs s := rfl
@[simp] theorem exec_fabricRemoteAccess (slice : Nat) (acc : RemoteAccess) (s : State) : exec (.fabricRemoteAccess slice acc) s = execFabricRemoteAccess slice acc s := rfl
@[simp] theorem exec_ckptSave (cmd : Nat) (reach : Bool) (readback : Nat) (s : State) : exec (.ckptSave cmd reach readback) s = execCkptSave cmd reach readback s := rfl
@[simp] theorem exec_ckptRestore (cmd : Nat) (reach : Bool) (s : State) : exec (.ckptRestore cmd reach) s = execCkptRestore cmd reach s := rfl
@[simp] theorem exec_ckptPageCopy (cmd : Nat) (va : Nat) (s : State) : exec (.ckptPageCopy cmd va) s = execCkptPageCopy cmd va s := rfl
@[simp] theorem exec_sealContextVoid (u : Nat) (reason : Nat) (s : State) : exec (.sealContextVoid u reason) s = execSealContextVoid u reason s := rfl
@[simp] theorem exec_gridRetire (grid : Nat) (s : State) : exec (.gridRetire grid) s = execGridRetire grid s := rfl
@[simp] theorem exec_pgreqResidentAdd (part : Nat) (req : Nat) (s : State) : exec (.pgreqResidentAdd part req) s = execPgreqResidentAdd part req s := rfl
@[simp] theorem exec_rangeEvict (part : Nat) (ctx : Nat) (va : Nat) (len : Nat) (s : State) : exec (.rangeEvict part ctx va len) s = execRangeEvict part ctx va len s := rfl
@[simp] theorem exec_recordTake (part : Nat) (qid : Nat) (s : State) : exec (.recordTake part qid) s = execRecordTake part qid s := rfl
@[simp] theorem exec_gridEligible (grid : Nat) (s : State) : exec (.gridEligible grid) s = execGridEligible grid s := rfl
@[simp] theorem exec_gridPlace (grid : Nat) (s : State) : exec (.gridPlace grid) s = execGridPlace grid s := rfl
@[simp] theorem exec_bindPlace (slice : Nat) (ix : Nat) (s : State) : exec (.bindPlace slice ix) s = execBindPlace slice ix s := rfl
@[simp] theorem exec_bindWithdraw (slice : Nat) (ix : Nat) (s : State) : exec (.bindWithdraw slice ix) s = execBindWithdraw slice ix s := rfl
@[simp] theorem exec_bindReturn (slice : Nat) (ix : Nat) (s : State) : exec (.bindReturn slice ix) s = execBindReturn slice ix s := rfl
@[simp] theorem exec_teamSave (team : Nat) (s : State) : exec (.teamSave team) s = execTeamSave team s := rfl
@[simp] theorem exec_graceWindowEnd (u : Nat) (s : State) : exec (.graceWindowEnd u) s = execGraceWindowEnd u s := rfl
@[simp] theorem exec_timeSliceExpiry (grid : Nat) (s : State) : exec (.timeSliceExpiry grid) s = execTimeSliceExpiry grid s := rfl
@[simp] theorem exec_eventRecordWrite (part : Nat) (s : State) : exec (.eventRecordWrite part) s = execEventRecordWrite part s := rfl
@[simp] theorem exec_scRegisterQueue (slice : Nat) (value : BitVec 64) (s : State) : exec (.scRegisterQueue slice value) s = execScRegisterQueue slice value s := rfl
@[simp] theorem exec_scRemoveQueue (slice : Nat) (value : BitVec 64) (s : State) : exec (.scRemoveQueue slice value) s = execScRemoveQueue slice value s := rfl
@[simp] theorem exec_scSetEventRing (slice : Nat) (value : BitVec 64) (s : State) : exec (.scSetEventRing slice value) s = execScSetEventRing slice value s := rfl
@[simp] theorem exec_tlbinvPage (slice : Nat) (value : BitVec 64) (s : State) : exec (.tlbinvPage slice value) s = execTlbinvPage slice value s := rfl
@[simp] theorem exec_tlbinvContext (slice : Nat) (value : BitVec 64) (s : State) : exec (.tlbinvContext slice value) s = execTlbinvContext slice value s := rfl
@[simp] theorem exec_tlbinvReload (slice : Nat) (value : BitVec 64) (s : State) : exec (.tlbinvReload slice value) s = execTlbinvReload slice value s := rfl
@[simp] theorem exec_tlbinvAll (slice : Nat) (value : BitVec 64) (s : State) : exec (.tlbinvAll slice value) s = execTlbinvAll slice value s := rfl
@[simp] theorem exec_tlbinvDone (part : Nat) (s : State) : exec (.tlbinvDone part) s = execTlbinvDone part s := rfl
@[simp] theorem exec_sliceReset (slice : Nat) (s : State) : exec (.sliceReset slice) s = execSliceReset slice s := rfl
@[simp] theorem exec_functionReady (slice : Nat) (bit : Nat) (s : State) : exec (.functionReady slice bit) s = execFunctionReady slice bit s := rfl
@[simp] theorem exec_firewallReleaseAll (slice : Nat) (s : State) : exec (.firewallReleaseAll slice) s = execFirewallReleaseAll slice s := rfl
@[simp] theorem exec_actctlWrite (slice : Nat) (value : Word) (s : State) : exec (.actctlWrite slice value) s = execActctlWrite slice value s := rfl
@[simp] theorem exec_pmctlThaw (slice : Nat) (value : Word) (s : State) : exec (.pmctlThaw slice value) s = execPmctlThaw slice value s := rfl
@[simp] theorem exec_addressRangeWrite (slice : Nat) (offset : Nat) (value : BitVec 64) (s : State) : exec (.addressRangeWrite slice offset value) s = execAddressRangeWrite slice offset value s := rfl
@[simp] theorem exec_registerWrite (slice : Nat) (offset : Nat) (value : BitVec 64) (s : State) : exec (.registerWrite slice offset value) s = execRegisterWrite slice offset value s := rfl
@[simp] theorem exec_progressWindowEnd (part : Nat) (s : State) : exec (.progressWindowEnd part) s = execProgressWindowEnd part s := rfl
@[simp] theorem exec_debugHalt (u : Nat) (s : State) : exec (.debugHalt u) s = execDebugHalt u s := rfl
@[simp] theorem exec_debugResume (u : Nat) (lane : Nat) (skip : Bool) (s : State) : exec (.debugResume u lane skip) s = execDebugResume u lane skip s := rfl
@[simp] theorem exec_partitionFuse (x0 : Nat) (x1 : Nat) (y0 : Nat) (y1 : Nat) (world : Bool) (ranges : List RangeWords) (s : State) : exec (.partitionFuse x0 x1 y0 y1 world ranges) s = execPartitionFuse x0 x1 y0 y1 world ranges s := rfl
@[simp] theorem exec_kernelBoot (part : Nat) (image : List Byte) (sigOk : Bool) (s : State) : exec (.kernelBoot part image sigOk) s = execKernelBoot part image sigOk s := rfl
@[simp] theorem exec_partitionResize (part : Nat) (add : Bool) (edge : Edge) (s : State) : exec (.partitionResize part add edge) s = execPartitionResize part add edge s := rfl
@[simp] theorem exec_resizeSliceStep (part : Nat) (s : State) : exec (.resizeSliceStep part) s = execResizeSliceStep part s := rfl
@[simp] theorem exec_partitionDissolve (part : Nat) (s : State) : exec (.partitionDissolve part) s = execPartitionDissolve part s := rfl
@[simp] theorem exec_scrubChunk (slice : Nat) (s : State) : exec (.scrubChunk slice) s = execScrubChunk slice s := rfl
@[simp] theorem exec_powerOn (s : State) : exec (.powerOn) s = execPowerOn s := rfl
@[simp] theorem exec_powerFail (s : State) : exec (.powerFail) s = execPowerFail s := rfl
@[simp] theorem exec_getVersion (part : Nat) (req : List Byte) (s : State) : exec (.getVersion part req) s = execGetVersion part req s := rfl
@[simp] theorem exec_getCapabilities (part : Nat) (req : List Byte) (s : State) : exec (.getCapabilities part req) s = execGetCapabilities part req s := rfl
@[simp] theorem exec_negotiateAlgorithms (part : Nat) (req : List Byte) (s : State) : exec (.negotiateAlgorithms part req) s = execNegotiateAlgorithms part req s := rfl
@[simp] theorem exec_getDigests (part : Nat) (req : List Byte) (s : State) : exec (.getDigests part req) s = execGetDigests part req s := rfl
@[simp] theorem exec_getCertificate (part : Nat) (req : List Byte) (s : State) : exec (.getCertificate part req) s = execGetCertificate part req s := rfl
@[simp] theorem exec_challenge (part : Nat) (req : List Byte) (s : State) : exec (.challenge part req) s = execChallenge part req s := rfl
@[simp] theorem exec_getMeasurements (part : Nat) (req : List Byte) (s : State) : exec (.getMeasurements part req) s = execGetMeasurements part req s := rfl
@[simp] theorem exec_measurementExtend (part : Nat) (ix : Nat) (value : List Byte) (s : State) : exec (.measurementExtend part ix value) s = execMeasurementExtend part ix value s := rfl
@[simp] theorem exec_rotFailover (s : State) : exec (.rotFailover) s = execRotFailover s := rfl
@[simp] theorem exec_packetSend (slice : Nat) (assoc : Nat) (payload : List Byte) (s : State) : exec (.packetSend slice assoc payload) s = execPacketSend slice assoc payload s := rfl
@[simp] theorem exec_packetReceive (slice : Nat) (assoc : Nat) (counter : BitVec 64) (cipher : List Byte) (s : State) : exec (.packetReceive slice assoc counter cipher) s = execPacketReceive slice assoc counter cipher s := rfl
@[simp] theorem exec_packetRetry (slice : Nat) (assoc : Nat) (counter : BitVec 64) (s : State) : exec (.packetRetry slice assoc counter) s = execPacketRetry slice assoc counter s := rfl
@[simp] theorem exec_rekey (slice : Nat) (assoc : Nat) (s : State) : exec (.rekey slice assoc) s = execRekey slice assoc s := rfl
@[simp] theorem exec_rekeyReopen (slice : Nat) (assoc : Nat) (key : Nat) (salt : Word) (s : State) : exec (.rekeyReopen slice assoc key salt) s = execRekeyReopen slice assoc key salt s := rfl
@[simp] theorem exec_flashAccess (world : Bool) (addr : Nat) (write : Option (List Byte)) (len : Nat) (s : State) : exec (.flashAccess world addr write len) s = execFlashAccess world addr write len s := rfl
@[simp] theorem exec_stackRead (pkt : Packet) (s : State) : exec (.stackRead pkt) s = execStackRead pkt s := rfl
@[simp] theorem exec_stackWrite (pkt : Packet) (s : State) : exec (.stackWrite pkt) s = execStackWrite pkt s := rfl
@[simp] theorem exec_stackAtomic (pkt : Packet) (s : State) : exec (.stackAtomic pkt) s = execStackAtomic pkt s := rfl
@[simp] theorem exec_stackZeroLine (pkt : Packet) (s : State) : exec (.stackZeroLine pkt) s = execStackZeroLine pkt s := rfl
@[simp] theorem exec_refreshManagement (stack : Nat) (pch : Nat) (bank : Nat) (s : State) : exec (.refreshManagement stack pch bank) s = execRefreshManagement stack pch bank s := rfl
@[simp] theorem exec_bankBlockEnd (stack : Nat) (pch : Nat) (bank : Nat) (s : State) : exec (.bankBlockEnd stack pch bank) s = execBankBlockEnd stack pch bank s := rfl
@[simp] theorem exec_refreshWindowEnd (stack : Nat) (s : State) : exec (.refreshWindowEnd stack) s = execRefreshWindowEnd stack s := rfl
@[simp] theorem exec_patrolRead (stack : Nat) (line : Nat) (s : State) : exec (.patrolRead stack line) s = execPatrolRead stack line s := rfl
@[simp] theorem exec_hostAccess (part : Nat) (hart : Nat) (acc : HostAccess) (s : State) : exec (.hostAccess part hart acc) s = execHostAccess part hart acc s := rfl
@[simp] theorem exec_childQueueTake (slice : Nat) (s : State) : exec (.childQueueTake slice) s = execChildQueueTake slice s := rfl
@[simp] theorem exec_peerUnreachable (slice : Nat) (assoc : Nat) (s : State) : exec (.peerUnreachable slice assoc) s = execPeerUnreachable slice assoc s := rfl
@[simp] theorem exec_keyHandleIssue (part : Nat) (cls : BitVec 2) (destroy : Option Nat) (s : State) : exec (.keyHandleIssue part cls destroy) s = execKeyHandleIssue part cls destroy s := rfl
@[simp] theorem exec_rotReset (s : State) : exec (.rotReset) s = execRotReset s := rfl
@[simp] theorem exec_gridEndByKernel (grid : Nat) (s : State) : exec (.gridEndByKernel grid) s = execGridEndByKernel grid s := rfl

end Sys2Proof.Machine
end

