-- ==== Sys2Proof/Laws/Tab.lean ====
section
/-!
SUPPORT. Laws of sparse tables: what a key reads as after each operation, and that each keeps the canonical form.
-/

namespace Sys2Proof.Machine

/-! ### Reading after a change -/

theorem Tab.get_put {β : Type} (d : β) (t : Tab β) (k j : Nat) (v : β) :
    Tab.get d (Tab.put t k v) j = if j = k then v else Tab.get d t j := by
  induction t with
  | nil => simp only [Tab.put, Tab.get]; grind
  | cons p r ih =>
    obtain ⟨a, x⟩ := p
    simp only [Tab.put, Tab.get]
    split
    · simp only [Tab.get]; grind
    · split
      · simp only [Tab.get]; grind
      · simp only [Tab.get, ih]; grind

theorem Tab.find?_put {β : Type} (t : Tab β) (k j : Nat) (v : β) :
    Tab.find? (Tab.put t k v) j = if j = k then some v else Tab.find? t j := by
  induction t with
  | nil => simp only [Tab.put, Tab.find?]; grind
  | cons p r ih =>
    obtain ⟨a, x⟩ := p
    simp only [Tab.put, Tab.find?]
    split
    · simp only [Tab.find?]; grind
    · split
      · simp only [Tab.find?]; grind
      · simp only [Tab.find?, ih]; grind

theorem Tab.get_filter {β : Type} (d : β) (t : Tab β) (p : Nat → Bool) (j : Nat) :
    Tab.get d (t.filter fun e => p e.1) j = if p j then Tab.get d t j else d := by
  induction t with
  | nil => simp [Tab.get]
  | cons e r ih =>
    obtain ⟨a, x⟩ := e
    rw [List.filter_cons]
    simp only [Tab.get]
    by_cases h : p a = true
    · rw [if_pos h]
      simp only [Tab.get, ih]
      by_cases ha : a = j
      · subst ha; simp [h]
      · simp [ha]
    · rw [if_neg h, ih]
      by_cases ha : a = j
      · subst ha; simp [h]
      · simp [ha]

theorem Tab.get_del {β : Type} (d : β) (t : Tab β) (k j : Nat) :
    Tab.get d (Tab.del t k) j = if j = k then d else Tab.get d t j := by
  have h := Tab.get_filter d t (fun a => !(a == k)) j
  simp only [Tab.del, h]
  by_cases hj : j = k <;> simp [hj]

theorem Tab.get_set {β : Type} [DecidableEq β] (d : β) (t : Tab β) (k j : Nat) (v : β) :
    Tab.get d (Tab.set d t k v) j = if j = k then v else Tab.get d t j := by
  unfold Tab.set
  split
  · rename_i h; rw [Tab.get_del, h]
  · exact Tab.get_put d t k j v

theorem Tab.get_mod {β : Type} (d : β) (t : Tab β) (k j : Nat) (f : β → β) :
    Tab.get d (Tab.mod d t k f) j = if j = k then f (Tab.get d t k) else Tab.get d t j := Tab.get_put d t k j _

/-- A second value at a key replaces the first. -/
theorem Tab.put_put {β : Type} (t : Tab β) (k : Nat) (v w : β) : Tab.put (Tab.put t k v) k w = Tab.put t k w := by
  induction t with
  | nil => simp [Tab.put]
  | cons p r ih =>
    obtain ⟨a, x⟩ := p
    simp only [Tab.put]
    split
    · simp [Tab.put]
    · split
      · simp [Tab.put]
      · rename_i h1 h2; simp [Tab.put, h1, h2, ih]

/-! ### The canonical form -/

/-- Every key is above a bound, or there is none. -/
def Tab.above {β : Type} (b : Option Nat) (t : Tab β) : Prop := ∀ p ∈ t, ∀ x ∈ b, x < p.1

theorem Tab.sorted_cons {β : Type} (a : Nat) (x : β) (t : Tab β) :
    Tab.sorted ((a, x) :: t) = true ↔ Tab.above (some a) t ∧ Tab.sorted t = true := by
  induction t generalizing a x with
  | nil => simp [Tab.sorted, Tab.above]
  | cons p r ih =>
    obtain ⟨b, y⟩ := p
    simp only [Tab.sorted, Bool.and_eq_true, decide_eq_true_eq, Tab.above, List.mem_cons, Option.mem_some_iff]
    constructor
    · rintro ⟨hab, hs⟩
      refine ⟨?_, hs⟩
      rintro p (rfl | hp) z rfl
      · exact hab
      · exact Nat.lt_trans hab ((ih b y).mp hs |>.1 p hp b rfl)
    · rintro ⟨ha, hs⟩
      exact ⟨ha (b, y) (Or.inl rfl) a rfl, hs⟩

theorem Tab.above_put {β : Type} (b : Option Nat) (t : Tab β) (k : Nat) (v : β) (h : Tab.above b t) (hk : ∀ x ∈ b, x < k) :
    Tab.above b (Tab.put t k v) := by
  induction t with
  | nil => intro p hp x hx; simp only [Tab.put, List.mem_singleton] at hp; subst hp; exact hk x hx
  | cons p r ih =>
    obtain ⟨a, y⟩ := p
    have hr : Tab.above b r := fun q hq => h q (List.mem_cons_of_mem _ hq)
    have ha := h (a, y) List.mem_cons_self
    intro q hq x hx
    simp only [Tab.put] at hq
    split at hq
    · simp only [List.mem_cons] at hq
      rcases hq with rfl | rfl | hq
      · exact hk x hx
      · exact ha x hx
      · exact hr q hq x hx
    · split at hq
      · rcases List.mem_cons.mp hq with rfl | hq
        · exact hk x hx
        · exact hr q hq x hx
      · rcases List.mem_cons.mp hq with rfl | hq
        · exact ha x hx
        · exact ih hr q hq x hx

theorem Tab.sorted_put {β : Type} (t : Tab β) (k : Nat) (v : β) (h : Tab.sorted t = true) : Tab.sorted (Tab.put t k v) = true := by
  induction t with
  | nil => simp [Tab.put, Tab.sorted]
  | cons p r ih =>
    obtain ⟨a, y⟩ := p
    have hc := (Tab.sorted_cons a y r).mp h
    simp only [Tab.put]
    split
    · rename_i hk
      refine (Tab.sorted_cons k v _).mpr ⟨?_, h⟩
      intro q hq x hx
      simp only [Option.mem_some_iff] at hx
      subst hx
      rcases List.mem_cons.mp hq with rfl | hq
      · exact hk
      · exact Nat.lt_trans hk (hc.1 q hq a rfl)
    · split
      · rename_i hk; subst hk; exact (Tab.sorted_cons k v r).mpr hc
      · rename_i h1 h2
        refine (Tab.sorted_cons a y _).mpr ⟨Tab.above_put _ r k v hc.1 ?_, ih hc.2⟩
        intro x hx; simp only [Option.mem_some_iff] at hx; omega

theorem Tab.sorted_filter {β : Type} (t : Tab β) (p : Nat × β → Bool) (h : Tab.sorted t = true) :
    Tab.sorted (t.filter p) = true := by
  induction t with
  | nil => rfl
  | cons e r ih =>
    obtain ⟨a, y⟩ := e
    have hc := (Tab.sorted_cons a y r).mp h
    rw [List.filter_cons]
    split
    · refine (Tab.sorted_cons a y _).mpr ⟨fun q hq => hc.1 q (List.mem_filter.mp hq).1, ih hc.2⟩
    · exact ih hc.2

/-- What the canonical form says. -/
theorem Tab.wf_iff {β : Type} [DecidableEq β] (d : β) (t : Tab β) :
    Tab.wf d t = true ↔ Tab.sorted t = true ∧ ∀ p ∈ t, p.2 ≠ d := by
  simp [Tab.wf, List.all_eq_true]

theorem Tab.wf_nil {β : Type} [DecidableEq β] (d : β) : Tab.wf d ([] : Tab β) = true := rfl

theorem Tab.mem_put {β : Type} (t : Tab β) (k : Nat) (v : β) (q : Nat × β) (h : q ∈ Tab.put t k v) : q = (k, v) ∨ q ∈ t := by
  induction t with
  | nil => exact Or.inl (List.mem_singleton.mp h)
  | cons p r ih =>
    obtain ⟨a, y⟩ := p
    simp only [Tab.put] at h
    split at h
    · rcases List.mem_cons.mp h with h | h
      · exact Or.inl h
      · exact Or.inr h
    · split at h
      · rcases List.mem_cons.mp h with h | h
        · exact Or.inl h
        · exact Or.inr (List.mem_cons_of_mem _ h)
      · rcases List.mem_cons.mp h with h | h
        · exact Or.inr (h ▸ List.mem_cons_self)
        · rcases ih h with h | h
          · exact Or.inl h
          · exact Or.inr (List.mem_cons_of_mem _ h)

theorem Tab.wf_put {β : Type} [DecidableEq β] (d : β) (t : Tab β) (k : Nat) (v : β) (h : Tab.wf d t = true) (hv : v ≠ d) :
    Tab.wf d (Tab.put t k v) = true := by
  obtain ⟨hs, ha⟩ := (Tab.wf_iff d t).mp h
  refine (Tab.wf_iff d _).mpr ⟨Tab.sorted_put t k v hs, fun q hq => ?_⟩
  rcases Tab.mem_put t k v q hq with rfl | hq
  · exact hv
  · exact ha q hq

theorem Tab.wf_filter {β : Type} [DecidableEq β] (d : β) (t : Tab β) (p : Nat × β → Bool) (h : Tab.wf d t = true) :
    Tab.wf d (t.filter p) = true := by
  obtain ⟨hs, ha⟩ := (Tab.wf_iff d t).mp h
  exact (Tab.wf_iff d _).mpr ⟨Tab.sorted_filter t p hs, fun q hq => ha q (List.mem_filter.mp hq).1⟩

/-- A write keeps the canonical form. -/
theorem Tab.wf_set {β : Type} [DecidableEq β] (d : β) (t : Tab β) (k : Nat) (v : β) (h : Tab.wf d t = true) :
    Tab.wf d (Tab.set d t k v) = true := by
  unfold Tab.set
  split
  · exact Tab.wf_filter d t _ h
  · rename_i hv; exact Tab.wf_put d t k v h hv

end Sys2Proof.Machine
end

