-- ==== Sys2Proof/Laws/Lanes.lean ====
section
/-!
SUPPORT. Laws of lane masks and of changing the threads of a unit.
-/

namespace Sys2Proof.Machine

theorem mem_lanesOf (m : Word) (l : Nat) : l ∈ lanesOf m ↔ m.getLsbD l = true := by
  simp only [lanesOf, List.mem_filter, List.mem_range]
  constructor
  · exact fun h => h.2
  · exact fun h => ⟨BitVec.lt_of_getLsbD h, h⟩

theorem lanesOf_nodup (m : Word) : (lanesOf m).Nodup := List.Pairwise.filter _ List.nodup_range

theorem lanesOf_lt (m : Word) (l : Nat) (h : l ∈ lanesOf m) : l < 32 := BitVec.lt_of_getLsbD ((mem_lanesOf m l).mp h)

/-- A bit of a mask set bit by bit. -/
theorem getLsbD_setBits (f : Nat → Bool) (ls : List Nat) (m : Word) (j : Nat) :
    (ls.foldl (fun m i => if f i then m ||| (1#32 <<< i) else m) m).getLsbD j =
      (m.getLsbD j || (decide (j < 32) && f j && ls.contains j)) := by
  induction ls generalizing m with
  | nil => simp
  | cons i r ih =>
    simp only [List.foldl_cons, ih, List.contains_cons]
    by_cases hf : f i = true
    · rw [if_pos hf, BitVec.getLsbD_or, BitVec.getLsbD_shiftLeft]
      by_cases hij : j = i
      · subst hij; by_cases h32 : j < 32 <;> simp [h32, hf]
      · have hne : (j == i) = false := by simpa using hij
        by_cases h32 : j < 32
        · have h1 : (1#32 : BitVec 32).getLsbD (j - i) = decide (j - i = 0) := by
            rw [BitVec.getLsbD_one]; simp
          rw [h1]; simp only [hne, h32, decide_true, Bool.true_and, Bool.false_or]
          by_cases hlt : j < i
          · simp [hlt]
          · have : ¬ (j - i = 0) := by omega
            simp [this]
        · simp [hne, h32]
    · rw [if_neg hf]
      by_cases hij : j = i
      · subst hij; simp [hf]
      · have hne : (j == i) = false := by simpa using hij
        simp [hne]

theorem getLsbD_maskOf (f : Nat → Bool) (j : Nat) : (maskOf f).getLsbD j = (decide (j < 32) && f j) := by
  unfold maskOf
  rw [getLsbD_setBits]
  by_cases h : j < 32 <;> simp [h]

theorem getLsbD_lanesWhere (w : Warp) (m : Word) (f : Thread → Bool) (l : Nat) :
    (w.lanesWhere m f).getLsbD l = (m.getLsbD l && f (w.lane l)) := by
  unfold Warp.lanesWhere
  rw [getLsbD_maskOf]
  by_cases h : l < 32
  · simp [h]
  · simp [h, BitVec.getLsbD_of_ge m l (by omega)]

theorem lanesOf_lanesWhere (w : Warp) (m : Word) (f : Thread → Bool) :
    lanesOf (w.lanesWhere m f) = (lanesOf m).filter fun l => f (w.lane l) := by
  simp only [lanesOf, List.filter_filter]
  refine List.filter_congr fun l _ => ?_
  rw [getLsbD_lanesWhere]; exact Bool.and_comm _ _

theorem lanesWhere_eq_zero (w : Warp) (m : Word) (f : Thread → Bool) :
    w.lanesWhere m f = 0#32 ↔ ∀ l ∈ lanesOf m, f (w.lane l) = false := by
  constructor
  · intro h l hl
    have := getLsbD_lanesWhere w m f l
    rw [h, (mem_lanesOf m l).mp hl] at this
    simpa using this.symm
  · intro h
    refine BitVec.eq_of_getLsbD_eq fun l _ => ?_
    rw [getLsbD_lanesWhere]
    by_cases hl : m.getLsbD l = true
    · simp [h l ((mem_lanesOf m l).mpr hl)]
    · simp [hl]

theorem mem_lanesOf_laneBit (k l : Nat) (hk : k < 32) : l ∈ lanesOf (laneBit k) ↔ l = k := by
  rw [mem_lanesOf]
  unfold laneBit
  rw [BitVec.getLsbD_shiftLeft]
  simp
  omega

theorem getLsbD_laneBit (k l : Nat) (hk : k < 32) : (laneBit k).getLsbD l = decide (l = k) := by
  have h := mem_lanesOf_laneBit k l hk
  rw [mem_lanesOf] at h
  by_cases hl : l = k
  · rw [h.mpr hl]; simp [hl]
  · have : ¬ (laneBit k).getLsbD l = true := fun x => hl (h.mp x)
    simp [hl, this]

/-- A fold that changes each listed key once. -/
theorem get_foldl_mod {β : Type} (d : β) (f : Nat → β → β) (ls : List Nat) (hn : ls.Nodup) (t : Tab β) (j : Nat) :
    Tab.get d (ls.foldl (fun t l => Tab.mod d t l (f l)) t) j = if j ∈ ls then f j (Tab.get d t j) else Tab.get d t j := by
  induction ls generalizing t with
  | nil => simp
  | cons l r ih =>
    have hl := List.nodup_cons.mp hn
    rw [List.foldl_cons, ih hl.2, Tab.get_mod]
    by_cases hj : j = l
    · subst hj; simp [hl.1]
    · simp [hj]

theorem lane_mapLanes (w : Warp) (m : Word) (f : Nat → Thread → Thread) (l : Nat) :
    (w.mapLanes m f).lane l = if m.getLsbD l then f l (w.lane l) else w.lane l := by
  unfold Warp.mapLanes Warp.lane
  simp only
  rw [get_foldl_mod Thread.init f (lanesOf m) (lanesOf_nodup m) w.th l]
  simp only [mem_lanesOf]

@[simp] theorem mapLanes_u (w : Warp) (m : Word) (f : Nat → Thread → Thread) : (w.mapLanes m f).u = w.u := rfl
@[simp] theorem mapLanes_reck (w : Warp) (m : Word) (f : Nat → Thread → Thread) : (w.mapLanes m f).reck = w.reck := rfl
@[simp] theorem mapLanes_quota (w : Warp) (m : Word) (f : Nat → Thread → Thread) : (w.mapLanes m f).quota = w.quota := rfl
@[simp] theorem mapLanes_k (w : Warp) (m : Word) (f : Nat → Thread → Thread) : (w.mapLanes m f).k = w.k := rfl
@[simp] theorem mapLanes_seq (w : Warp) (m : Word) (f : Nat → Thread → Thread) : (w.mapLanes m f).seq = w.seq := rfl
@[simp] theorem mapLanes_team (w : Warp) (m : Word) (f : Nat → Thread → Thread) : (w.mapLanes m f).team = w.team := rfl
@[simp] theorem mapLanes_part (w : Warp) (m : Word) (f : Nat → Thread → Thread) : (w.mapLanes m f).part = w.part := rfl
@[simp] theorem mapLanes_grid (w : Warp) (m : Word) (f : Nat → Thread → Thread) : (w.mapLanes m f).grid = w.grid := rfl
@[simp] theorem mapLanes_slice (w : Warp) (m : Word) (f : Nat → Thread → Thread) : (w.mapLanes m f).slice = w.slice := rfl
@[simp] theorem mapLanes_core (w : Warp) (m : Word) (f : Nat → Thread → Thread) : (w.mapLanes m f).core = w.core := rfl
@[simp] theorem mapLanes_live (w : Warp) (m : Word) (f : Nat → Thread → Thread) : (w.mapLanes m f).live = w.live := rfl

end Sys2Proof.Machine
end

