-- ==== Sys2Proof/Laws/State.lean ====
section
/-!
SUPPORT. What each update of the state leaves as it was, field by field, and what the changed table reads as.
-/

namespace Sys2Proof.Machine

/-! ### What a changed table reads as -/

theorem unit_setUnit (s : State) (u v : Nat) (w : Warp) : (s.setUnit u w).unit v = if v = u then w else s.unit v :=
  Tab.get_put _ _ _ _ _

@[simp] theorem unit_setUnit_self (s : State) (u : Nat) (w : Warp) : (s.setUnit u w).unit u = w := by simp [unit_setUnit]

theorem setUnit_setUnit (s : State) (u : Nat) (w x : Warp) : (s.setUnit u w).setUnit u x = s.setUnit u x := by
  simp only [State.setUnit, Tab.put_put]

theorem unit_modUnit (s : State) (u v : Nat) (f : Warp → Warp) :
    (s.modUnit u f).unit v = if v = u then f (s.unit u) else s.unit v := unit_setUnit _ _ _ _

theorem slice_modSlice (s : State) (i j : Nat) (f : Slice → Slice) :
    (s.modSlice i f).slice j = if j = i then f (s.slice i) else s.slice j := Tab.get_mod _ _ _ _ _

theorem part_modPart (s : State) (i j : Nat) (f : Part → Part) :
    (s.modPart i f).part j = if j = i then f (s.part i) else s.part j := Tab.get_mod _ _ _ _ _

theorem team_modTeam (s : State) (i j : Nat) (f : Team → Team) :
    (s.modTeam i f).team j = if j = i then f (s.team i) else s.team j := Tab.get_mod _ _ _ _ _

theorem grid_modGrid (s : State) (i j : Nat) (f : Grid → Grid) :
    (s.modGrid i f).grid j = if j = i then f (s.grid i) else s.grid j := Tab.get_mod _ _ _ _ _

theorem core_modCore (s : State) (i j : Nat) (f : Core → Core) :
    (s.modCore i f).core j = if j = i then f (s.core i) else s.core j := Tab.get_mod _ _ _ _ _

theorem stack_modStack (s : State) (i j : Nat) (f : Stack → Stack) :
    (s.modStack i f).stack j = if j = i then f (s.stack i) else s.stack j := Tab.get_mod _ _ _ _ _

/-! `State.setUnit` -/

@[simp] theorem setUnit_mem (s : State) (u : Nat) (w : Warp) : (s.setUnit u w).mem = s.mem := rfl
@[simp] theorem setUnit_poison (s : State) (u : Nat) (w : Warp) : (s.setUnit u w).poison = s.poison := rfl
@[simp] theorem setUnit_ecc (s : State) (u : Nat) (w : Warp) : (s.setUnit u w).ecc = s.ecc := rfl
@[simp] theorem setUnit_packed (s : State) (u : Nat) (w : Warp) : (s.setUnit u w).packed = s.packed := rfl
@[simp] theorem setUnit_stackTab (s : State) (u : Nat) (w : Warp) : (s.setUnit u w).stackTab = s.stackTab := rfl
@[simp] theorem setUnit_slices (s : State) (u : Nat) (w : Warp) : (s.setUnit u w).slices = s.slices := rfl
@[simp] theorem setUnit_parts (s : State) (u : Nat) (w : Warp) : (s.setUnit u w).parts = s.parts := rfl
@[simp] theorem setUnit_cores (s : State) (u : Nat) (w : Warp) : (s.setUnit u w).cores = s.cores := rfl
@[simp] theorem setUnit_rovl (s : State) (u : Nat) (w : Warp) : (s.setUnit u w).rovl = s.rovl := rfl
@[simp] theorem setUnit_teams (s : State) (u : Nat) (w : Warp) : (s.setUnit u w).teams = s.teams := rfl
@[simp] theorem setUnit_grids (s : State) (u : Nat) (w : Warp) : (s.setUnit u w).grids = s.grids := rfl
@[simp] theorem setUnit_cmds (s : State) (u : Nat) (w : Warp) : (s.setUnit u w).cmds = s.cmds := rfl
@[simp] theorem setUnit_order (s : State) (u : Nat) (w : Warp) : (s.setUnit u w).order = s.order := rfl
@[simp] theorem setUnit_rot (s : State) (u : Nat) (w : Warp) : (s.setUnit u w).rot = s.rot := rfl
@[simp] theorem setUnit_harts (s : State) (u : Nat) (w : Warp) : (s.setUnit u w).harts = s.harts := rfl
@[simp] theorem setUnit_resv (s : State) (u : Nat) (w : Warp) : (s.setUnit u w).resv = s.resv := rfl
@[simp] theorem setUnit_powered (s : State) (u : Nat) (w : Warp) : (s.setUnit u w).powered = s.powered := rfl
@[simp] theorem setUnit_nextId (s : State) (u : Nat) (w : Warp) : (s.setUnit u w).nextId = s.nextId := rfl
@[simp] theorem setUnit_cur (s : State) (u : Nat) (w : Warp) : (s.setUnit u w).cur = s.cur := rfl
@[simp] theorem setUnit_agenda (s : State) (u : Nat) (w : Warp) : (s.setUnit u w).agenda = s.agenda := rfl
@[simp] theorem setUnit_tick (s : State) (u : Nat) (w : Warp) : (s.setUnit u w).tick = s.tick := rfl

/-! `State.modSlice` -/

@[simp] theorem modSlice_mem (s : State) (i : Nat) (f : Slice → Slice) : (s.modSlice i f).mem = s.mem := rfl
@[simp] theorem modSlice_poison (s : State) (i : Nat) (f : Slice → Slice) : (s.modSlice i f).poison = s.poison := rfl
@[simp] theorem modSlice_ecc (s : State) (i : Nat) (f : Slice → Slice) : (s.modSlice i f).ecc = s.ecc := rfl
@[simp] theorem modSlice_packed (s : State) (i : Nat) (f : Slice → Slice) : (s.modSlice i f).packed = s.packed := rfl
@[simp] theorem modSlice_stackTab (s : State) (i : Nat) (f : Slice → Slice) : (s.modSlice i f).stackTab = s.stackTab := rfl
@[simp] theorem modSlice_parts (s : State) (i : Nat) (f : Slice → Slice) : (s.modSlice i f).parts = s.parts := rfl
@[simp] theorem modSlice_cores (s : State) (i : Nat) (f : Slice → Slice) : (s.modSlice i f).cores = s.cores := rfl
@[simp] theorem modSlice_rovl (s : State) (i : Nat) (f : Slice → Slice) : (s.modSlice i f).rovl = s.rovl := rfl
@[simp] theorem modSlice_units (s : State) (i : Nat) (f : Slice → Slice) : (s.modSlice i f).units = s.units := rfl
@[simp] theorem modSlice_teams (s : State) (i : Nat) (f : Slice → Slice) : (s.modSlice i f).teams = s.teams := rfl
@[simp] theorem modSlice_grids (s : State) (i : Nat) (f : Slice → Slice) : (s.modSlice i f).grids = s.grids := rfl
@[simp] theorem modSlice_cmds (s : State) (i : Nat) (f : Slice → Slice) : (s.modSlice i f).cmds = s.cmds := rfl
@[simp] theorem modSlice_order (s : State) (i : Nat) (f : Slice → Slice) : (s.modSlice i f).order = s.order := rfl
@[simp] theorem modSlice_rot (s : State) (i : Nat) (f : Slice → Slice) : (s.modSlice i f).rot = s.rot := rfl
@[simp] theorem modSlice_harts (s : State) (i : Nat) (f : Slice → Slice) : (s.modSlice i f).harts = s.harts := rfl
@[simp] theorem modSlice_resv (s : State) (i : Nat) (f : Slice → Slice) : (s.modSlice i f).resv = s.resv := rfl
@[simp] theorem modSlice_powered (s : State) (i : Nat) (f : Slice → Slice) : (s.modSlice i f).powered = s.powered := rfl
@[simp] theorem modSlice_nextId (s : State) (i : Nat) (f : Slice → Slice) : (s.modSlice i f).nextId = s.nextId := rfl
@[simp] theorem modSlice_cur (s : State) (i : Nat) (f : Slice → Slice) : (s.modSlice i f).cur = s.cur := rfl
@[simp] theorem modSlice_agenda (s : State) (i : Nat) (f : Slice → Slice) : (s.modSlice i f).agenda = s.agenda := rfl
@[simp] theorem modSlice_tick (s : State) (i : Nat) (f : Slice → Slice) : (s.modSlice i f).tick = s.tick := rfl

/-! `State.modPart` -/

@[simp] theorem modPart_mem (s : State) (i : Nat) (f : Part → Part) : (s.modPart i f).mem = s.mem := rfl
@[simp] theorem modPart_poison (s : State) (i : Nat) (f : Part → Part) : (s.modPart i f).poison = s.poison := rfl
@[simp] theorem modPart_ecc (s : State) (i : Nat) (f : Part → Part) : (s.modPart i f).ecc = s.ecc := rfl
@[simp] theorem modPart_packed (s : State) (i : Nat) (f : Part → Part) : (s.modPart i f).packed = s.packed := rfl
@[simp] theorem modPart_stackTab (s : State) (i : Nat) (f : Part → Part) : (s.modPart i f).stackTab = s.stackTab := rfl
@[simp] theorem modPart_slices (s : State) (i : Nat) (f : Part → Part) : (s.modPart i f).slices = s.slices := rfl
@[simp] theorem modPart_cores (s : State) (i : Nat) (f : Part → Part) : (s.modPart i f).cores = s.cores := rfl
@[simp] theorem modPart_rovl (s : State) (i : Nat) (f : Part → Part) : (s.modPart i f).rovl = s.rovl := rfl
@[simp] theorem modPart_units (s : State) (i : Nat) (f : Part → Part) : (s.modPart i f).units = s.units := rfl
@[simp] theorem modPart_teams (s : State) (i : Nat) (f : Part → Part) : (s.modPart i f).teams = s.teams := rfl
@[simp] theorem modPart_grids (s : State) (i : Nat) (f : Part → Part) : (s.modPart i f).grids = s.grids := rfl
@[simp] theorem modPart_cmds (s : State) (i : Nat) (f : Part → Part) : (s.modPart i f).cmds = s.cmds := rfl
@[simp] theorem modPart_order (s : State) (i : Nat) (f : Part → Part) : (s.modPart i f).order = s.order := rfl
@[simp] theorem modPart_rot (s : State) (i : Nat) (f : Part → Part) : (s.modPart i f).rot = s.rot := rfl
@[simp] theorem modPart_harts (s : State) (i : Nat) (f : Part → Part) : (s.modPart i f).harts = s.harts := rfl
@[simp] theorem modPart_resv (s : State) (i : Nat) (f : Part → Part) : (s.modPart i f).resv = s.resv := rfl
@[simp] theorem modPart_powered (s : State) (i : Nat) (f : Part → Part) : (s.modPart i f).powered = s.powered := rfl
@[simp] theorem modPart_nextId (s : State) (i : Nat) (f : Part → Part) : (s.modPart i f).nextId = s.nextId := rfl
@[simp] theorem modPart_cur (s : State) (i : Nat) (f : Part → Part) : (s.modPart i f).cur = s.cur := rfl
@[simp] theorem modPart_agenda (s : State) (i : Nat) (f : Part → Part) : (s.modPart i f).agenda = s.agenda := rfl
@[simp] theorem modPart_tick (s : State) (i : Nat) (f : Part → Part) : (s.modPart i f).tick = s.tick := rfl

/-! `State.modTeam` -/

@[simp] theorem modTeam_mem (s : State) (i : Nat) (f : Team → Team) : (s.modTeam i f).mem = s.mem := rfl
@[simp] theorem modTeam_poison (s : State) (i : Nat) (f : Team → Team) : (s.modTeam i f).poison = s.poison := rfl
@[simp] theorem modTeam_ecc (s : State) (i : Nat) (f : Team → Team) : (s.modTeam i f).ecc = s.ecc := rfl
@[simp] theorem modTeam_packed (s : State) (i : Nat) (f : Team → Team) : (s.modTeam i f).packed = s.packed := rfl
@[simp] theorem modTeam_stackTab (s : State) (i : Nat) (f : Team → Team) : (s.modTeam i f).stackTab = s.stackTab := rfl
@[simp] theorem modTeam_slices (s : State) (i : Nat) (f : Team → Team) : (s.modTeam i f).slices = s.slices := rfl
@[simp] theorem modTeam_parts (s : State) (i : Nat) (f : Team → Team) : (s.modTeam i f).parts = s.parts := rfl
@[simp] theorem modTeam_cores (s : State) (i : Nat) (f : Team → Team) : (s.modTeam i f).cores = s.cores := rfl
@[simp] theorem modTeam_rovl (s : State) (i : Nat) (f : Team → Team) : (s.modTeam i f).rovl = s.rovl := rfl
@[simp] theorem modTeam_units (s : State) (i : Nat) (f : Team → Team) : (s.modTeam i f).units = s.units := rfl
@[simp] theorem modTeam_grids (s : State) (i : Nat) (f : Team → Team) : (s.modTeam i f).grids = s.grids := rfl
@[simp] theorem modTeam_cmds (s : State) (i : Nat) (f : Team → Team) : (s.modTeam i f).cmds = s.cmds := rfl
@[simp] theorem modTeam_order (s : State) (i : Nat) (f : Team → Team) : (s.modTeam i f).order = s.order := rfl
@[simp] theorem modTeam_rot (s : State) (i : Nat) (f : Team → Team) : (s.modTeam i f).rot = s.rot := rfl
@[simp] theorem modTeam_harts (s : State) (i : Nat) (f : Team → Team) : (s.modTeam i f).harts = s.harts := rfl
@[simp] theorem modTeam_resv (s : State) (i : Nat) (f : Team → Team) : (s.modTeam i f).resv = s.resv := rfl
@[simp] theorem modTeam_powered (s : State) (i : Nat) (f : Team → Team) : (s.modTeam i f).powered = s.powered := rfl
@[simp] theorem modTeam_nextId (s : State) (i : Nat) (f : Team → Team) : (s.modTeam i f).nextId = s.nextId := rfl
@[simp] theorem modTeam_cur (s : State) (i : Nat) (f : Team → Team) : (s.modTeam i f).cur = s.cur := rfl
@[simp] theorem modTeam_agenda (s : State) (i : Nat) (f : Team → Team) : (s.modTeam i f).agenda = s.agenda := rfl
@[simp] theorem modTeam_tick (s : State) (i : Nat) (f : Team → Team) : (s.modTeam i f).tick = s.tick := rfl

/-! `State.modGrid` -/

@[simp] theorem modGrid_mem (s : State) (i : Nat) (f : Grid → Grid) : (s.modGrid i f).mem = s.mem := rfl
@[simp] theorem modGrid_poison (s : State) (i : Nat) (f : Grid → Grid) : (s.modGrid i f).poison = s.poison := rfl
@[simp] theorem modGrid_ecc (s : State) (i : Nat) (f : Grid → Grid) : (s.modGrid i f).ecc = s.ecc := rfl
@[simp] theorem modGrid_packed (s : State) (i : Nat) (f : Grid → Grid) : (s.modGrid i f).packed = s.packed := rfl
@[simp] theorem modGrid_stackTab (s : State) (i : Nat) (f : Grid → Grid) : (s.modGrid i f).stackTab = s.stackTab := rfl
@[simp] theorem modGrid_slices (s : State) (i : Nat) (f : Grid → Grid) : (s.modGrid i f).slices = s.slices := rfl
@[simp] theorem modGrid_parts (s : State) (i : Nat) (f : Grid → Grid) : (s.modGrid i f).parts = s.parts := rfl
@[simp] theorem modGrid_cores (s : State) (i : Nat) (f : Grid → Grid) : (s.modGrid i f).cores = s.cores := rfl
@[simp] theorem modGrid_rovl (s : State) (i : Nat) (f : Grid → Grid) : (s.modGrid i f).rovl = s.rovl := rfl
@[simp] theorem modGrid_units (s : State) (i : Nat) (f : Grid → Grid) : (s.modGrid i f).units = s.units := rfl
@[simp] theorem modGrid_teams (s : State) (i : Nat) (f : Grid → Grid) : (s.modGrid i f).teams = s.teams := rfl
@[simp] theorem modGrid_cmds (s : State) (i : Nat) (f : Grid → Grid) : (s.modGrid i f).cmds = s.cmds := rfl
@[simp] theorem modGrid_order (s : State) (i : Nat) (f : Grid → Grid) : (s.modGrid i f).order = s.order := rfl
@[simp] theorem modGrid_rot (s : State) (i : Nat) (f : Grid → Grid) : (s.modGrid i f).rot = s.rot := rfl
@[simp] theorem modGrid_harts (s : State) (i : Nat) (f : Grid → Grid) : (s.modGrid i f).harts = s.harts := rfl
@[simp] theorem modGrid_resv (s : State) (i : Nat) (f : Grid → Grid) : (s.modGrid i f).resv = s.resv := rfl
@[simp] theorem modGrid_powered (s : State) (i : Nat) (f : Grid → Grid) : (s.modGrid i f).powered = s.powered := rfl
@[simp] theorem modGrid_nextId (s : State) (i : Nat) (f : Grid → Grid) : (s.modGrid i f).nextId = s.nextId := rfl
@[simp] theorem modGrid_cur (s : State) (i : Nat) (f : Grid → Grid) : (s.modGrid i f).cur = s.cur := rfl
@[simp] theorem modGrid_agenda (s : State) (i : Nat) (f : Grid → Grid) : (s.modGrid i f).agenda = s.agenda := rfl
@[simp] theorem modGrid_tick (s : State) (i : Nat) (f : Grid → Grid) : (s.modGrid i f).tick = s.tick := rfl

/-! `State.modCore` -/

@[simp] theorem modCore_mem (s : State) (i : Nat) (f : Core → Core) : (s.modCore i f).mem = s.mem := rfl
@[simp] theorem modCore_poison (s : State) (i : Nat) (f : Core → Core) : (s.modCore i f).poison = s.poison := rfl
@[simp] theorem modCore_ecc (s : State) (i : Nat) (f : Core → Core) : (s.modCore i f).ecc = s.ecc := rfl
@[simp] theorem modCore_packed (s : State) (i : Nat) (f : Core → Core) : (s.modCore i f).packed = s.packed := rfl
@[simp] theorem modCore_stackTab (s : State) (i : Nat) (f : Core → Core) : (s.modCore i f).stackTab = s.stackTab := rfl
@[simp] theorem modCore_slices (s : State) (i : Nat) (f : Core → Core) : (s.modCore i f).slices = s.slices := rfl
@[simp] theorem modCore_parts (s : State) (i : Nat) (f : Core → Core) : (s.modCore i f).parts = s.parts := rfl
@[simp] theorem modCore_rovl (s : State) (i : Nat) (f : Core → Core) : (s.modCore i f).rovl = s.rovl := rfl
@[simp] theorem modCore_units (s : State) (i : Nat) (f : Core → Core) : (s.modCore i f).units = s.units := rfl
@[simp] theorem modCore_teams (s : State) (i : Nat) (f : Core → Core) : (s.modCore i f).teams = s.teams := rfl
@[simp] theorem modCore_grids (s : State) (i : Nat) (f : Core → Core) : (s.modCore i f).grids = s.grids := rfl
@[simp] theorem modCore_cmds (s : State) (i : Nat) (f : Core → Core) : (s.modCore i f).cmds = s.cmds := rfl
@[simp] theorem modCore_order (s : State) (i : Nat) (f : Core → Core) : (s.modCore i f).order = s.order := rfl
@[simp] theorem modCore_rot (s : State) (i : Nat) (f : Core → Core) : (s.modCore i f).rot = s.rot := rfl
@[simp] theorem modCore_harts (s : State) (i : Nat) (f : Core → Core) : (s.modCore i f).harts = s.harts := rfl
@[simp] theorem modCore_resv (s : State) (i : Nat) (f : Core → Core) : (s.modCore i f).resv = s.resv := rfl
@[simp] theorem modCore_powered (s : State) (i : Nat) (f : Core → Core) : (s.modCore i f).powered = s.powered := rfl
@[simp] theorem modCore_nextId (s : State) (i : Nat) (f : Core → Core) : (s.modCore i f).nextId = s.nextId := rfl
@[simp] theorem modCore_cur (s : State) (i : Nat) (f : Core → Core) : (s.modCore i f).cur = s.cur := rfl
@[simp] theorem modCore_agenda (s : State) (i : Nat) (f : Core → Core) : (s.modCore i f).agenda = s.agenda := rfl
@[simp] theorem modCore_tick (s : State) (i : Nat) (f : Core → Core) : (s.modCore i f).tick = s.tick := rfl

/-! `State.modStack` -/

@[simp] theorem modStack_mem (s : State) (i : Nat) (f : Stack → Stack) : (s.modStack i f).mem = s.mem := rfl
@[simp] theorem modStack_poison (s : State) (i : Nat) (f : Stack → Stack) : (s.modStack i f).poison = s.poison := rfl
@[simp] theorem modStack_ecc (s : State) (i : Nat) (f : Stack → Stack) : (s.modStack i f).ecc = s.ecc := rfl
@[simp] theorem modStack_packed (s : State) (i : Nat) (f : Stack → Stack) : (s.modStack i f).packed = s.packed := rfl
@[simp] theorem modStack_slices (s : State) (i : Nat) (f : Stack → Stack) : (s.modStack i f).slices = s.slices := rfl
@[simp] theorem modStack_parts (s : State) (i : Nat) (f : Stack → Stack) : (s.modStack i f).parts = s.parts := rfl
@[simp] theorem modStack_cores (s : State) (i : Nat) (f : Stack → Stack) : (s.modStack i f).cores = s.cores := rfl
@[simp] theorem modStack_rovl (s : State) (i : Nat) (f : Stack → Stack) : (s.modStack i f).rovl = s.rovl := rfl
@[simp] theorem modStack_units (s : State) (i : Nat) (f : Stack → Stack) : (s.modStack i f).units = s.units := rfl
@[simp] theorem modStack_teams (s : State) (i : Nat) (f : Stack → Stack) : (s.modStack i f).teams = s.teams := rfl
@[simp] theorem modStack_grids (s : State) (i : Nat) (f : Stack → Stack) : (s.modStack i f).grids = s.grids := rfl
@[simp] theorem modStack_cmds (s : State) (i : Nat) (f : Stack → Stack) : (s.modStack i f).cmds = s.cmds := rfl
@[simp] theorem modStack_order (s : State) (i : Nat) (f : Stack → Stack) : (s.modStack i f).order = s.order := rfl
@[simp] theorem modStack_rot (s : State) (i : Nat) (f : Stack → Stack) : (s.modStack i f).rot = s.rot := rfl
@[simp] theorem modStack_harts (s : State) (i : Nat) (f : Stack → Stack) : (s.modStack i f).harts = s.harts := rfl
@[simp] theorem modStack_resv (s : State) (i : Nat) (f : Stack → Stack) : (s.modStack i f).resv = s.resv := rfl
@[simp] theorem modStack_powered (s : State) (i : Nat) (f : Stack → Stack) : (s.modStack i f).powered = s.powered := rfl
@[simp] theorem modStack_nextId (s : State) (i : Nat) (f : Stack → Stack) : (s.modStack i f).nextId = s.nextId := rfl
@[simp] theorem modStack_cur (s : State) (i : Nat) (f : Stack → Stack) : (s.modStack i f).cur = s.cur := rfl
@[simp] theorem modStack_agenda (s : State) (i : Nat) (f : Stack → Stack) : (s.modStack i f).agenda = s.agenda := rfl
@[simp] theorem modStack_tick (s : State) (i : Nat) (f : Stack → Stack) : (s.modStack i f).tick = s.tick := rfl

/-! `State.modUnit` -/

@[simp] theorem modUnit_mem (s : State) (u : Nat) (f : Warp → Warp) : (s.modUnit u f).mem = s.mem := rfl
@[simp] theorem modUnit_poison (s : State) (u : Nat) (f : Warp → Warp) : (s.modUnit u f).poison = s.poison := rfl
@[simp] theorem modUnit_ecc (s : State) (u : Nat) (f : Warp → Warp) : (s.modUnit u f).ecc = s.ecc := rfl
@[simp] theorem modUnit_packed (s : State) (u : Nat) (f : Warp → Warp) : (s.modUnit u f).packed = s.packed := rfl
@[simp] theorem modUnit_stackTab (s : State) (u : Nat) (f : Warp → Warp) : (s.modUnit u f).stackTab = s.stackTab := rfl
@[simp] theorem modUnit_slices (s : State) (u : Nat) (f : Warp → Warp) : (s.modUnit u f).slices = s.slices := rfl
@[simp] theorem modUnit_parts (s : State) (u : Nat) (f : Warp → Warp) : (s.modUnit u f).parts = s.parts := rfl
@[simp] theorem modUnit_cores (s : State) (u : Nat) (f : Warp → Warp) : (s.modUnit u f).cores = s.cores := rfl
@[simp] theorem modUnit_rovl (s : State) (u : Nat) (f : Warp → Warp) : (s.modUnit u f).rovl = s.rovl := rfl
@[simp] theorem modUnit_teams (s : State) (u : Nat) (f : Warp → Warp) : (s.modUnit u f).teams = s.teams := rfl
@[simp] theorem modUnit_grids (s : State) (u : Nat) (f : Warp → Warp) : (s.modUnit u f).grids = s.grids := rfl
@[simp] theorem modUnit_cmds (s : State) (u : Nat) (f : Warp → Warp) : (s.modUnit u f).cmds = s.cmds := rfl
@[simp] theorem modUnit_order (s : State) (u : Nat) (f : Warp → Warp) : (s.modUnit u f).order = s.order := rfl
@[simp] theorem modUnit_rot (s : State) (u : Nat) (f : Warp → Warp) : (s.modUnit u f).rot = s.rot := rfl
@[simp] theorem modUnit_harts (s : State) (u : Nat) (f : Warp → Warp) : (s.modUnit u f).harts = s.harts := rfl
@[simp] theorem modUnit_resv (s : State) (u : Nat) (f : Warp → Warp) : (s.modUnit u f).resv = s.resv := rfl
@[simp] theorem modUnit_powered (s : State) (u : Nat) (f : Warp → Warp) : (s.modUnit u f).powered = s.powered := rfl
@[simp] theorem modUnit_nextId (s : State) (u : Nat) (f : Warp → Warp) : (s.modUnit u f).nextId = s.nextId := rfl
@[simp] theorem modUnit_cur (s : State) (u : Nat) (f : Warp → Warp) : (s.modUnit u f).cur = s.cur := rfl
@[simp] theorem modUnit_agenda (s : State) (u : Nat) (f : Warp → Warp) : (s.modUnit u f).agenda = s.agenda := rfl
@[simp] theorem modUnit_tick (s : State) (u : Nat) (f : Warp → Warp) : (s.modUnit u f).tick = s.tick := rfl

/-! `State.modLanes` -/

@[simp] theorem modLanes_mem (s : State) (u : Nat) (m : Word) (f : Nat → Thread → Thread) : (s.modLanes u m f).mem = s.mem := rfl
@[simp] theorem modLanes_poison (s : State) (u : Nat) (m : Word) (f : Nat → Thread → Thread) : (s.modLanes u m f).poison = s.poison := rfl
@[simp] theorem modLanes_ecc (s : State) (u : Nat) (m : Word) (f : Nat → Thread → Thread) : (s.modLanes u m f).ecc = s.ecc := rfl
@[simp] theorem modLanes_packed (s : State) (u : Nat) (m : Word) (f : Nat → Thread → Thread) : (s.modLanes u m f).packed = s.packed := rfl
@[simp] theorem modLanes_stackTab (s : State) (u : Nat) (m : Word) (f : Nat → Thread → Thread) : (s.modLanes u m f).stackTab = s.stackTab := rfl
@[simp] theorem modLanes_slices (s : State) (u : Nat) (m : Word) (f : Nat → Thread → Thread) : (s.modLanes u m f).slices = s.slices := rfl
@[simp] theorem modLanes_parts (s : State) (u : Nat) (m : Word) (f : Nat → Thread → Thread) : (s.modLanes u m f).parts = s.parts := rfl
@[simp] theorem modLanes_cores (s : State) (u : Nat) (m : Word) (f : Nat → Thread → Thread) : (s.modLanes u m f).cores = s.cores := rfl
@[simp] theorem modLanes_rovl (s : State) (u : Nat) (m : Word) (f : Nat → Thread → Thread) : (s.modLanes u m f).rovl = s.rovl := rfl
@[simp] theorem modLanes_teams (s : State) (u : Nat) (m : Word) (f : Nat → Thread → Thread) : (s.modLanes u m f).teams = s.teams := rfl
@[simp] theorem modLanes_grids (s : State) (u : Nat) (m : Word) (f : Nat → Thread → Thread) : (s.modLanes u m f).grids = s.grids := rfl
@[simp] theorem modLanes_cmds (s : State) (u : Nat) (m : Word) (f : Nat → Thread → Thread) : (s.modLanes u m f).cmds = s.cmds := rfl
@[simp] theorem modLanes_order (s : State) (u : Nat) (m : Word) (f : Nat → Thread → Thread) : (s.modLanes u m f).order = s.order := rfl
@[simp] theorem modLanes_rot (s : State) (u : Nat) (m : Word) (f : Nat → Thread → Thread) : (s.modLanes u m f).rot = s.rot := rfl
@[simp] theorem modLanes_harts (s : State) (u : Nat) (m : Word) (f : Nat → Thread → Thread) : (s.modLanes u m f).harts = s.harts := rfl
@[simp] theorem modLanes_resv (s : State) (u : Nat) (m : Word) (f : Nat → Thread → Thread) : (s.modLanes u m f).resv = s.resv := rfl
@[simp] theorem modLanes_powered (s : State) (u : Nat) (m : Word) (f : Nat → Thread → Thread) : (s.modLanes u m f).powered = s.powered := rfl
@[simp] theorem modLanes_nextId (s : State) (u : Nat) (m : Word) (f : Nat → Thread → Thread) : (s.modLanes u m f).nextId = s.nextId := rfl
@[simp] theorem modLanes_cur (s : State) (u : Nat) (m : Word) (f : Nat → Thread → Thread) : (s.modLanes u m f).cur = s.cur := rfl
@[simp] theorem modLanes_agenda (s : State) (u : Nat) (m : Word) (f : Nat → Thread → Thread) : (s.modLanes u m f).agenda = s.agenda := rfl
@[simp] theorem modLanes_tick (s : State) (u : Nat) (m : Word) (f : Nat → Thread → Thread) : (s.modLanes u m f).tick = s.tick := rfl

/-! `State.modUni` -/

@[simp] theorem modUni_mem (s : State) (u : Nat) (f : Uni → Uni) : (s.modUni u f).mem = s.mem := rfl
@[simp] theorem modUni_poison (s : State) (u : Nat) (f : Uni → Uni) : (s.modUni u f).poison = s.poison := rfl
@[simp] theorem modUni_ecc (s : State) (u : Nat) (f : Uni → Uni) : (s.modUni u f).ecc = s.ecc := rfl
@[simp] theorem modUni_packed (s : State) (u : Nat) (f : Uni → Uni) : (s.modUni u f).packed = s.packed := rfl
@[simp] theorem modUni_stackTab (s : State) (u : Nat) (f : Uni → Uni) : (s.modUni u f).stackTab = s.stackTab := rfl
@[simp] theorem modUni_slices (s : State) (u : Nat) (f : Uni → Uni) : (s.modUni u f).slices = s.slices := rfl
@[simp] theorem modUni_parts (s : State) (u : Nat) (f : Uni → Uni) : (s.modUni u f).parts = s.parts := rfl
@[simp] theorem modUni_cores (s : State) (u : Nat) (f : Uni → Uni) : (s.modUni u f).cores = s.cores := rfl
@[simp] theorem modUni_rovl (s : State) (u : Nat) (f : Uni → Uni) : (s.modUni u f).rovl = s.rovl := rfl
@[simp] theorem modUni_teams (s : State) (u : Nat) (f : Uni → Uni) : (s.modUni u f).teams = s.teams := rfl
@[simp] theorem modUni_grids (s : State) (u : Nat) (f : Uni → Uni) : (s.modUni u f).grids = s.grids := rfl
@[simp] theorem modUni_cmds (s : State) (u : Nat) (f : Uni → Uni) : (s.modUni u f).cmds = s.cmds := rfl
@[simp] theorem modUni_order (s : State) (u : Nat) (f : Uni → Uni) : (s.modUni u f).order = s.order := rfl
@[simp] theorem modUni_rot (s : State) (u : Nat) (f : Uni → Uni) : (s.modUni u f).rot = s.rot := rfl
@[simp] theorem modUni_harts (s : State) (u : Nat) (f : Uni → Uni) : (s.modUni u f).harts = s.harts := rfl
@[simp] theorem modUni_resv (s : State) (u : Nat) (f : Uni → Uni) : (s.modUni u f).resv = s.resv := rfl
@[simp] theorem modUni_powered (s : State) (u : Nat) (f : Uni → Uni) : (s.modUni u f).powered = s.powered := rfl
@[simp] theorem modUni_nextId (s : State) (u : Nat) (f : Uni → Uni) : (s.modUni u f).nextId = s.nextId := rfl
@[simp] theorem modUni_cur (s : State) (u : Nat) (f : Uni → Uni) : (s.modUni u f).cur = s.cur := rfl
@[simp] theorem modUni_agenda (s : State) (u : Nat) (f : Uni → Uni) : (s.modUni u f).agenda = s.agenda := rfl
@[simp] theorem modUni_tick (s : State) (u : Nat) (f : Uni → Uni) : (s.modUni u f).tick = s.tick := rfl

/-! `State.modCtx` -/

@[simp] theorem modCtx_mem (s : State) (p a : Nat) (f : Ctx → Ctx) : (s.modCtx p a f).mem = s.mem := rfl
@[simp] theorem modCtx_poison (s : State) (p a : Nat) (f : Ctx → Ctx) : (s.modCtx p a f).poison = s.poison := rfl
@[simp] theorem modCtx_ecc (s : State) (p a : Nat) (f : Ctx → Ctx) : (s.modCtx p a f).ecc = s.ecc := rfl
@[simp] theorem modCtx_packed (s : State) (p a : Nat) (f : Ctx → Ctx) : (s.modCtx p a f).packed = s.packed := rfl
@[simp] theorem modCtx_stackTab (s : State) (p a : Nat) (f : Ctx → Ctx) : (s.modCtx p a f).stackTab = s.stackTab := rfl
@[simp] theorem modCtx_slices (s : State) (p a : Nat) (f : Ctx → Ctx) : (s.modCtx p a f).slices = s.slices := rfl
@[simp] theorem modCtx_cores (s : State) (p a : Nat) (f : Ctx → Ctx) : (s.modCtx p a f).cores = s.cores := rfl
@[simp] theorem modCtx_rovl (s : State) (p a : Nat) (f : Ctx → Ctx) : (s.modCtx p a f).rovl = s.rovl := rfl
@[simp] theorem modCtx_units (s : State) (p a : Nat) (f : Ctx → Ctx) : (s.modCtx p a f).units = s.units := rfl
@[simp] theorem modCtx_teams (s : State) (p a : Nat) (f : Ctx → Ctx) : (s.modCtx p a f).teams = s.teams := rfl
@[simp] theorem modCtx_grids (s : State) (p a : Nat) (f : Ctx → Ctx) : (s.modCtx p a f).grids = s.grids := rfl
@[simp] theorem modCtx_cmds (s : State) (p a : Nat) (f : Ctx → Ctx) : (s.modCtx p a f).cmds = s.cmds := rfl
@[simp] theorem modCtx_order (s : State) (p a : Nat) (f : Ctx → Ctx) : (s.modCtx p a f).order = s.order := rfl
@[simp] theorem modCtx_rot (s : State) (p a : Nat) (f : Ctx → Ctx) : (s.modCtx p a f).rot = s.rot := rfl
@[simp] theorem modCtx_harts (s : State) (p a : Nat) (f : Ctx → Ctx) : (s.modCtx p a f).harts = s.harts := rfl
@[simp] theorem modCtx_resv (s : State) (p a : Nat) (f : Ctx → Ctx) : (s.modCtx p a f).resv = s.resv := rfl
@[simp] theorem modCtx_powered (s : State) (p a : Nat) (f : Ctx → Ctx) : (s.modCtx p a f).powered = s.powered := rfl
@[simp] theorem modCtx_nextId (s : State) (p a : Nat) (f : Ctx → Ctx) : (s.modCtx p a f).nextId = s.nextId := rfl
@[simp] theorem modCtx_cur (s : State) (p a : Nat) (f : Ctx → Ctx) : (s.modCtx p a f).cur = s.cur := rfl
@[simp] theorem modCtx_agenda (s : State) (p a : Nat) (f : Ctx → Ctx) : (s.modCtx p a f).agenda = s.agenda := rfl
@[simp] theorem modCtx_tick (s : State) (p a : Nat) (f : Ctx → Ctx) : (s.modCtx p a f).tick = s.tick := rfl

/-! `State.advance` -/

@[simp] theorem advance_mem (s : State) (u : Nat) (m pc : Word) : (s.advance u m pc).mem = s.mem := rfl
@[simp] theorem advance_poison (s : State) (u : Nat) (m pc : Word) : (s.advance u m pc).poison = s.poison := rfl
@[simp] theorem advance_ecc (s : State) (u : Nat) (m pc : Word) : (s.advance u m pc).ecc = s.ecc := rfl
@[simp] theorem advance_packed (s : State) (u : Nat) (m pc : Word) : (s.advance u m pc).packed = s.packed := rfl
@[simp] theorem advance_stackTab (s : State) (u : Nat) (m pc : Word) : (s.advance u m pc).stackTab = s.stackTab := rfl
@[simp] theorem advance_slices (s : State) (u : Nat) (m pc : Word) : (s.advance u m pc).slices = s.slices := rfl
@[simp] theorem advance_parts (s : State) (u : Nat) (m pc : Word) : (s.advance u m pc).parts = s.parts := rfl
@[simp] theorem advance_cores (s : State) (u : Nat) (m pc : Word) : (s.advance u m pc).cores = s.cores := rfl
@[simp] theorem advance_rovl (s : State) (u : Nat) (m pc : Word) : (s.advance u m pc).rovl = s.rovl := rfl
@[simp] theorem advance_teams (s : State) (u : Nat) (m pc : Word) : (s.advance u m pc).teams = s.teams := rfl
@[simp] theorem advance_grids (s : State) (u : Nat) (m pc : Word) : (s.advance u m pc).grids = s.grids := rfl
@[simp] theorem advance_cmds (s : State) (u : Nat) (m pc : Word) : (s.advance u m pc).cmds = s.cmds := rfl
@[simp] theorem advance_order (s : State) (u : Nat) (m pc : Word) : (s.advance u m pc).order = s.order := rfl
@[simp] theorem advance_rot (s : State) (u : Nat) (m pc : Word) : (s.advance u m pc).rot = s.rot := rfl
@[simp] theorem advance_harts (s : State) (u : Nat) (m pc : Word) : (s.advance u m pc).harts = s.harts := rfl
@[simp] theorem advance_resv (s : State) (u : Nat) (m pc : Word) : (s.advance u m pc).resv = s.resv := rfl
@[simp] theorem advance_powered (s : State) (u : Nat) (m pc : Word) : (s.advance u m pc).powered = s.powered := rfl
@[simp] theorem advance_nextId (s : State) (u : Nat) (m pc : Word) : (s.advance u m pc).nextId = s.nextId := rfl
@[simp] theorem advance_cur (s : State) (u : Nat) (m pc : Word) : (s.advance u m pc).cur = s.cur := rfl
@[simp] theorem advance_agenda (s : State) (u : Nat) (m pc : Word) : (s.advance u m pc).agenda = s.agenda := rfl
@[simp] theorem advance_tick (s : State) (u : Nat) (m pc : Word) : (s.advance u m pc).tick = s.tick := rfl

/-! `State.issued` -/

@[simp] theorem issued_mem (s : State) : (s.issued).mem = s.mem := rfl
@[simp] theorem issued_poison (s : State) : (s.issued).poison = s.poison := rfl
@[simp] theorem issued_ecc (s : State) : (s.issued).ecc = s.ecc := rfl
@[simp] theorem issued_packed (s : State) : (s.issued).packed = s.packed := rfl
@[simp] theorem issued_stackTab (s : State) : (s.issued).stackTab = s.stackTab := rfl
@[simp] theorem issued_slices (s : State) : (s.issued).slices = s.slices := rfl
@[simp] theorem issued_parts (s : State) : (s.issued).parts = s.parts := rfl
@[simp] theorem issued_cores (s : State) : (s.issued).cores = s.cores := rfl
@[simp] theorem issued_rovl (s : State) : (s.issued).rovl = s.rovl := rfl
@[simp] theorem issued_units (s : State) : (s.issued).units = s.units := rfl
@[simp] theorem issued_teams (s : State) : (s.issued).teams = s.teams := rfl
@[simp] theorem issued_grids (s : State) : (s.issued).grids = s.grids := rfl
@[simp] theorem issued_cmds (s : State) : (s.issued).cmds = s.cmds := rfl
@[simp] theorem issued_order (s : State) : (s.issued).order = s.order := rfl
@[simp] theorem issued_rot (s : State) : (s.issued).rot = s.rot := rfl
@[simp] theorem issued_harts (s : State) : (s.issued).harts = s.harts := rfl
@[simp] theorem issued_resv (s : State) : (s.issued).resv = s.resv := rfl
@[simp] theorem issued_powered (s : State) : (s.issued).powered = s.powered := rfl
@[simp] theorem issued_nextId (s : State) : (s.issued).nextId = s.nextId := rfl
@[simp] theorem issued_agenda (s : State) : (s.issued).agenda = s.agenda := rfl
@[simp] theorem issued_tick (s : State) : (s.issued).tick = s.tick := rfl

/-! `State.raiseEvent` -/

@[simp] theorem raiseEvent_mem (s : State) (p : Nat) (r : List Byte) : (s.raiseEvent p r).mem = s.mem := rfl
@[simp] theorem raiseEvent_poison (s : State) (p : Nat) (r : List Byte) : (s.raiseEvent p r).poison = s.poison := rfl
@[simp] theorem raiseEvent_ecc (s : State) (p : Nat) (r : List Byte) : (s.raiseEvent p r).ecc = s.ecc := rfl
@[simp] theorem raiseEvent_packed (s : State) (p : Nat) (r : List Byte) : (s.raiseEvent p r).packed = s.packed := rfl
@[simp] theorem raiseEvent_stackTab (s : State) (p : Nat) (r : List Byte) : (s.raiseEvent p r).stackTab = s.stackTab := rfl
@[simp] theorem raiseEvent_slices (s : State) (p : Nat) (r : List Byte) : (s.raiseEvent p r).slices = s.slices := rfl
@[simp] theorem raiseEvent_cores (s : State) (p : Nat) (r : List Byte) : (s.raiseEvent p r).cores = s.cores := rfl
@[simp] theorem raiseEvent_rovl (s : State) (p : Nat) (r : List Byte) : (s.raiseEvent p r).rovl = s.rovl := rfl
@[simp] theorem raiseEvent_units (s : State) (p : Nat) (r : List Byte) : (s.raiseEvent p r).units = s.units := rfl
@[simp] theorem raiseEvent_teams (s : State) (p : Nat) (r : List Byte) : (s.raiseEvent p r).teams = s.teams := rfl
@[simp] theorem raiseEvent_grids (s : State) (p : Nat) (r : List Byte) : (s.raiseEvent p r).grids = s.grids := rfl
@[simp] theorem raiseEvent_cmds (s : State) (p : Nat) (r : List Byte) : (s.raiseEvent p r).cmds = s.cmds := rfl
@[simp] theorem raiseEvent_order (s : State) (p : Nat) (r : List Byte) : (s.raiseEvent p r).order = s.order := rfl
@[simp] theorem raiseEvent_rot (s : State) (p : Nat) (r : List Byte) : (s.raiseEvent p r).rot = s.rot := rfl
@[simp] theorem raiseEvent_harts (s : State) (p : Nat) (r : List Byte) : (s.raiseEvent p r).harts = s.harts := rfl
@[simp] theorem raiseEvent_resv (s : State) (p : Nat) (r : List Byte) : (s.raiseEvent p r).resv = s.resv := rfl
@[simp] theorem raiseEvent_powered (s : State) (p : Nat) (r : List Byte) : (s.raiseEvent p r).powered = s.powered := rfl
@[simp] theorem raiseEvent_nextId (s : State) (p : Nat) (r : List Byte) : (s.raiseEvent p r).nextId = s.nextId := rfl
@[simp] theorem raiseEvent_cur (s : State) (p : Nat) (r : List Byte) : (s.raiseEvent p r).cur = s.cur := rfl
@[simp] theorem raiseEvent_agenda (s : State) (p : Nat) (r : List Byte) : (s.raiseEvent p r).agenda = s.agenda := rfl
@[simp] theorem raiseEvent_tick (s : State) (p : Nat) (r : List Byte) : (s.raiseEvent p r).tick = s.tick := rfl

/-! `State.active` -/

@[simp] theorem active_mem (s : State) (p : Nat) : (s.active p).mem = s.mem := rfl
@[simp] theorem active_poison (s : State) (p : Nat) : (s.active p).poison = s.poison := rfl
@[simp] theorem active_ecc (s : State) (p : Nat) : (s.active p).ecc = s.ecc := rfl
@[simp] theorem active_packed (s : State) (p : Nat) : (s.active p).packed = s.packed := rfl
@[simp] theorem active_stackTab (s : State) (p : Nat) : (s.active p).stackTab = s.stackTab := rfl
@[simp] theorem active_slices (s : State) (p : Nat) : (s.active p).slices = s.slices := rfl
@[simp] theorem active_cores (s : State) (p : Nat) : (s.active p).cores = s.cores := rfl
@[simp] theorem active_rovl (s : State) (p : Nat) : (s.active p).rovl = s.rovl := rfl
@[simp] theorem active_units (s : State) (p : Nat) : (s.active p).units = s.units := rfl
@[simp] theorem active_teams (s : State) (p : Nat) : (s.active p).teams = s.teams := rfl
@[simp] theorem active_grids (s : State) (p : Nat) : (s.active p).grids = s.grids := rfl
@[simp] theorem active_cmds (s : State) (p : Nat) : (s.active p).cmds = s.cmds := rfl
@[simp] theorem active_order (s : State) (p : Nat) : (s.active p).order = s.order := rfl
@[simp] theorem active_rot (s : State) (p : Nat) : (s.active p).rot = s.rot := rfl
@[simp] theorem active_harts (s : State) (p : Nat) : (s.active p).harts = s.harts := rfl
@[simp] theorem active_resv (s : State) (p : Nat) : (s.active p).resv = s.resv := rfl
@[simp] theorem active_powered (s : State) (p : Nat) : (s.active p).powered = s.powered := rfl
@[simp] theorem active_nextId (s : State) (p : Nat) : (s.active p).nextId = s.nextId := rfl
@[simp] theorem active_cur (s : State) (p : Nat) : (s.active p).cur = s.cur := rfl
@[simp] theorem active_agenda (s : State) (p : Nat) : (s.active p).agenda = s.agenda := rfl
@[simp] theorem active_tick (s : State) (p : Nat) : (s.active p).tick = s.tick := rfl

/-! `State.dropToken` -/

@[simp] theorem dropToken_mem (s : State) (p u l : Nat) : (s.dropToken p u l).mem = s.mem := rfl
@[simp] theorem dropToken_poison (s : State) (p u l : Nat) : (s.dropToken p u l).poison = s.poison := rfl
@[simp] theorem dropToken_ecc (s : State) (p u l : Nat) : (s.dropToken p u l).ecc = s.ecc := rfl
@[simp] theorem dropToken_packed (s : State) (p u l : Nat) : (s.dropToken p u l).packed = s.packed := rfl
@[simp] theorem dropToken_stackTab (s : State) (p u l : Nat) : (s.dropToken p u l).stackTab = s.stackTab := rfl
@[simp] theorem dropToken_slices (s : State) (p u l : Nat) : (s.dropToken p u l).slices = s.slices := rfl
@[simp] theorem dropToken_cores (s : State) (p u l : Nat) : (s.dropToken p u l).cores = s.cores := rfl
@[simp] theorem dropToken_rovl (s : State) (p u l : Nat) : (s.dropToken p u l).rovl = s.rovl := rfl
@[simp] theorem dropToken_units (s : State) (p u l : Nat) : (s.dropToken p u l).units = s.units := rfl
@[simp] theorem dropToken_teams (s : State) (p u l : Nat) : (s.dropToken p u l).teams = s.teams := rfl
@[simp] theorem dropToken_grids (s : State) (p u l : Nat) : (s.dropToken p u l).grids = s.grids := rfl
@[simp] theorem dropToken_cmds (s : State) (p u l : Nat) : (s.dropToken p u l).cmds = s.cmds := rfl
@[simp] theorem dropToken_order (s : State) (p u l : Nat) : (s.dropToken p u l).order = s.order := rfl
@[simp] theorem dropToken_rot (s : State) (p u l : Nat) : (s.dropToken p u l).rot = s.rot := rfl
@[simp] theorem dropToken_harts (s : State) (p u l : Nat) : (s.dropToken p u l).harts = s.harts := rfl
@[simp] theorem dropToken_resv (s : State) (p u l : Nat) : (s.dropToken p u l).resv = s.resv := rfl
@[simp] theorem dropToken_powered (s : State) (p u l : Nat) : (s.dropToken p u l).powered = s.powered := rfl
@[simp] theorem dropToken_nextId (s : State) (p u l : Nat) : (s.dropToken p u l).nextId = s.nextId := rfl
@[simp] theorem dropToken_cur (s : State) (p u l : Nat) : (s.dropToken p u l).cur = s.cur := rfl
@[simp] theorem dropToken_agenda (s : State) (p u l : Nat) : (s.dropToken p u l).agenda = s.agenda := rfl
@[simp] theorem dropToken_tick (s : State) (p u l : Nat) : (s.dropToken p u l).tick = s.tick := rfl
end Sys2Proof.Machine
end

