-- ==== Sys2Proof/Laws/Issue.lean ====
section
/-!
SUPPORT. What issuing a word comes to: `issueL` and `issueG` said once, for a word that is ready.
-/

namespace Sys2Proof.Machine

/-! ### The state past the word -/

theorem advance_joined (s : State) :
    ((s.issued.setUnit s.cur.u s.joined).advance s.cur.u s.cur.members s.cur.next) = s.stands := by
  simp only [State.advance, State.modLanes, State.modUnit, unit_setUnit_self, setUnit_setUnit, State.stands, State.past]

theorem joined_reck (s : State) : s.joined.reck = s.issuer.reck := rfl
theorem joined_u (s : State) : s.joined.u = s.issuer.u := rfl
theorem past_u (s : State) : s.past.u = s.issuer.u := rfl
theorem stands_cur (s : State) : s.stands.cur = s.issued.cur := rfl
theorem stands_unit (s : State) : s.stands.unit s.cur.u = s.past := unit_setUnit_self _ _ _

/-- A lane of the unit past the word. -/
theorem lane_past (s : State) (l : Nat) :
    s.past.lane l = if s.cur.members.getLsbD l then { s.joined.lane l with pc := s.cur.next } else s.issuer.lane l := by
  unfold State.past
  rw [lane_mapLanes]
  split
  · rfl
  · rename_i h
    unfold State.joined Warp.joinGroup
    rw [lane_mapLanes]
    simp [h]

theorem lguard_past (s : State) (g : BitVec 3) (l : Nat) (h : s.cur.members.getLsbD l = true) :
    lguard (s.past.lane l) g = lguard (s.joined.lane l) g := by
  rw [lane_past, if_pos h]; rfl

/-- A word that is ready issues: its body runs past the word for the lanes in which it acts. -/
theorem issueL_ready (g : BitVec 3) (wf : Bool) (regs lat : List Nat) (body : State → Word → Out State) (s : State)
    (h : laneReady g wf regs lat s = true) :
    issueL g wf regs lat body s = if s.actMask g = 0#32 then .next s.stands else body s.stands (s.actMask g) := by
  simp only [laneReady, State.fresh, Bool.and_eq_true, Bool.not_eq_true', List.all_eq_true, Bool.or_eq_true] at h
  obtain ⟨⟨⟨⟨⟨⟨ha, hr⟩, hk⟩, hw⟩, hq⟩, hh⟩, hl⟩ := h
  have hrep : s.cur.replay = none := by simpa using hr
  have hk' : (s.unit s.cur.u).reck = false := hk
  have hkj : s.joined.reck = false := hk
  have hact : s.joined.lanesWhere s.cur.members (fun t => lguard t g) = s.actMask g := rfl
  have hj : (s.unit s.cur.u).joinGroup s.cur.members = s.joined := rfl
  have hadv := advance_joined s
  have hmem : ∀ l ∈ lanesOf (s.actMask g), (s.joined.lane l).stalls regs lat = false ∧ ((s.joined.lane l).lostLatch lat).isNone = true := by
    intro l hl'
    have hact' := (mem_lanesOf _ _).mp hl'
    unfold State.actMask at hact'
    rw [getLsbD_lanesWhere, Bool.and_eq_true] at hact'
    rcases hl l ((mem_lanesOf _ _).mpr hact'.1) with hx | hx
    · unfold State.acts at hx; rw [hact'.1, hact'.2] at hx; simp at hx
    · exact hx
  unfold issueL
  simp only [ha, Bool.not_true, Bool.false_eq_true, if_false, hrep, hj, hkj, hact, hw]
  split
  · rw [hadv]
  · rename_i h0
    have haw : (lanesOf (s.actMask g)).any (fun l => (s.joined.lane l).stalls regs lat) = false := by
      rw [List.any_eq_false]; intro l hl'; simp [(hmem l hl').1]
    have hlost : s.joined.lanesWhere (s.actMask g) (fun t => (t.lostLatch lat).isSome) = 0#32 := by
      rw [lanesWhere_eq_zero]; intro l hl'
      have := (hmem l hl').2
      cases hx : (s.joined.lane l).lostLatch lat <;> simp_all
    have hz : lanesOf 0#32 = [] := by decide
    simp only [hq, hh, haw, hlost, Bool.false_eq_true, if_false, hadv]
    have hb : Warp.busy s.joined 0#32 = false := by simp [Warp.busy, hz]
    simp only [hb, Bool.false_eq_true, if_false, if_true]

/-- `laneBody` leaves in each acting lane what `f` gives. -/
theorem laneBody_lane (f : LaneFn) (s : State) (act : Word) :
    ∃ w, laneBody f s act = .next (s.setUnit s.cur.u w) ∧
      w = { s.unit s.cur.u with
        th := w.th
        u := (s.unit s.cur.u).u.raise ((lanesOf act).foldl (fun fl l => fl ||| (f s.cur (s.unit s.cur.u) l ((s.unit s.cur.u).lane l)).2) 0#32) } ∧
      ∀ l, w.lane l = if act.getLsbD l then (f s.cur (s.unit s.cur.u) l ((s.unit s.cur.u).lane l)).1 else (s.unit s.cur.u).lane l := by
  refine ⟨_, rfl, ?_, ?_⟩
  · simp only [List.foldl_map]
  · intro l
    have hput : ∀ (ls : List Nat) (th : Tab Thread), ls.Nodup →
        Tab.get Thread.init ((ls.map fun l => (l, f s.cur (s.unit s.cur.u) l ((s.unit s.cur.u).lane l))).foldl
          (fun th p => Tab.put th p.1 p.2.1) th) l =
        if l ∈ ls then (f s.cur (s.unit s.cur.u) l ((s.unit s.cur.u).lane l)).1 else Tab.get Thread.init th l := by
      intro ls
      induction ls with
      | nil => intro th _; simp
      | cons a r ih =>
        intro th hn
        have hn' := List.nodup_cons.mp hn
        rw [List.map_cons, List.foldl_cons, ih _ hn'.2, Tab.get_put]
        by_cases hla : l = a
        · subst hla; simp [hn'.1]
        · simp [hla]
    show Tab.get Thread.init _ l = _
    rw [hput _ _ (lanesOf_nodup act)]
    simp only [mem_lanesOf]
    rfl

/-- A ready word of the arithmetic chapter completes with its effect in each lane. -/
theorem issueL_laneBody (g : BitVec 3) (wf : Bool) (regs lat : List Nat) (f : LaneFn) (s : State)
    (h : laneReady g wf regs lat s = true) :
    ∃ t, issueL g wf regs lat (laneBody f) s = .next t ∧ LaneEffect g s t f := by
  rw [issueL_ready g wf regs lat (laneBody f) s h]
  have hact : ∀ l, (s.actMask g).getLsbD l = s.acts g l := fun l => getLsbD_lanesWhere _ _ _ _
  split
  · rename_i h0
    refine ⟨_, rfl, s.past, rfl, ?_, ?_⟩
    · have : laneFlags g s f = 0#32 := by simp [laneFlags, h0, show lanesOf 0#32 = [] from by decide]
      rw [this]; simp only [Uni.raise, BitVec.or_zero]; rfl
    · intro l; rw [← hact l, h0]; simp
  · obtain ⟨w, hw, hf, hl⟩ := laneBody_lane f s.stands (s.actMask g)
    rw [stands_cur] at hw hf hl
    have hcu : s.issued.cur.u = s.cur.u := rfl
    rw [hcu, stands_unit] at hf
    refine ⟨_, hw, w, ?_, ?_, ?_⟩
    · rw [hcu]; unfold State.stands; rw [setUnit_setUnit]
    · rw [hf]; rfl
    · intro l
      have := hl l
      rw [hcu, stands_unit] at this
      rw [this, hact]

/-- A ready word issues from its place. -/
theorem laneReady_replay {g : BitVec 3} {wf : Bool} {regs lat : List Nat} {s : State} (h : laneReady g wf regs lat s = true) :
    s.issued.cur.replay = none := by
  simp only [laneReady, State.fresh, Bool.and_eq_true] at h
  show s.cur.replay = none
  simpa using h.1.1.1.1.1.2

/-- How a ready word of the arithmetic chapter is shown to complete: its body agrees with the effect claimed, lane by lane. -/
theorem laneDone_of {i : Instr} {g : BitVec 3} {wf : Bool} {regs lat : List Nat} {f h : LaneFn} {s : State}
    (hr : laneReady g wf regs lat s = true) (he : exec i s = issueL g wf regs lat (laneBody f) s)
    (hf : ∀ l, f s.issued.cur s.past l (s.past.lane l) = h s.issued.cur s.past l (s.past.lane l)) : LaneDone i g s h := by
  obtain ⟨t, ht, w, h1, h2, h3⟩ := issueL_laneBody g wf regs lat f s hr
  refine ⟨t, he.trans ht, w, h1, ?_, fun l => ?_⟩
  · rw [h2]; simp only [laneFlags, hf]
  · rw [h3, hf]

/-- The same for a word with one source. -/
theorem laneDone_one {i : Instr} {g : BitVec 3} {d : Dest} {a : Src} {f h : Word → Word} {s : State} (hr : oneReady g d a s = true)
    (he : exec i s = lane1 g d a f s) (hf : ∀ x, f x = h x) : LaneDone i g s (oneOf d a h) :=
  laneDone_of hr he fun l => by simp [Thread.deliver, laneReady_replay hr, oneOf, resultOf, src, opA, hf]

/-- The same for a word with two sources. -/
theorem laneDone_two {i : Instr} {g : BitVec 3} {d : Dest} {a b : Src} {f h : Word → Word → Word} {s : State}
    (hr : twoReady g d a b s = true) (he : exec i s = lane2 g d a b f s) (hf : ∀ x y, f x y = h x y) :
    LaneDone i g s (twoOf d a b h) :=
  laneDone_of hr he fun l => by simp [Thread.deliver, laneReady_replay hr, twoOf, resultOf, src, opA, opB, hf]

/-! ### G-set words -/

theorem regCode_acts (t : Thread) : regCode t .acts .acts = none := by
  simp only [regCode]
  split
  · rfl
  · split <;> rfl

/-- Outside regions no word ends one. -/
theorem regCode_out (t : Thread) (it ix : InReg) (h : t.inRegion = false) : regCode t it ix = none := by
  simp only [Thread.inRegion, Bool.or_eq_false_iff] at h
  simp [regCode, h.1, h.2]

/-- A ready G-set word acts: its body runs past the word. -/
theorem issueG_ready (q : BitVec 3) (wf : Bool) (on : Where) (it ix : InReg) (drain : Bool) (body : State → GRes) (s : State)
    (h : uniReady q s = true) (hon : (on == .simtOnly && s.issuer.reck || on == .reckOnly && !s.issuer.reck) = false) (hw : wf = true)
    (hreg : ∀ l ∈ lanesOf s.cur.members, regCode (s.joined.lane l) it ix = none)
    (hd : drain = true → s.quiet = true) :
    issueG q wf on it ix drain body s = match body s.stands with
      | .done t => .next t
      | .wait => .next s
      | .queued f => .next (f s)
      | .trap t tpc r => raiseGroup s t s.cur.u s.cur.members tpc r := by
  simp only [uniReady, State.fresh, Bool.and_eq_true] at h
  obtain ⟨⟨ha, hr⟩, hq⟩ := h
  have hrep : s.cur.replay.isSome = false := by simpa using hr
  have hq' : qguard ((s.unit s.cur.u).joinGroup s.cur.members).u q = true := hq
  have hon' : (on == .simtOnly && ((s.unit s.cur.u).joinGroup s.cur.members).reck ||
      on == .reckOnly && !((s.unit s.cur.u).joinGroup s.cur.members).reck) = false := hon
  have hz : ((s.unit s.cur.u).joinGroup s.cur.members).lanesWhere s.cur.members (fun t => (regCode t it ix).isSome) = 0#32 := by
    rw [lanesWhere_eq_zero]; intro l hl; have := hreg l hl; unfold State.joined State.issuer at this; rw [this]; rfl
  have hj : (s.unit s.cur.u).joinGroup s.cur.members = s.joined := rfl
  have hd' : (drain && Warp.busy s.joined s.cur.members) = false := by
    cases hdr : drain
    · rfl
    · have := hd hdr; unfold State.quiet at this; simpa using this
  unfold issueG
  simp only [ha, hrep, hq', hon', hz, hw, Bool.not_true, Bool.false_eq_true, if_false, beq_self_eq_true]
  rw [hj, hd']
  cases hb : body s.stands <;> simp only [Bool.false_eq_true, if_false, advance_joined s, hb]

/-- A ready word on the uniform state. -/
theorem issueUni_ready (q : BitVec 3) (f : State → Warp → Uni → Uni) (s : State) (h : uniReady q s = true) :
    issueUni q f s = .next (s.issued.setUnit s.cur.u { s.past with u := f s.stands s.past s.issuer.u }) := by
  unfold issueUni
  rw [issueG_ready q true .both .acts .acts false _ s h (by rfl) rfl
    (fun l _ => regCode_acts _) (by simp)]
  simp only [stands_cur]
  have hcu : s.issued.cur.u = s.cur.u := rfl
  rw [hcu, stands_unit]
  unfold State.stands
  rw [setUnit_setUnit]
  rfl

end Sys2Proof.Machine
end

