-- ==== Sys2Proof/Laws/Memory.lean ====
section
/-!
SUPPORT. Memory: read after write, the canonical form, and the shared operations that leave memory alone.
-/

namespace Sys2Proof.Machine

/-! ### Bytes -/

@[simp] theorem writeByte_mem (s : State) (k : Nat) (b : Byte) : (s.writeByte k b).mem = Tab.set 0#8 s.mem k b := by
  unfold State.writeByte
  dsimp only
  split
  · rfl
  · split <;> rfl

/-- A byte reads as what was last written to it, and a write leaves every other byte. -/
theorem byte_writeByte (s : State) (k j : Nat) (b : Byte) : (s.writeByte k b).byte j = if j = k then b else s.byte j := by
  unfold State.byte
  rw [writeByte_mem, Tab.get_set]

theorem byte_congr {s t : State} (h : s.mem = t.mem) (k : Nat) : s.byte k = t.byte k := by unfold State.byte; rw [h]

theorem bytes_congr {s t : State} (h : s.mem = t.mem) (k n : Nat) : s.bytes k n = t.bytes k n := by
  unfold State.bytes
  simp only [byte_congr h]

theorem byte_writeBytes (bs : List Byte) (s : State) (k j : Nat) :
    (s.writeBytes k bs).byte j = if k ≤ j ∧ j < k + bs.length then bs.getD (j - k) 0#8 else s.byte j := by
  induction bs generalizing s k with
  | nil =>
    rw [if_neg (by simp only [List.length_nil]; omega)]
    rfl
  | cons b r ih =>
    show ((s.writeByte k b).writeBytes (k + 1) r).byte j = _
    rw [ih, byte_writeByte]
    have hl : (b :: r).length = r.length + 1 := rfl
    by_cases h : j = k
    · rw [if_neg (by omega), if_pos h, if_pos (by omega), h, Nat.sub_self]
      rfl
    · by_cases h2 : k + 1 ≤ j ∧ j < k + 1 + r.length
      · rw [if_pos h2, if_pos (by omega)]
        obtain ⟨d, rfl⟩ : ∃ d, j = k + 1 + d := ⟨j - (k + 1), by omega⟩
        rw [show k + 1 + d - (k + 1) = d by omega, show k + 1 + d - k = d + 1 by omega]
        rfl
      · rw [if_neg h2, if_neg h, if_neg (by omega)]

/-- Bytes read back as they were written. -/
theorem bytes_writeBytes (s : State) (k : Nat) (bs : List Byte) : (s.writeBytes k bs).bytes k bs.length = bs := by
  apply List.ext_getElem
  · simp [State.bytes]
  · intro i h1 h2
    simp only [State.bytes, List.getElem_map, List.getElem_range, byte_writeBytes]
    rw [if_pos (by omega), show k + i - k = i by omega]
    simp [List.getD, h2]

/-- A write leaves every byte outside it. -/
theorem byte_writeBytes_out (s : State) (k j : Nat) (bs : List Byte) (h : j < k ∨ k + bs.length ≤ j) :
    (s.writeBytes k bs).byte j = s.byte j := by
  rw [byte_writeBytes, if_neg (by omega)]

/-! ### The canonical form -/

theorem wf_congr {s t : State} (h : s.mem = t.mem) : Memory.wf s = Memory.wf t := by unfold Memory.wf; rw [h]

/-- A write keeps the canonical form. -/
theorem wf_writeByte (s : State) (k : Nat) (b : Byte) (h : Memory.wf s = true) : Memory.wf (s.writeByte k b) = true := by
  unfold Memory.wf
  rw [writeByte_mem]
  exact Tab.wf_set _ _ _ _ h

theorem wf_writeBytes (bs : List Byte) (s : State) (k : Nat) (h : Memory.wf s = true) : Memory.wf (s.writeBytes k bs) = true := by
  induction bs generalizing s k with
  | nil => exact h
  | cons b r ih => exact ih _ _ (wf_writeByte _ _ _ h)

/-- What keeps the canonical form at every step keeps it over a whole list. -/
theorem wf_foldl {α : Type} (f : State → α → State) (hf : ∀ s a, Memory.wf s = true → Memory.wf (f s a) = true) (l : List α) (s : State)
    (h : Memory.wf s = true) : Memory.wf (l.foldl f s) = true := by
  induction l generalizing s with
  | nil => exact h
  | cons a r ih => exact ih _ (hf _ _ h)

theorem mem_foldl {α : Type} (f : State → α → State) (hf : ∀ s a, (f s a).mem = s.mem) (l : List α) (s : State) :
    (l.foldl f s).mem = s.mem := by
  induction l generalizing s with
  | nil => rfl
  | cons a r ih => exact (ih _).trans (hf _ _)

/-- Entries that move stay canonical: only listed values, none of which is what an unlisted byte reads as, are listed anew. -/
theorem wf_moveTab (p q : Part) (unit : Nat) (mine stays : Nat → Bool) (t : Tab Byte) (h : Tab.wf 0#8 t = true) :
    Tab.wf 0#8 (moveTab p q unit mine stays t) = true := by
  unfold moveTab
  have hv : ∀ e ∈ t, e.2 ≠ 0#8 := by
    have := ((Tab.wf_iff 0#8 t).mp h).2
    intro e he
    exact this e he
  have key : ∀ (l : List (Nat × Byte)) (acc : Tab Byte), (∀ e ∈ l, e.2 ≠ 0#8) → Tab.wf 0#8 acc = true →
      Tab.wf 0#8 (l.foldl (fun (acc : Tab Byte) e => if mine (e.1 * unit / 2 ^ 37) then
        (p.moves q (e.1 * unit)).foldl (fun acc k => Tab.put acc (k / unit) e.2) acc else acc) acc) = true := by
    intro l
    induction l with
    | nil => intro acc _ ha; exact ha
    | cons e r ih =>
      intro acc hl ha
      refine ih _ (fun x hx => hl x (List.mem_cons_of_mem _ hx)) ?_
      dsimp only
      split
      · have he := hl e (List.mem_cons_self ..)
        clear ih
        generalize p.moves q (e.1 * unit) = ks
        induction ks generalizing acc with
        | nil => exact ha
        | cons k r' ih' => exact ih' _ (Tab.wf_put _ _ _ _ ha he)
      · exact ha
  exact key t _ hv (Tab.wf_filter _ _ _ h)

/-- A change of the range table keeps the canonical form. -/
theorem wf_relocate (s : State) (pn : Nat) (q : Part) (stays : Nat → Bool) (h : Memory.wf s = true) :
    Memory.wf (s.relocate pn q stays) = true := by
  unfold State.relocate Memory.wf
  dsimp only
  exact wf_moveTab (s.part pn) q 1 (fun sl => (s.part pn).slices.contains sl || q.slices.contains sl) stays s.mem h

/-! ### Operations that leave memory alone -/

@[simp] theorem noteAccess_mem (s : State) (a : Agent) (sp : Space) (lo n : Nat) (w : Bool) (o : Option (BitVec 2)) :
    (noteAccess s a sp lo n w o).mem = s.mem := rfl
@[simp] theorem publish_mem (s : State) (a : Agent) (sc : BitVec 2) (loc n : Nat) (v : VC) : (publish s a sc loc n v).mem = s.mem := rfl
@[simp] theorem releaseAt_mem (s : State) (a : Agent) (sc : BitVec 2) (loc n : Nat) : (releaseAt s a sc loc n).mem = s.mem := rfl
@[simp] theorem acquireAt_mem (s : State) (a : Agent) (sc : BitVec 2) (loc n : Nat) : (acquireAt s a sc loc n).mem = s.mem := rfl
@[simp] theorem seeAt_mem (s : State) (a : Agent) (loc n : Nat) : (seeAt s a loc n).mem = s.mem := rfl
@[simp] theorem overwriteAt_mem (s : State) (lo n : Nat) : (overwriteAt s lo n).mem = s.mem := rfl
@[simp] theorem fenceOrder_mem (s : State) (a : Agent) (sc : BitVec 2) : (fenceOrder s a sc).mem = s.mem := rfl
@[simp] theorem retireOrder_mem (s : State) (us : List Nat) (v : VC) : (retireOrder s us v).mem = s.mem := rfl
@[simp] theorem relaxedAt_mem (s : State) (a : Agent) (loc n : Nat) : (relaxedAt s a loc n).mem = s.mem := by
  unfold relaxedAt; apply mem_foldl; intro _ _; rfl
@[simp] theorem note_mem (s : State) (a : Acc1) (w : Bool) (o : Option (BitVec 2)) : (s.note a w o).mem = s.mem := by
  unfold State.note; split <;> rfl
@[simp] theorem flit_mem (s : State) (a : Acc1) : (s.flit a).mem = s.mem := by
  unfold State.flit; dsimp only; split <;> rfl
@[simp] theorem sliceIrq_mem (s : State) (sl : Nat) (i : Irq) : (s.sliceIrq sl i).mem = s.mem := by
  unfold State.sliceIrq; dsimp only; split
  · split <;> rfl
  · rfl
@[simp] theorem poisonLine_mem (s : State) (line : Nat) : (s.poisonLine line).mem = s.mem := by
  unfold State.poisonLine; dsimp only; split
  · rw [sliceIrq_mem]; rfl
  · rfl
/-- A request at a bank changes its stack's controller alone. -/
theorem activate_eq (s : State) (stk l cls : Nat) (hit : Bool) (r : Req) :
    s.activate stk l cls hit r = { s with stackTab := (s.activate stk l cls hit r).stackTab } := rfl
@[simp] theorem activate_mem (s : State) (stk l cls : Nat) (hit : Bool) (r : Req) : (s.activate stk l cls hit r).mem = s.mem := rfl
@[simp] theorem readHalves_mem (s : State) (line : Nat) (hs : List Nat) : (s.readHalves line hs).1.mem = s.mem := by
  unfold State.readHalves
  split
  · rfl
  · split
    · exact poisonLine_mem _ _
    · split <;> rfl
@[simp] theorem reachLine_mem (s : State) (key : Nat) (hs : List Nat) (unc : Bool) (cls : Nat) (r : Req) :
    (s.reachLine key hs unc cls r).1.mem = s.mem := by
  exact (readHalves_mem _ _ _).trans (activate_mem _ _ _ _ _ _)
@[simp] theorem coverHalves_mem (s : State) (key n : Nat) : (s.coverHalves key n).mem = s.mem := rfl
@[simp] theorem violate_mem (s : State) (sl kind unit : Nat) (wr : Bool) (pa : Nat) : (s.violate sl kind unit wr pa).mem = s.mem :=
  sliceIrq_mem _ _ _

@[simp] theorem abortBare_mem (s : State) (u : Nat) (m : Word) (code : Nat) (x : Nat → Nat) : (s.abortBare u m code x).mem = s.mem := by
  unfold State.abortBare; dsimp only; split <;> rfl
@[simp] theorem releaseToken_mem (s : State) (u : Nat) (m : Word) : (s.releaseToken u m).mem = s.mem := by
  have hd : ((lanesOf m).foldl (fun t l => t.dropToken (s.unit u).part u l) s).mem = s.mem := by
    apply mem_foldl; intro _ _; rfl
  unfold State.releaseToken
  split
  · rfl
  · dsimp only
    split
    · split
      · rw [abortBare_mem, modUni_mem]; exact hd
      · exact hd
    · exact hd
@[simp] theorem abortLanesBy_mem (s : State) (u : Nat) (m : Word) (code : Nat) (x : Nat → Nat) :
    (s.abortLanesBy u m code x).mem = s.mem := by
  unfold State.abortLanesBy; rw [releaseToken_mem, abortBare_mem]
@[simp] theorem abortLanes_mem (s : State) (u : Nat) (m : Word) (code x : Nat) : (s.abortLanes u m code x).mem = s.mem :=
  abortLanesBy_mem _ _ _ _ _
@[simp] theorem barrierCheck_mem (s : State) (tm : Nat) : (s.barrierCheck tm).mem = s.mem := by
  unfold State.barrierCheck
  dsimp only
  split
  · rfl
  · rw [modTeam_mem]; apply mem_foldl; intro _ _; rfl
@[simp] theorem modTile_mem (s : State) (tm t : Nat) (f : TileEnt → TileEnt) : (s.modTile tm t f).mem = s.mem := by
  unfold State.modTile
  dsimp only
  rw [mem_foldl, modTeam_mem]
  intro s a
  split
  · split <;> rfl
  · rfl
@[simp] theorem teamFree_mem (s : State) (tm : Nat) : (s.teamFree tm).mem = s.mem := by unfold State.teamFree; split <;> rfl
@[simp] theorem teamCheck_mem (s : State) (tm : Nat) : (s.teamCheck tm).mem = s.mem := by
  unfold State.teamCheck; dsimp only; split
  · rw [teamFree_mem]; rfl
  · rfl
@[simp] theorem deliverHeld_mem (s : State) (u : Nat) : (s.deliverHeld u).mem = s.mem := by
  unfold State.deliverHeld
  dsimp only
  rw [modUnit_mem, mem_foldl]
  intro s h
  split
  · rw [modTile_mem]; rfl
  · rfl
@[simp] theorem unitEnd_mem (s : State) (u r : Nat) : (s.unitEnd u r).mem = s.mem := by
  unfold State.unitEnd
  dsimp only
  split
  · split
    · simp
    · simp
  · rfl
@[simp] theorem stopUnit_mem (s : State) (u r : Nat) : (s.stopUnit u r).mem = s.mem := by
  unfold State.stopUnit
  dsimp only
  split
  · rw [unitEnd_mem, modLanes_mem]; apply mem_foldl; intro _ _; rfl
  · rfl
@[simp] theorem faultTeam_mem (s : State) (tm a b c d : Nat) (x : Word) (y : DWord) : (s.faultTeam tm a b c d x y).mem = s.mem := by
  unfold State.faultTeam
  dsimp only
  split
  · rw [raiseEvent_mem, mem_foldl _ (fun _ _ => stopUnit_mem _ _ _)]; rfl
  · rfl
@[simp] theorem fatal_mem (s : State) (u a b : Nat) (x : Word) (y : DWord) : (s.fatal u a b x y).mem = s.mem := by
  unfold State.fatal
  dsimp only
  split
  · rw [mem_foldl _ (fun _ _ => faultTeam_mem _ _ _ _ _ _ _ _), stopUnit_mem]
  · exact faultTeam_mem _ _ _ _ _ _ _ _

/-- Taking a trap leaves memory alone, fatal or not. -/
@[simp] theorem takeTrap_mem (s : State) (u l : Nat) (tpc : Word) (q : List Entry) (r : TrapRec) : (s.takeTrap u l tpc q r).mem = s.mem := by
  unfold State.takeTrap
  dsimp only
  split
  · rfl
  · split
    · exact fatal_mem _ _ _ _ _ _
    · split
      · exact fatal_mem _ _ _ _ _ _
      · rfl
@[simp] theorem raiseLanes_mem (s : State) (u : Nat) (m tpc : Word) (q : List Entry) (r : Nat → TrapRec) :
    (s.raiseLanes u m tpc q r).mem = s.mem := by
  unfold State.raiseLanes
  dsimp only
  rw [mem_foldl _ (fun _ _ => takeTrap_mem _ _ _ _ _ _), abortLanes_mem]

/-! ### Accesses -/

@[simp] theorem reach_mem (s : State) (a : Acc1) (hs : List Nat) : (s.reach a hs).1.mem = s.mem := reachLine_mem _ _ _ _ _ _
@[simp] theorem setPacked_mem (s : State) (line : Nat) (c : Bool) : (s.setPacked line c).mem = s.mem := rfl
@[simp] theorem flitAtomic_mem (s : State) (a : Acc1) (sc : BitVec 2) : (s.flitAtomic a sc).mem = s.mem := by
  unfold State.flitAtomic; split
  · rfl
  · exact flit_mem _ _

/-- What an access leaves where it has put its bytes. -/
theorem putBytes_mem (s : State) (a : Acc1) (bs : List Byte) : (s.putBytes a bs).mem = (s.writeBytes a.key bs).mem := rfl

theorem wf_putBytes (s : State) (a : Acc1) (bs : List Byte) (h : Memory.wf s = true) : Memory.wf (s.putBytes a bs) = true :=
  (wf_congr (putBytes_mem s a bs)).trans (wf_writeBytes _ _ _ h)

theorem wf_putEntry (s : State) (k v : Nat) (h : Memory.wf s = true) : Memory.wf (s.putEntry k v) = true := by
  unfold State.putEntry
  exact (wf_congr (setPacked_mem _ _ _)).trans (wf_writeBytes _ _ _ h)

@[simp] theorem loadAt_mem (s : State) (a : Acc1) (o : Option (BitVec 2)) : (s.loadAt a o).1.mem = s.mem := by
  unfold State.loadAt
  split
  · rfl
  · dsimp only
    split
    · rw [acquireAt_mem, note_mem]
    · split
      · exact note_mem _ _ _ _
      · exact note_mem _ _ _ _

/-- A load leaves memory as it was, whatever it comes to. -/
@[simp] theorem perfLoad_mem (s : State) (a : Acc1) (o : Option (BitVec 2)) : (s.perfLoad a o).1.mem = s.mem := by
  unfold State.perfLoad
  dsimp only
  split
  · exact reach_mem _ _ _
  · rw [loadAt_mem, reach_mem]

/-- What a store leaves in memory: the bytes it put over what was there. -/
theorem perfStore_ok (s : State) (a : Acc1) (bs : List Byte) (o : Option (BitVec 2)) (h : s.raceTest a true o = none) :
    ∃ t : State, t.mem = s.mem ∧ (s.perfStore a bs o).2 = .ok () ∧ (s.perfStore a bs o).1.mem = (t.writeBytes a.key bs).mem := by
  unfold State.perfStore
  rw [h]
  refine ⟨((((s.reach a (s.readFirst a.key a.len)).1).coverHalves a.key a.len).note a true o).flit a, ?_, rfl, ?_⟩
  · rw [flit_mem, note_mem, coverHalves_mem, reach_mem]
  · dsimp only
    cases o
    · rw [overwriteAt_mem, putBytes_mem]
    · rw [releaseAt_mem, putBytes_mem]

/-- A store that completes no race writes its bytes and nothing else. -/
theorem perfStore_mem (s : State) (a : Acc1) (bs : List Byte) (o : Option (BitVec 2)) (h : s.raceTest a true o = none) :
    (s.perfStore a bs o).2 = .ok () ∧ ∀ k, (s.perfStore a bs o).1.byte k = (s.writeBytes a.key bs).byte k := by
  obtain ⟨t, ht, h1, h2⟩ := perfStore_ok s a bs o h
  refine ⟨h1, fun k => ?_⟩
  rw [byte_congr h2, byte_writeBytes, byte_writeBytes, byte_congr ht]

/-- The canonical form is kept by every store, performed or not. -/
theorem wf_perfStore (s : State) (a : Acc1) (bs : List Byte) (o : Option (BitVec 2)) (h : Memory.wf s = true) :
    Memory.wf (s.perfStore a bs o).1 = true := by
  cases hr : s.raceTest a true o with
  | some x => unfold State.perfStore; rw [hr]; exact h
  | none =>
    obtain ⟨t, ht, -, h2⟩ := perfStore_ok s a bs o hr
    exact (wf_congr h2).trans (wf_writeBytes _ _ _ ((wf_congr ht).trans h))

@[simp] theorem crossing_mem (s : State) (sl key : Nat) : (s.crossing sl key).mem = s.mem := by
  unfold State.crossing
  split
  · rfl
  · split <;> rfl

theorem wf_setEntryBit (s : State) (sl k bit : Nat) (h : Memory.wf s = true) : Memory.wf (s.setEntryBit sl k bit) = true := by
  unfold State.setEntryBit
  dsimp only
  split
  · exact h
  · exact (wf_congr (crossing_mem _ _ _)).trans (wf_putEntry _ _ _ h)

theorem wf_setDirty (s : State) (sl : Nat) (x : Xlat) (h : Memory.wf s = true) : Memory.wf (s.setDirty sl x) = true := by
  unfold State.setDirty
  split
  · exact wf_setEntryBit _ _ _ _ h
  · exact h

/-! ### Sound lines (R282, R349) -/

/-- An activation touches neither poison nor the bad symbols. -/
theorem activate_poison (s : State) (stk l cls : Nat) (hit : Bool) (r : Req) :
    (s.activate stk l cls hit r).poison = s.poison ∧ (s.activate stk l cls hit r).ecc = s.ecc := ⟨rfl, rfl⟩

/-- A read of halves of a sound line finds no poison and poisons nothing. -/
theorem readHalves_sound (s : State) (key : Nat) (p : Nat → Bool) (h : lineSound s key = true) :
    ((s.readHalves (key / 128) ([0, 1].filter p)).2 == 2) = false ∧ (s.readHalves (key / 128) ([0, 1].filter p)).1.poison = s.poison := by
  simp only [lineSound, Bool.and_eq_true, Bool.not_eq_true', List.all_eq_true, decide_eq_true_eq] at h
  have hn : ([0, 1].filter p).any (fun h => decide (2 ≤ Tab.get 0 s.ecc (2 * (key / 128) + h))) = false := by
    simp only [List.any_eq_false, decide_eq_true_eq, Nat.not_le]
    exact fun x hx => h.2 x ((List.mem_filter.1 hx).1)
  unfold State.readHalves
  rw [if_neg (by simp [h.1]), if_neg (by rw [hn]; exact Bool.false_ne_true)]
  split <;> exact ⟨rfl, rfl⟩

theorem lineSound_activate (s : State) (key stk l cls : Nat) (hit : Bool) (r : Req) (h : lineSound s key = true) :
    lineSound (s.activate stk l cls hit r) key = true := by
  unfold lineSound State.poisoned at h ⊢
  rw [(activate_poison s stk l cls hit r).1, (activate_poison s stk l cls hit r).2]
  exact h

/-- Reaching a sound line poisons nothing. -/
theorem reachLine_poison (s : State) (key : Nat) (unc : Bool) (cls : Nat) (r : Req) (h : lineSound s key = true) :
    (s.reachLine key [0, 1] unc cls r).1.poison = s.poison :=
  (readHalves_sound (s.activate _ _ cls _ r) key _ (lineSound_activate s key _ _ cls _ r h)).2.trans (activate_poison ..).1

/-- On a line that is not poisoned an atomic finds the bytes that are there. -/
theorem oldBytes_sound (s : State) (k n : Nat) (h : s.poisoned (k / 128) = false) : s.oldBytes k n = s.bytes k n := by
  unfold State.oldBytes
  unfold State.poisoned at h
  cases hf : Tab.find? s.poison (k / 128) with
  | none => rfl
  | some m => rw [hf] at h; exact Bool.noConfusion h

/-- A sound line is not found poisoned. -/
theorem reachLine_sound (s : State) (key : Nat) (unc : Bool) (cls : Nat) (r : Req) (h : lineSound s key = true) :
    (s.reachLine key [0, 1] unc cls r).2 = false := by
  have hs := fun hit => lineSound_activate s key (key / 2 ^ 36) (key % 2 ^ 36) cls hit r h
  exact (readHalves_sound (s.activate _ _ cls _ r) key _ (hs _)).1

/-- A poisoned line is found poisoned. -/
theorem reachLine_poisoned (s : State) (key : Nat) (unc : Bool) (cls : Nat) (r : Req) (h : s.poisoned (key / 128) = true) :
    (s.reachLine key [0, 1] unc cls r).2 = true := by
  have hp : ∀ hit, (s.activate (key / 2 ^ 36) (key % 2 ^ 36) cls hit r).poisoned (key / 128) = true := fun hit => by
    unfold State.poisoned; rw [(activate_poison ..).1]; exact h
  simp only [State.reachLine, State.readHalves]
  rw [if_pos (hp _)]
  rfl

end Sys2Proof.Machine
end

