-- ==== Sys2Proof/Laws/PerInstr.lean ====
section
/-!
SUPPORT. Claims that are made per instruction: how many words an instruction has (R42, R43, R47). A word of the table has one to three, a
step of another agent none.
-/

namespace Sys2Proof

/-- A source adds one word at most (R47). -/
theorem lits_le (a : Src) : a.lits.length ≤ 1 := by cases a <;> simp [Src.lits]

/-- An instruction word has one to three words; a step of another agent has none. -/
def Laws.WordCount.Statement (i : Instr) : Prop := (encode i).length ≤ 3 ∧ (encode i ≠ [] ↔ i.isWord = true)

/-! The shapes of encodings. -/

theorem Laws.WordCount.none {i : Instr} (h : encode i = []) (k : i.isWord = false) : Laws.WordCount.Statement i := by
  simp [Laws.WordCount.Statement, h, k]

theorem Laws.WordCount.words1 {i : Instr} {w : Word} (h : encode i = [w]) (k : i.isWord = true) : Laws.WordCount.Statement i := by
  simp [Laws.WordCount.Statement, h, k]

theorem Laws.WordCount.words2 {i : Instr} {w l : Word} (h : encode i = [w, l]) (k : i.isWord = true) : Laws.WordCount.Statement i := by
  simp [Laws.WordCount.Statement, h, k]

theorem Laws.WordCount.words3 {i : Instr} {w l m : Word} (h : encode i = [w, l, m]) (k : i.isWord = true) :
    Laws.WordCount.Statement i := by
  simp [Laws.WordCount.Statement, h, k]

theorem Laws.WordCount.source {i : Instr} {w : Word} (a : Src) (h : encode i = w :: a.lits) (k : i.isWord = true) :
    Laws.WordCount.Statement i := by
  have := lits_le a
  refine ⟨?_, by simp [h, k]⟩
  rw [h, List.length_cons]
  omega

theorem Laws.WordCount.sources {i : Instr} {w : Word} (a b : Src) (h : encode i = w :: (a.lits ++ b.lits)) (k : i.isWord = true) :
    Laws.WordCount.Statement i := by
  have := lits_le a
  have := lits_le b
  refine ⟨?_, by simp [h, k]⟩
  rw [h, List.length_cons, List.length_append]
  omega

/-! The constructors. -/

theorem Laws.WordCount.nop (g : BitVec 3) : Laws.WordCount.Statement (.nop g) := Laws.WordCount.words1 rfl rfl
theorem Laws.WordCount.mov (g : BitVec 3) (d : Dest) (a : Src) : Laws.WordCount.Statement (.mov g d a) := Laws.WordCount.source a rfl rfl
theorem Laws.WordCount.vbc (g : BitVec 3) (d : Dest) (s : Fin 64) : Laws.WordCount.Statement (.vbc g d s) := Laws.WordCount.words1 rfl rfl
theorem Laws.WordCount.iadd (g : BitVec 3) (d : Dest) (a : Src) (b : Src) : Laws.WordCount.Statement (.iadd g d a b) := Laws.WordCount.sources a b rfl rfl
theorem Laws.WordCount.isub (g : BitVec 3) (d : Dest) (a : Src) (b : Src) : Laws.WordCount.Statement (.isub g d a b) := Laws.WordCount.sources a b rfl rfl
theorem Laws.WordCount.imul (g : BitVec 3) (d : Dest) (a : Src) (b : Src) : Laws.WordCount.Statement (.imul g d a b) := Laws.WordCount.sources a b rfl rfl
theorem Laws.WordCount.imulh (g : BitVec 3) (d : Dest) (a : Src) (b : Src) : Laws.WordCount.Statement (.imulh g d a b) := Laws.WordCount.sources a b rfl rfl
theorem Laws.WordCount.imulhu (g : BitVec 3) (d : Dest) (a : Src) (b : Src) : Laws.WordCount.Statement (.imulhu g d a b) := Laws.WordCount.sources a b rfl rfl
theorem Laws.WordCount.imac (g : BitVec 3) (d : Fin 120) (a : Src) (b : Src) : Laws.WordCount.Statement (.imac g d a b) := Laws.WordCount.sources a b rfl rfl
theorem Laws.WordCount.imin (g : BitVec 3) (d : Dest) (a : Src) (b : Src) : Laws.WordCount.Statement (.imin g d a b) := Laws.WordCount.sources a b rfl rfl
theorem Laws.WordCount.imax (g : BitVec 3) (d : Dest) (a : Src) (b : Src) : Laws.WordCount.Statement (.imax g d a b) := Laws.WordCount.sources a b rfl rfl
theorem Laws.WordCount.umin (g : BitVec 3) (d : Dest) (a : Src) (b : Src) : Laws.WordCount.Statement (.umin g d a b) := Laws.WordCount.sources a b rfl rfl
theorem Laws.WordCount.umax (g : BitVec 3) (d : Dest) (a : Src) (b : Src) : Laws.WordCount.Statement (.umax g d a b) := Laws.WordCount.sources a b rfl rfl
theorem Laws.WordCount.iabs (g : BitVec 3) (d : Dest) (a : Src) : Laws.WordCount.Statement (.iabs g d a) := Laws.WordCount.source a rfl rfl
theorem Laws.WordCount.andOp (g : BitVec 3) (d : Dest) (a : Src) (b : Src) : Laws.WordCount.Statement (.andOp g d a b) := Laws.WordCount.sources a b rfl rfl
theorem Laws.WordCount.orOp (g : BitVec 3) (d : Dest) (a : Src) (b : Src) : Laws.WordCount.Statement (.orOp g d a b) := Laws.WordCount.sources a b rfl rfl
theorem Laws.WordCount.xorOp (g : BitVec 3) (d : Dest) (a : Src) (b : Src) : Laws.WordCount.Statement (.xorOp g d a b) := Laws.WordCount.sources a b rfl rfl
theorem Laws.WordCount.andn (g : BitVec 3) (d : Dest) (a : Src) (b : Src) : Laws.WordCount.Statement (.andn g d a b) := Laws.WordCount.sources a b rfl rfl
theorem Laws.WordCount.shl (g : BitVec 3) (d : Dest) (a : Src) (b : Src) : Laws.WordCount.Statement (.shl g d a b) := Laws.WordCount.sources a b rfl rfl
theorem Laws.WordCount.shr (g : BitVec 3) (d : Dest) (a : Src) (b : Src) : Laws.WordCount.Statement (.shr g d a b) := Laws.WordCount.sources a b rfl rfl
theorem Laws.WordCount.sar (g : BitVec 3) (d : Dest) (a : Src) (b : Src) : Laws.WordCount.Statement (.sar g d a b) := Laws.WordCount.sources a b rfl rfl
theorem Laws.WordCount.clz (g : BitVec 3) (d : Dest) (a : Src) : Laws.WordCount.Statement (.clz g d a) := Laws.WordCount.source a rfl rfl
theorem Laws.WordCount.popc (g : BitVec 3) (d : Dest) (a : Src) : Laws.WordCount.Statement (.popc g d a) := Laws.WordCount.source a rfl rfl
theorem Laws.WordCount.brev (g : BitVec 3) (d : Dest) (a : Src) : Laws.WordCount.Statement (.brev g d a) := Laws.WordCount.source a rfl rfl
theorem Laws.WordCount.bfe (g : BitVec 3) (d : Dest) (a : Src) (b : Src) : Laws.WordCount.Statement (.bfe g d a b) := Laws.WordCount.sources a b rfl rfl
theorem Laws.WordCount.bfes (g : BitVec 3) (d : Dest) (a : Src) (b : Src) : Laws.WordCount.Statement (.bfes g d a b) := Laws.WordCount.sources a b rfl rfl
theorem Laws.WordCount.bfi (g : BitVec 3) (d : Fin 120) (a : Src) (b : Src) : Laws.WordCount.Statement (.bfi g d a b) := Laws.WordCount.sources a b rfl rfl
theorem Laws.WordCount.sel (g : BitVec 3) (d : Dest) (a : Src) (b : Src) : Laws.WordCount.Statement (.sel g d a b) := Laws.WordCount.sources a b rfl rfl
theorem Laws.WordCount.icmpeq (g : BitVec 3) (p : Fin 7) (a : Src) (b : Src) : Laws.WordCount.Statement (.icmpeq g p a b) := Laws.WordCount.sources a b rfl rfl
theorem Laws.WordCount.icmpne (g : BitVec 3) (p : Fin 7) (a : Src) (b : Src) : Laws.WordCount.Statement (.icmpne g p a b) := Laws.WordCount.sources a b rfl rfl
theorem Laws.WordCount.icmplt (g : BitVec 3) (p : Fin 7) (a : Src) (b : Src) : Laws.WordCount.Statement (.icmplt g p a b) := Laws.WordCount.sources a b rfl rfl
theorem Laws.WordCount.icmple (g : BitVec 3) (p : Fin 7) (a : Src) (b : Src) : Laws.WordCount.Statement (.icmple g p a b) := Laws.WordCount.sources a b rfl rfl
theorem Laws.WordCount.ucmplt (g : BitVec 3) (p : Fin 7) (a : Src) (b : Src) : Laws.WordCount.Statement (.ucmplt g p a b) := Laws.WordCount.sources a b rfl rfl
theorem Laws.WordCount.ucmple (g : BitVec 3) (p : Fin 7) (a : Src) (b : Src) : Laws.WordCount.Statement (.ucmple g p a b) := Laws.WordCount.sources a b rfl rfl
theorem Laws.WordCount.pand (g : BitVec 3) (p : Fin 7) (a : Fin 8) (b : Fin 8) : Laws.WordCount.Statement (.pand g p a b) := Laws.WordCount.words1 rfl rfl
theorem Laws.WordCount.por (g : BitVec 3) (p : Fin 7) (a : Fin 8) (b : Fin 8) : Laws.WordCount.Statement (.por g p a b) := Laws.WordCount.words1 rfl rfl
theorem Laws.WordCount.pxor (g : BitVec 3) (p : Fin 7) (a : Fin 8) (b : Fin 8) : Laws.WordCount.Statement (.pxor g p a b) := Laws.WordCount.words1 rfl rfl
theorem Laws.WordCount.pnot (g : BitVec 3) (p : Fin 7) (a : Fin 8) : Laws.WordCount.Statement (.pnot g p a) := Laws.WordCount.words1 rfl rfl
theorem Laws.WordCount.ptov (g : BitVec 3) (d : Dest) (a : Fin 8) : Laws.WordCount.Statement (.ptov g d a) := Laws.WordCount.words1 rfl rfl
theorem Laws.WordCount.vtop (g : BitVec 3) (p : Fin 7) (a : Src) : Laws.WordCount.Statement (.vtop g p a) := Laws.WordCount.source a rfl rfl
theorem Laws.WordCount.fadd (g : BitVec 3) (d : Dest) (a : Src) (b : Src) : Laws.WordCount.Statement (.fadd g d a b) := Laws.WordCount.sources a b rfl rfl
theorem Laws.WordCount.fsub (g : BitVec 3) (d : Dest) (a : Src) (b : Src) : Laws.WordCount.Statement (.fsub g d a b) := Laws.WordCount.sources a b rfl rfl
theorem Laws.WordCount.fmul (g : BitVec 3) (d : Dest) (a : Src) (b : Src) : Laws.WordCount.Statement (.fmul g d a b) := Laws.WordCount.sources a b rfl rfl
theorem Laws.WordCount.fmac (g : BitVec 3) (d : Fin 120) (a : Src) (b : Src) : Laws.WordCount.Statement (.fmac g d a b) := Laws.WordCount.sources a b rfl rfl
theorem Laws.WordCount.fmal (g : BitVec 3) (d : Dest) (a : Src) (b : Src) : Laws.WordCount.Statement (.fmal g d a b) := Laws.WordCount.sources a b rfl rfl
theorem Laws.WordCount.fmin (g : BitVec 3) (d : Dest) (a : Src) (b : Src) : Laws.WordCount.Statement (.fmin g d a b) := Laws.WordCount.sources a b rfl rfl
theorem Laws.WordCount.fmax (g : BitVec 3) (d : Dest) (a : Src) (b : Src) : Laws.WordCount.Statement (.fmax g d a b) := Laws.WordCount.sources a b rfl rfl
theorem Laws.WordCount.fscale (g : BitVec 3) (d : Dest) (a : Src) (b : Src) : Laws.WordCount.Statement (.fscale g d a b) := Laws.WordCount.sources a b rfl rfl
theorem Laws.WordCount.fcmpeq (g : BitVec 3) (p : Fin 7) (a : Src) (b : Src) : Laws.WordCount.Statement (.fcmpeq g p a b) := Laws.WordCount.sources a b rfl rfl
theorem Laws.WordCount.fcmplt (g : BitVec 3) (p : Fin 7) (a : Src) (b : Src) : Laws.WordCount.Statement (.fcmplt g p a b) := Laws.WordCount.sources a b rfl rfl
theorem Laws.WordCount.fcmple (g : BitVec 3) (p : Fin 7) (a : Src) (b : Src) : Laws.WordCount.Statement (.fcmple g p a b) := Laws.WordCount.sources a b rfl rfl
theorem Laws.WordCount.fcmpun (g : BitVec 3) (p : Fin 7) (a : Src) (b : Src) : Laws.WordCount.Statement (.fcmpun g p a b) := Laws.WordCount.sources a b rfl rfl
theorem Laws.WordCount.frcp (g : BitVec 3) (d : Dest) (a : Src) : Laws.WordCount.Statement (.frcp g d a) := Laws.WordCount.source a rfl rfl
theorem Laws.WordCount.frsq (g : BitVec 3) (d : Dest) (a : Src) : Laws.WordCount.Statement (.frsq g d a) := Laws.WordCount.source a rfl rfl
theorem Laws.WordCount.fsqrt (g : BitVec 3) (d : Dest) (a : Src) : Laws.WordCount.Statement (.fsqrt g d a) := Laws.WordCount.source a rfl rfl
theorem Laws.WordCount.fexp2 (g : BitVec 3) (d : Dest) (a : Src) : Laws.WordCount.Statement (.fexp2 g d a) := Laws.WordCount.source a rfl rfl
theorem Laws.WordCount.flog2 (g : BitVec 3) (d : Dest) (a : Src) : Laws.WordCount.Statement (.flog2 g d a) := Laws.WordCount.source a rfl rfl
theorem Laws.WordCount.fsinpi (g : BitVec 3) (d : Dest) (a : Src) : Laws.WordCount.Statement (.fsinpi g d a) := Laws.WordCount.source a rfl rfl
theorem Laws.WordCount.fcospi (g : BitVec 3) (d : Dest) (a : Src) : Laws.WordCount.Statement (.fcospi g d a) := Laws.WordCount.source a rfl rfl
theorem Laws.WordCount.ftanh (g : BitVec 3) (d : Dest) (a : Src) : Laws.WordCount.Statement (.ftanh g d a) := Laws.WordCount.source a rfl rfl
theorem Laws.WordCount.badd2 (g : BitVec 3) (d : Dest) (a : Src) (b : Src) : Laws.WordCount.Statement (.badd2 g d a b) := Laws.WordCount.sources a b rfl rfl
theorem Laws.WordCount.bmul2 (g : BitVec 3) (d : Dest) (a : Src) (b : Src) : Laws.WordCount.Statement (.bmul2 g d a b) := Laws.WordCount.sources a b rfl rfl
theorem Laws.WordCount.bmac2 (g : BitVec 3) (d : Fin 120) (a : Src) (b : Src) : Laws.WordCount.Statement (.bmac2 g d a b) := Laws.WordCount.sources a b rfl rfl
theorem Laws.WordCount.bmax2 (g : BitVec 3) (d : Dest) (a : Src) (b : Src) : Laws.WordCount.Statement (.bmax2 g d a b) := Laws.WordCount.sources a b rfl rfl
theorem Laws.WordCount.hadd2 (g : BitVec 3) (d : Dest) (a : Src) (b : Src) : Laws.WordCount.Statement (.hadd2 g d a b) := Laws.WordCount.sources a b rfl rfl
theorem Laws.WordCount.hmul2 (g : BitVec 3) (d : Dest) (a : Src) (b : Src) : Laws.WordCount.Statement (.hmul2 g d a b) := Laws.WordCount.sources a b rfl rfl
theorem Laws.WordCount.hmac2 (g : BitVec 3) (d : Fin 120) (a : Src) (b : Src) : Laws.WordCount.Statement (.hmac2 g d a b) := Laws.WordCount.sources a b rfl rfl
theorem Laws.WordCount.hmax2 (g : BitVec 3) (d : Dest) (a : Src) (b : Src) : Laws.WordCount.Statement (.hmax2 g d a b) := Laws.WordCount.sources a b rfl rfl
theorem Laws.WordCount.cvtfi (g : BitVec 3) (d : Dest) (a : Src) : Laws.WordCount.Statement (.cvtfi g d a) := Laws.WordCount.source a rfl rfl
theorem Laws.WordCount.cvtif (g : BitVec 3) (d : Dest) (a : Src) : Laws.WordCount.Statement (.cvtif g d a) := Laws.WordCount.source a rfl rfl
theorem Laws.WordCount.pkbf (g : BitVec 3) (d : Dest) (a : Src) (b : Src) : Laws.WordCount.Statement (.pkbf g d a b) := Laws.WordCount.sources a b rfl rfl
theorem Laws.WordCount.pkhf (g : BitVec 3) (d : Dest) (a : Src) (b : Src) : Laws.WordCount.Statement (.pkhf g d a b) := Laws.WordCount.sources a b rfl rfl
theorem Laws.WordCount.upklo (g : BitVec 3) (d : Dest) (a : Src) : Laws.WordCount.Statement (.upklo g d a) := Laws.WordCount.source a rfl rfl
theorem Laws.WordCount.upkhi (g : BitVec 3) (d : Dest) (a : Src) : Laws.WordCount.Statement (.upkhi g d a) := Laws.WordCount.source a rfl rfl
theorem Laws.WordCount.cvtn (g : BitVec 3) (d : Dest) (a : Src) (slot : Fin 8) (mode : BitVec 4) : Laws.WordCount.Statement (.cvtn g d a slot mode) := Laws.WordCount.source a rfl rfl
theorem Laws.WordCount.cvtw (g : BitVec 3) (d : Dest) (a : Src) (slot : Fin 8) (mode : BitVec 4) : Laws.WordCount.Statement (.cvtw g d a slot mode) := Laws.WordCount.source a rfl rfl
theorem Laws.WordCount.qscale (g : BitVec 3) (d : Dest) (a : Src) (slot : Fin 8) (mode : BitVec 4) : Laws.WordCount.Statement (.qscale g d a slot mode) := Laws.WordCount.source a rfl rfl
theorem Laws.WordCount.cvtsr (g : BitVec 3) (d : Dest) (a : Src) (b : Src) : Laws.WordCount.Statement (.cvtsr g d a b) := Laws.WordCount.sources a b rfl rfl
theorem Laws.WordCount.shfl (g : BitVec 3) (d : Dest) (a : Fin 120) (b : Src) : Laws.WordCount.Statement (.shfl g d a b) := Laws.WordCount.source b rfl rfl
theorem Laws.WordCount.lswap (g : BitVec 3) (d : Dest) (a : Fin 120) (b : Src) : Laws.WordCount.Statement (.lswap g d a b) := Laws.WordCount.source b rfl rfl
theorem Laws.WordCount.hswap (g : BitVec 3) (d : Dest) (a : Fin 120) (b : Src) : Laws.WordCount.Statement (.hswap g d a b) := Laws.WordCount.source b rfl rfl
theorem Laws.WordCount.ballot (g : BitVec 3) (d : Dest) (a : Fin 8) : Laws.WordCount.Statement (.ballot g d a) := Laws.WordCount.words1 rfl rfl
theorem Laws.WordCount.ldg8 (g : BitVec 3) (d : Dest) (a : Src) (bp : Fin 8) (hint : BitVec 2) (acq : Bool) : Laws.WordCount.Statement (.ldg8 g d a bp hint acq) := Laws.WordCount.source a rfl rfl
theorem Laws.WordCount.ldg16 (g : BitVec 3) (d : Dest) (a : Src) (bp : Fin 8) (hint : BitVec 2) (acq : Bool) : Laws.WordCount.Statement (.ldg16 g d a bp hint acq) := Laws.WordCount.source a rfl rfl
theorem Laws.WordCount.ldg32 (g : BitVec 3) (d : Dest) (a : Src) (bp : Fin 8) (hint : BitVec 2) (acq : Bool) : Laws.WordCount.Statement (.ldg32 g d a bp hint acq) := Laws.WordCount.source a rfl rfl
theorem Laws.WordCount.ldg64 (g : BitVec 3) (d : Fin 119) (a : Src) (bp : Fin 8) (hint : BitVec 2) (acq : Bool) : Laws.WordCount.Statement (.ldg64 g d a bp hint acq) := Laws.WordCount.source a rfl rfl
theorem Laws.WordCount.ldg128 (g : BitVec 3) (d : Fin 117) (a : Src) (bp : Fin 8) (hint : BitVec 2) (acq : Bool) : Laws.WordCount.Statement (.ldg128 g d a bp hint acq) := Laws.WordCount.source a rfl rfl
theorem Laws.WordCount.stg8 (g : BitVec 3) (d : Data) (a : Src) (bp : Fin 8) (hint : BitVec 2) (rel : Bool) : Laws.WordCount.Statement (.stg8 g d a bp hint rel) := Laws.WordCount.source a rfl rfl
theorem Laws.WordCount.stg16 (g : BitVec 3) (d : Data) (a : Src) (bp : Fin 8) (hint : BitVec 2) (rel : Bool) : Laws.WordCount.Statement (.stg16 g d a bp hint rel) := Laws.WordCount.source a rfl rfl
theorem Laws.WordCount.stg32 (g : BitVec 3) (d : Data) (a : Src) (bp : Fin 8) (hint : BitVec 2) (rel : Bool) : Laws.WordCount.Statement (.stg32 g d a bp hint rel) := Laws.WordCount.source a rfl rfl
theorem Laws.WordCount.stg64 (g : BitVec 3) (d : Fin 119) (a : Src) (bp : Fin 8) (hint : BitVec 2) (rel : Bool) : Laws.WordCount.Statement (.stg64 g d a bp hint rel) := Laws.WordCount.source a rfl rfl
theorem Laws.WordCount.stg128 (g : BitVec 3) (d : Fin 117) (a : Src) (bp : Fin 8) (hint : BitVec 2) (rel : Bool) : Laws.WordCount.Statement (.stg128 g d a bp hint rel) := Laws.WordCount.source a rfl rfl
theorem Laws.WordCount.ldl32 (g : BitVec 3) (d : Dest) (a : Src) (imm : BitVec 7) : Laws.WordCount.Statement (.ldl32 g d a imm) := Laws.WordCount.source a rfl rfl
theorem Laws.WordCount.ldl64 (g : BitVec 3) (d : Fin 119) (a : Src) (imm : BitVec 7) : Laws.WordCount.Statement (.ldl64 g d a imm) := Laws.WordCount.source a rfl rfl
theorem Laws.WordCount.ldl128 (g : BitVec 3) (d : Fin 117) (a : Src) (imm : BitVec 7) : Laws.WordCount.Statement (.ldl128 g d a imm) := Laws.WordCount.source a rfl rfl
theorem Laws.WordCount.stl32 (g : BitVec 3) (d : Data) (a : Src) (imm : BitVec 7) : Laws.WordCount.Statement (.stl32 g d a imm) := Laws.WordCount.source a rfl rfl
theorem Laws.WordCount.stl64 (g : BitVec 3) (d : Fin 119) (a : Src) (imm : BitVec 7) : Laws.WordCount.Statement (.stl64 g d a imm) := Laws.WordCount.source a rfl rfl
theorem Laws.WordCount.stl128 (g : BitVec 3) (d : Fin 117) (a : Src) (imm : BitVec 7) : Laws.WordCount.Statement (.stl128 g d a imm) := Laws.WordCount.source a rfl rfl
theorem Laws.WordCount.aadd (g : BitVec 3) (d : Fin 120) (a : Src) (bp : Fin 8) (scope : BitVec 2) (order : BitVec 2) : Laws.WordCount.Statement (.aadd g d a bp scope order) := Laws.WordCount.source a rfl rfl
theorem Laws.WordCount.aadd64 (g : BitVec 3) (d : Fin 119) (a : Src) (bp : Fin 8) (scope : BitVec 2) (order : BitVec 2) : Laws.WordCount.Statement (.aadd64 g d a bp scope order) := Laws.WordCount.source a rfl rfl
theorem Laws.WordCount.amin (g : BitVec 3) (d : Fin 120) (a : Src) (bp : Fin 8) (scope : BitVec 2) (order : BitVec 2) : Laws.WordCount.Statement (.amin g d a bp scope order) := Laws.WordCount.source a rfl rfl
theorem Laws.WordCount.amax (g : BitVec 3) (d : Fin 120) (a : Src) (bp : Fin 8) (scope : BitVec 2) (order : BitVec 2) : Laws.WordCount.Statement (.amax g d a bp scope order) := Laws.WordCount.source a rfl rfl
theorem Laws.WordCount.aand (g : BitVec 3) (d : Fin 120) (a : Src) (bp : Fin 8) (scope : BitVec 2) (order : BitVec 2) : Laws.WordCount.Statement (.aand g d a bp scope order) := Laws.WordCount.source a rfl rfl
theorem Laws.WordCount.aor (g : BitVec 3) (d : Fin 120) (a : Src) (bp : Fin 8) (scope : BitVec 2) (order : BitVec 2) : Laws.WordCount.Statement (.aor g d a bp scope order) := Laws.WordCount.source a rfl rfl
theorem Laws.WordCount.axchg (g : BitVec 3) (d : Fin 120) (a : Src) (bp : Fin 8) (scope : BitVec 2) (order : BitVec 2) : Laws.WordCount.Statement (.axchg g d a bp scope order) := Laws.WordCount.source a rfl rfl
theorem Laws.WordCount.acas (g : BitVec 3) (d : Fin 119) (a : Src) (bp : Fin 8) (scope : BitVec 2) (order : BitVec 2) : Laws.WordCount.Statement (.acas g d a bp scope order) := Laws.WordCount.source a rfl rfl
theorem Laws.WordCount.radd (g : BitVec 3) (d : Data) (a : Src) (bp : Fin 8) (scope : BitVec 2) (rel : Bool) : Laws.WordCount.Statement (.radd g d a bp scope rel) := Laws.WordCount.source a rfl rfl
theorem Laws.WordCount.raddf (g : BitVec 3) (d : Data) (a : Src) (bp : Fin 8) (scope : BitVec 2) (rel : Bool) : Laws.WordCount.Statement (.raddf g d a bp scope rel) := Laws.WordCount.source a rfl rfl
theorem Laws.WordCount.rmax (g : BitVec 3) (d : Data) (a : Src) (bp : Fin 8) (scope : BitVec 2) (rel : Bool) : Laws.WordCount.Statement (.rmax g d a bp scope rel) := Laws.WordCount.source a rfl rfl
theorem Laws.WordCount.drain (g : BitVec 3) (d : Fin 113) (acc : Bool) (cb : Fin 24) : Laws.WordCount.Statement (.drain g d acc cb) := Laws.WordCount.words1 rfl rfl
theorem Laws.WordCount.accw (g : BitVec 3) (d : Fin 113) (acc : Bool) (cb : Fin 24) : Laws.WordCount.Statement (.accw g d acc cb) := Laws.WordCount.words1 rfl rfl
theorem Laws.WordCount.bra (g : BitVec 3) (off : BitVec 21) : Laws.WordCount.Statement (.bra g off) := Laws.WordCount.words1 rfl rfl
theorem Laws.WordCount.call (g : BitVec 3) (off : BitVec 21) : Laws.WordCount.Statement (.call g off) := Laws.WordCount.words1 rfl rfl
theorem Laws.WordCount.ret (g : BitVec 3) : Laws.WordCount.Statement (.ret g) := Laws.WordCount.words1 rfl rfl
theorem Laws.WordCount.trapl (g : BitVec 3) (a : Src) : Laws.WordCount.Statement (.trapl g a) := Laws.WordCount.source a rfl rfl
theorem Laws.WordCount.rollb (g : BitVec 3) (a : Src) : Laws.WordCount.Statement (.rollb g a) := Laws.WordCount.source a rfl rfl
theorem Laws.WordCount.snop (q : BitVec 3) : Laws.WordCount.Statement (.snop q) := Laws.WordCount.words1 rfl rfl
theorem Laws.WordCount.smov (q : BitVec 3) (d : Fin 64) (a : Fin 64) : Laws.WordCount.Statement (.smov q d a) := Laws.WordCount.words1 rfl rfl
theorem Laws.WordCount.slit (q : BitVec 3) (d : Fin 64) (lit : Word) : Laws.WordCount.Statement (.slit q d lit) := Laws.WordCount.words2 rfl rfl
theorem Laws.WordCount.sadd (q : BitVec 3) (d : Fin 64) (a : Fin 64) (b : Fin 64) : Laws.WordCount.Statement (.sadd q d a b) := Laws.WordCount.words1 rfl rfl
theorem Laws.WordCount.ssub (q : BitVec 3) (d : Fin 64) (a : Fin 64) (b : Fin 64) : Laws.WordCount.Statement (.ssub q d a b) := Laws.WordCount.words1 rfl rfl
theorem Laws.WordCount.smul (q : BitVec 3) (d : Fin 64) (a : Fin 64) (b : Fin 64) : Laws.WordCount.Statement (.smul q d a b) := Laws.WordCount.words1 rfl rfl
theorem Laws.WordCount.smin (q : BitVec 3) (d : Fin 64) (a : Fin 64) (b : Fin 64) : Laws.WordCount.Statement (.smin q d a b) := Laws.WordCount.words1 rfl rfl
theorem Laws.WordCount.smax (q : BitVec 3) (d : Fin 64) (a : Fin 64) (b : Fin 64) : Laws.WordCount.Statement (.smax q d a b) := Laws.WordCount.words1 rfl rfl
theorem Laws.WordCount.sand (q : BitVec 3) (d : Fin 64) (a : Fin 64) (b : Fin 64) : Laws.WordCount.Statement (.sand q d a b) := Laws.WordCount.words1 rfl rfl
theorem Laws.WordCount.sor (q : BitVec 3) (d : Fin 64) (a : Fin 64) (b : Fin 64) : Laws.WordCount.Statement (.sor q d a b) := Laws.WordCount.words1 rfl rfl
theorem Laws.WordCount.sxor (q : BitVec 3) (d : Fin 64) (a : Fin 64) (b : Fin 64) : Laws.WordCount.Statement (.sxor q d a b) := Laws.WordCount.words1 rfl rfl
theorem Laws.WordCount.sshl (q : BitVec 3) (d : Fin 64) (a : Fin 64) (b : Fin 64) : Laws.WordCount.Statement (.sshl q d a b) := Laws.WordCount.words1 rfl rfl
theorem Laws.WordCount.sshr (q : BitVec 3) (d : Fin 64) (a : Fin 64) (b : Fin 64) : Laws.WordCount.Statement (.sshr q d a b) := Laws.WordCount.words1 rfl rfl
theorem Laws.WordCount.ssar (q : BitVec 3) (d : Fin 64) (a : Fin 64) (b : Fin 64) : Laws.WordCount.Statement (.ssar q d a b) := Laws.WordCount.words1 rfl rfl
theorem Laws.WordCount.saddi (q : BitVec 3) (d : Fin 64) (a : Fin 64) (imm : BitVec 9) : Laws.WordCount.Statement (.saddi q d a imm) := Laws.WordCount.words1 rfl rfl
theorem Laws.WordCount.sadd64 (q : BitVec 3) (d : Fin 32) (a : Fin 32) (b : Fin 32) : Laws.WordCount.Statement (.sadd64 q d a b) := Laws.WordCount.words1 rfl rfl
theorem Laws.WordCount.sbfe (q : BitVec 3) (d : Fin 64) (a : Fin 64) (b : Fin 64) : Laws.WordCount.Statement (.sbfe q d a b) := Laws.WordCount.words1 rfl rfl
theorem Laws.WordCount.sclz (q : BitVec 3) (d : Fin 64) (a : Fin 64) : Laws.WordCount.Statement (.sclz q d a) := Laws.WordCount.words1 rfl rfl
theorem Laws.WordCount.spopc (q : BitVec 3) (d : Fin 64) (a : Fin 64) : Laws.WordCount.Statement (.spopc q d a) := Laws.WordCount.words1 rfl rfl
theorem Laws.WordCount.scmpeq (q : BitVec 3) (d : Fin 8) (a : Fin 64) (b : Fin 64) : Laws.WordCount.Statement (.scmpeq q d a b) := Laws.WordCount.words1 rfl rfl
theorem Laws.WordCount.scmpne (q : BitVec 3) (d : Fin 8) (a : Fin 64) (b : Fin 64) : Laws.WordCount.Statement (.scmpne q d a b) := Laws.WordCount.words1 rfl rfl
theorem Laws.WordCount.scmplt (q : BitVec 3) (d : Fin 8) (a : Fin 64) (b : Fin 64) : Laws.WordCount.Statement (.scmplt q d a b) := Laws.WordCount.words1 rfl rfl
theorem Laws.WordCount.scmple (q : BitVec 3) (d : Fin 8) (a : Fin 64) (b : Fin 64) : Laws.WordCount.Statement (.scmple q d a b) := Laws.WordCount.words1 rfl rfl
theorem Laws.WordCount.scmpltu (q : BitVec 3) (d : Fin 8) (a : Fin 64) (b : Fin 64) : Laws.WordCount.Statement (.scmpltu q d a b) := Laws.WordCount.words1 rfl rfl
theorem Laws.WordCount.qop (q : BitVec 3) (f : QFun) (d : Fin 8) (a : Fin 8) (b : Fin 8) : Laws.WordCount.Statement (.qop q f d a b) := Laws.WordCount.words1 rfl rfl
theorem Laws.WordCount.ssel (q : BitVec 3) (d : Fin 64) (a : Fin 64) (b : Fin 64) (x : Fin 8) : Laws.WordCount.Statement (.ssel q d a b x) := Laws.WordCount.words1 rfl rfl
theorem Laws.WordCount.sfirst (q : BitVec 3) (d : Fin 64) : Laws.WordCount.Statement (.sfirst q d) := Laws.WordCount.words1 rfl rfl
theorem Laws.WordCount.vmask (q : BitVec 3) (d : Fin 64) : Laws.WordCount.Statement (.vmask q d) := Laws.WordCount.words1 rfl rfl
theorem Laws.WordCount.srd (q : BitVec 3) (d : Fin 64) (ix : Fin 40) : Laws.WordCount.Statement (.srd q d ix) := Laws.WordCount.words1 rfl rfl
theorem Laws.WordCount.swr (q : BitVec 3) (a : Fin 64) (ix : Fin 40) : Laws.WordCount.Statement (.swr q a ix) := Laws.WordCount.words1 rfl rfl
theorem Laws.WordCount.jmp (q : BitVec 3) (off : BitVec 21) : Laws.WordCount.Statement (.jmp q off) := Laws.WordCount.words1 rfl rfl
theorem Laws.WordCount.loop (q : BitVec 3) (d : Fin 64) (off : BitVec 15) : Laws.WordCount.Statement (.loop q d off) := Laws.WordCount.words1 rfl rfl
theorem Laws.WordCount.scall (q : BitVec 3) (off : BitVec 21) : Laws.WordCount.Statement (.scall q off) := Laws.WordCount.words1 rfl rfl
theorem Laws.WordCount.sret (q : BitVec 3) : Laws.WordCount.Statement (.sret q) := Laws.WordCount.words1 rfl rfl
theorem Laws.WordCount.jovl (q : BitVec 3) (bp : Fin 8) (b : Fin 64) : Laws.WordCount.Statement (.jovl q bp b) := Laws.WordCount.words1 rfl rfl
theorem Laws.WordCount.ovload (q : BitVec 3) (bp : Fin 8) (slot : Bool) : Laws.WordCount.Statement (.ovload q bp slot) := Laws.WordCount.words1 rfl rfl
theorem Laws.WordCount.yield (q : BitVec 3) : Laws.WordCount.Statement (.yield q) := Laws.WordCount.words1 rfl rfl
theorem Laws.WordCount.exit (q : BitVec 3) : Laws.WordCount.Statement (.exit q) := Laws.WordCount.words1 rfl rfl
theorem Laws.WordCount.trap (q : BitVec 3) (a : Fin 64) : Laws.WordCount.Statement (.trap q a) := Laws.WordCount.words1 rfl rfl
theorem Laws.WordCount.tret (q : BitVec 3) : Laws.WordCount.Statement (.tret q) := Laws.WordCount.words1 rfl rfl
theorem Laws.WordCount.tmask (q : BitVec 3) (m : Bool) : Laws.WordCount.Statement (.tmask q m) := Laws.WordCount.words1 rfl rfl
theorem Laws.WordCount.uint (q : BitVec 3) (a : Fin 64) (b : Fin 64) : Laws.WordCount.Statement (.uint q a b) := Laws.WordCount.words1 rfl rfl
theorem Laws.WordCount.uiret (q : BitVec 3) : Laws.WordCount.Statement (.uiret q) := Laws.WordCount.words1 rfl rfl
theorem Laws.WordCount.sysc (q : BitVec 3) (d : Fin 64) (a : Fin 64) (b : Fin 64) : Laws.WordCount.Statement (.sysc q d a b) := Laws.WordCount.words1 rfl rfl
theorem Laws.WordCount.sbrk (q : BitVec 3) : Laws.WordCount.Statement (.sbrk q) := Laws.WordCount.words1 rfl rfl
theorem Laws.WordCount.launch (q : BitVec 3) (bp : Fin 8) : Laws.WordCount.Statement (.launch q bp) := Laws.WordCount.words1 rfl rfl
theorem Laws.WordCount.regq (q : BitVec 3) (a : Fin 64) : Laws.WordCount.Statement (.regq q a) := Laws.WordCount.words1 rfl rfl
theorem Laws.WordCount.regpool (q : BitVec 3) (d : Fin 64) : Laws.WordCount.Statement (.regpool q d) := Laws.WordCount.words1 rfl rfl
theorem Laws.WordCount.sld (q : BitVec 3) (d : Fin 64) (scope : BitVec 2) (bp : Fin 8) (b : Option (Fin 64)) (ord : Bool) : Laws.WordCount.Statement (.sld q d scope bp b ord) := Laws.WordCount.words1 rfl rfl
theorem Laws.WordCount.sld64 (q : BitVec 3) (d : Fin 32) (scope : BitVec 2) (bp : Fin 8) (b : Option (Fin 64)) (ord : Bool) : Laws.WordCount.Statement (.sld64 q d scope bp b ord) := Laws.WordCount.words1 rfl rfl
theorem Laws.WordCount.sst (q : BitVec 3) (d : Fin 64) (scope : BitVec 2) (bp : Fin 8) (b : Option (Fin 64)) (ord : Bool) : Laws.WordCount.Statement (.sst q d scope bp b ord) := Laws.WordCount.words1 rfl rfl
theorem Laws.WordCount.sst64 (q : BitVec 3) (d : Fin 32) (scope : BitVec 2) (bp : Fin 8) (b : Option (Fin 64)) (ord : Bool) : Laws.WordCount.Statement (.sst64 q d scope bp b ord) := Laws.WordCount.words1 rfl rfl
theorem Laws.WordCount.saadd (q : BitVec 3) (d : Fin 64) (scope : BitVec 2) (bp : Fin 8) (b : Fin 64) (order : BitVec 2) : Laws.WordCount.Statement (.saadd q d scope bp b order) := Laws.WordCount.words1 rfl rfl
theorem Laws.WordCount.sacas (q : BitVec 3) (d : Fin 64) (scope : BitVec 2) (bp : Fin 8) (b : Fin 64) (order : BitVec 2) : Laws.WordCount.Statement (.sacas q d scope bp b order) := Laws.WordCount.words1 rfl rfl
theorem Laws.WordCount.pgreq (q : BitVec 3) (c : Fin 8) (r : Fin 8) (b : Fin 64) : Laws.WordCount.Statement (.pgreq q c r b) := Laws.WordCount.words1 rfl rfl
theorem Laws.WordCount.pgadv (q : BitVec 3) (k : Fin 4) (bp : Fin 8) (b : Fin 64) : Laws.WordCount.Statement (.pgadv q k bp b) := Laws.WordCount.words1 rfl rfl
theorem Laws.WordCount.palloc (q : BitVec 3) (d : Fin 8) (b : Fin 64) : Laws.WordCount.Statement (.palloc q d b) := Laws.WordCount.words1 rfl rfl
theorem Laws.WordCount.pfree (q : BitVec 3) (bp : Fin 8) : Laws.WordCount.Statement (.pfree q bp) := Laws.WordCount.words1 rfl rfl
theorem Laws.WordCount.cnew (q : BitVec 3) (d : Fin 8) (scope : BitVec 2) : Laws.WordCount.Statement (.cnew q d scope) := Laws.WordCount.words1 rfl rfl
theorem Laws.WordCount.cfree (q : BitVec 3) (bp : Fin 8) : Laws.WordCount.Statement (.cfree q bp) := Laws.WordCount.words1 rfl rfl
theorem Laws.WordCount.cadd (q : BitVec 3) (scope : BitVec 2) (bp : Fin 8) (b : CSrc) : Laws.WordCount.Statement (.cadd q scope bp b) := Laws.WordCount.words1 rfl rfl
theorem Laws.WordCount.caddr (q : BitVec 3) (scope : BitVec 2) (bp : Fin 8) (b : CSrc) : Laws.WordCount.Statement (.caddr q scope bp b) := Laws.WordCount.words1 rfl rfl
theorem Laws.WordCount.cread (q : BitVec 3) (d : Fin 32) (scope : BitVec 2) (bp : Fin 8) : Laws.WordCount.Statement (.cread q d scope bp) := Laws.WordCount.words1 rfl rfl
theorem Laws.WordCount.waitge (q : BitVec 3) (scope : BitVec 2) (bp : Fin 8) (b : CSrc) : Laws.WordCount.Statement (.waitge q scope bp b) := Laws.WordCount.words1 rfl rfl
theorem Laws.WordCount.waitto (q : BitVec 3) (t : Fin 64) (scope : BitVec 2) (bp : Fin 8) (b : CSrc) : Laws.WordCount.Statement (.waitto q t scope bp b) := Laws.WordCount.words1 rfl rfl
theorem Laws.WordCount.tbar (q : BitVec 3) : Laws.WordCount.Statement (.tbar q) := Laws.WordCount.words1 rfl rfl
theorem Laws.WordCount.fence (q : BitVec 3) (scope : BitVec 2) : Laws.WordCount.Statement (.fence q scope) := Laws.WordCount.words1 rfl rfl
theorem Laws.WordCount.fencex (q : BitVec 3) (scope : BitVec 2) (c1 : Fin 7) (c2 : Fin 7) : Laws.WordCount.Statement (.fencex q scope c1 c2) := Laws.WordCount.words1 rfl rfl
theorem Laws.WordCount.tryOp (q : BitVec 3) (off : BitVec 21) (spm : Word) : Laws.WordCount.Statement (.tryOp q off spm) := Laws.WordCount.words2 rfl rfl
theorem Laws.WordCount.commit (q : BitVec 3) : Laws.WordCount.Statement (.commit q) := Laws.WordCount.words1 rfl rfl
theorem Laws.WordCount.txopen (q : BitVec 3) (off : BitVec 21) : Laws.WordCount.Statement (.txopen q off) := Laws.WordCount.words1 rfl rfl
theorem Laws.WordCount.txclose (q : BitVec 3) : Laws.WordCount.Statement (.txclose q) := Laws.WordCount.words1 rfl rfl
theorem Laws.WordCount.txcancel (q : BitVec 3) (a : Fin 64) : Laws.WordCount.Statement (.txcancel q a) := Laws.WordCount.words1 rfl rfl
theorem Laws.WordCount.tiledef (q : BitVec 3) (t : Fin 64) (a : Fin 64) (b : Fin 64) : Laws.WordCount.Statement (.tiledef q t a b) := Laws.WordCount.words1 rfl rfl
theorem Laws.WordCount.tilerel (q : BitVec 3) (t : Fin 64) : Laws.WordCount.Statement (.tilerel q t) := Laws.WordCount.words1 rfl rfl
theorem Laws.WordCount.tstate (q : BitVec 3) (d : Fin 64) (t : Fin 64) : Laws.WordCount.Statement (.tstate q d t) := Laws.WordCount.words1 rfl rfl
theorem Laws.WordCount.metadef (q : BitVec 3) (t : Fin 64) (a : Fin 64) (b : Fin 64) : Laws.WordCount.Statement (.metadef q t a b) := Laws.WordCount.words1 rfl rfl
theorem Laws.WordCount.cpyin (q : BitVec 3) (t : Fin 64) (bp : Fin 8) (b : Fin 64) : Laws.WordCount.Statement (.cpyin q t bp b) := Laws.WordCount.words1 rfl rfl
theorem Laws.WordCount.cpyout (q : BitVec 3) (t : Fin 64) (bp : Fin 8) (b : Fin 64) : Laws.WordCount.Statement (.cpyout q t bp b) := Laws.WordCount.words1 rfl rfl
theorem Laws.WordCount.cpygg (q : BitVec 3) (d : Fin 8) (bp : Fin 8) (b : Fin 64) : Laws.WordCount.Statement (.cpygg q d bp b) := Laws.WordCount.words1 rfl rfl
theorem Laws.WordCount.gather (q : BitVec 3) (t : Fin 64) (bp : Fin 8) (b : Fin 64) : Laws.WordCount.Statement (.gather q t bp b) := Laws.WordCount.words1 rfl rfl
theorem Laws.WordCount.scatter (q : BitVec 3) (t : Fin 64) (bp : Fin 8) (b : Fin 64) : Laws.WordCount.Statement (.scatter q t bp b) := Laws.WordCount.words1 rfl rfl
theorem Laws.WordCount.coll (q : BitVec 3) (bp : Fin 8) (b : Fin 64) : Laws.WordCount.Statement (.coll q bp b) := Laws.WordCount.words1 rfl rfl
theorem Laws.WordCount.sealb (q : BitVec 3) (bp : Fin 8) (b : Fin 64) : Laws.WordCount.Statement (.sealb q bp b) := Laws.WordCount.words1 rfl rfl
theorem Laws.WordCount.sealu (q : BitVec 3) (bp : Fin 8) (b : Fin 64) : Laws.WordCount.Statement (.sealu q bp b) := Laws.WordCount.words1 rfl rfl
theorem Laws.WordCount.sealf (q : BitVec 3) (bp : Fin 8) : Laws.WordCount.Statement (.sealf q bp) := Laws.WordCount.words1 rfl rfl
theorem Laws.WordCount.ckpt (q : BitVec 3) (bp : Fin 8) : Laws.WordCount.Statement (.ckpt q bp) := Laws.WordCount.words1 rfl rfl
theorem Laws.WordCount.msel (q : BitVec 3) (core : Fin 4) (a : Fin 64) : Laws.WordCount.Statement (.msel q core a) := Laws.WordCount.words1 rfl rfl
theorem Laws.WordCount.mma (q : BitVec 3) (m : MmaOps) : Laws.WordCount.Statement (.mma q m) := Laws.WordCount.words1 rfl rfl
theorem Laws.WordCount.mmas (q : BitVec 3) (m : MmaOps) : Laws.WordCount.Statement (.mmas q m) := Laws.WordCount.words1 rfl rfl
theorem Laws.WordCount.mmag (q : BitVec 3) (m : MmaOps) : Laws.WordCount.Statement (.mmag q m) := Laws.WordCount.words1 rfl rfl
theorem Laws.WordCount.mscale (q : BitVec 3) (acc : Bool) (oct : Fin 15) (core : Fin 4) : Laws.WordCount.Statement (.mscale q acc oct core) := Laws.WordCount.words1 rfl rfl
theorem Laws.WordCount.mzero (q : BitVec 3) (acc : Bool) (core : Fin 4) : Laws.WordCount.Statement (.mzero q acc core) := Laws.WordCount.words1 rfl rfl
theorem Laws.WordCount.mrel (q : BitVec 3) (core : Fin 4) : Laws.WordCount.Statement (.mrel q core) := Laws.WordCount.words1 rfl rfl
theorem Laws.WordCount.mwait (q : BitVec 3) (core : Option (Fin 4)) : Laws.WordCount.Statement (.mwait q core) := Laws.WordCount.words1 rfl rfl
theorem Laws.WordCount.hint (q : BitVec 3) (k : BitVec 3) (bp : Fin 8) (b : Fin 64) : Laws.WordCount.Statement (.hint q k bp b) := Laws.WordCount.words1 rfl rfl
theorem Laws.WordCount.sfadd (q : BitVec 3) (d : Fin 64) (a : Fin 64) (b : Fin 64) : Laws.WordCount.Statement (.sfadd q d a b) := Laws.WordCount.words1 rfl rfl
theorem Laws.WordCount.sfmul (q : BitVec 3) (d : Fin 64) (a : Fin 64) (b : Fin 64) : Laws.WordCount.Statement (.sfmul q d a b) := Laws.WordCount.words1 rfl rfl
theorem Laws.WordCount.sfcmplt (q : BitVec 3) (d : Fin 8) (a : Fin 64) (b : Fin 64) : Laws.WordCount.Statement (.sfcmplt q d a b) := Laws.WordCount.words1 rfl rfl
theorem Laws.WordCount.scvtfi (q : BitVec 3) (d : Fin 64) (a : Fin 64) : Laws.WordCount.Statement (.scvtfi q d a) := Laws.WordCount.words1 rfl rfl
theorem Laws.WordCount.scvtif (q : BitVec 3) (d : Fin 64) (a : Fin 64) : Laws.WordCount.Statement (.scvtif q d a) := Laws.WordCount.words1 rfl rfl
theorem Laws.WordCount.sdivu (q : BitVec 3) (d : Fin 64) (a : Fin 64) (b : Fin 64) : Laws.WordCount.Statement (.sdivu q d a b) := Laws.WordCount.words1 rfl rfl
theorem Laws.WordCount.sremu (q : BitVec 3) (d : Fin 64) (a : Fin 64) (b : Fin 64) : Laws.WordCount.Statement (.sremu q d a b) := Laws.WordCount.words1 rfl rfl
theorem Laws.WordCount.qany (q : BitVec 3) (d : Fin 8) (a : Fin 8) : Laws.WordCount.Statement (.qany q d a) := Laws.WordCount.words1 rfl rfl
theorem Laws.WordCount.qall (q : BitVec 3) (d : Fin 8) (a : Fin 8) : Laws.WordCount.Statement (.qall q d a) := Laws.WordCount.words1 rfl rfl
theorem Laws.WordCount.pset (q : BitVec 3) (p : Fin 7) (a : Fin 8) : Laws.WordCount.Statement (.pset q p a) := Laws.WordCount.words1 rfl rfl
theorem Laws.WordCount.sleep (q : BitVec 3) (a : Fin 64) : Laws.WordCount.Statement (.sleep q a) := Laws.WordCount.words1 rfl rfl
theorem Laws.WordCount.slit64 (q : BitVec 3) (d : Fin 32) (lo : Word) (hi : Word) : Laws.WordCount.Statement (.slit64 q d lo hi) := Laws.WordCount.words3 rfl rfl
theorem Laws.WordCount.reservedOpcodeWord (gset : Bool) (op : BitVec 7) (g : BitVec 3) (rest : BitVec 21) : Laws.WordCount.Statement (.reservedOpcodeWord gset op g rest) := Laws.WordCount.words1 rfl rfl
theorem Laws.WordCount.fetchOutsideOverlay : Laws.WordCount.Statement .fetchOutsideOverlay := Laws.WordCount.none rfl rfl
theorem Laws.WordCount.loadDataReturn (u : Nat) (seq : Nat) (lanes : Word) : Laws.WordCount.Statement (.loadDataReturn u seq lanes) := Laws.WordCount.none rfl rfl
theorem Laws.WordCount.storePerformed (u : Nat) (seq : Nat) (lanes : Word) : Laws.WordCount.Statement (.storePerformed u seq lanes) := Laws.WordCount.none rfl rfl
theorem Laws.WordCount.trapEntry (u : Nat) (lane : Nat) : Laws.WordCount.Statement (.trapEntry u lane) := Laws.WordCount.none rfl rfl
theorem Laws.WordCount.waitSatisfied (u : Nat) (lane : Nat) : Laws.WordCount.Statement (.waitSatisfied u lane) := Laws.WordCount.none rfl rfl
theorem Laws.WordCount.waittoTimeout (u : Nat) (lane : Nat) : Laws.WordCount.Statement (.waittoTimeout u lane) := Laws.WordCount.none rfl rfl
theorem Laws.WordCount.sleepWake (u : Nat) (lane : Nat) : Laws.WordCount.Statement (.sleepWake u lane) := Laws.WordCount.none rfl rfl
theorem Laws.WordCount.regqGrant (team : Nat) : Laws.WordCount.Statement (.regqGrant team) := Laws.WordCount.none rfl rfl
theorem Laws.WordCount.regqRefuse (team : Nat) : Laws.WordCount.Statement (.regqRefuse team) := Laws.WordCount.none rfl rfl
theorem Laws.WordCount.matrixExecuteStart (slice : Nat) (core : Nat) : Laws.WordCount.Statement (.matrixExecuteStart slice core) := Laws.WordCount.none rfl rfl
theorem Laws.WordCount.matrixComplete (slice : Nat) (core : Nat) : Laws.WordCount.Statement (.matrixComplete slice core) := Laws.WordCount.none rfl rfl
theorem Laws.WordCount.engineCommandStart (cmd : Nat) : Laws.WordCount.Statement (.engineCommandStart cmd) := Laws.WordCount.none rfl rfl
theorem Laws.WordCount.engineCommandComplete (cmd : Nat) : Laws.WordCount.Statement (.engineCommandComplete cmd) := Laws.WordCount.none rfl rfl
theorem Laws.WordCount.engineCommandFault (cmd : Nat) : Laws.WordCount.Statement (.engineCommandFault cmd) := Laws.WordCount.none rfl rfl
theorem Laws.WordCount.overlaySlotCopy (u : Nat) : Laws.WordCount.Statement (.overlaySlotCopy u) := Laws.WordCount.none rfl rfl
theorem Laws.WordCount.overlayCopyDone (u : Nat) : Laws.WordCount.Statement (.overlayCopyDone u) := Laws.WordCount.none rfl rfl
theorem Laws.WordCount.uintDelivery (u : Nat) : Laws.WordCount.Statement (.uintDelivery u) := Laws.WordCount.none rfl rfl
theorem Laws.WordCount.watchdog (slice : Nat) (core : Nat) (slot : Nat) : Laws.WordCount.Statement (.watchdog slice core slot) := Laws.WordCount.none rfl rfl
theorem Laws.WordCount.warpAging (u : Nat) : Laws.WordCount.Statement (.warpAging u) := Laws.WordCount.none rfl rfl
theorem Laws.WordCount.syscReply (u : Nat) (reply : Word) (hart : Nat) : Laws.WordCount.Statement (.syscReply u reply hart) := Laws.WordCount.none rfl rfl
theorem Laws.WordCount.collAllReduce (cmd : Nat) (inputs : List Msg) : Laws.WordCount.Statement (.collAllReduce cmd inputs) := Laws.WordCount.none rfl rfl
theorem Laws.WordCount.collReduceScatter (cmd : Nat) (inputs : List Msg) : Laws.WordCount.Statement (.collReduceScatter cmd inputs) := Laws.WordCount.none rfl rfl
theorem Laws.WordCount.collAllGather (cmd : Nat) (inputs : List Msg) : Laws.WordCount.Statement (.collAllGather cmd inputs) := Laws.WordCount.none rfl rfl
theorem Laws.WordCount.collBroadcast (cmd : Nat) (inputs : List Msg) : Laws.WordCount.Statement (.collBroadcast cmd inputs) := Laws.WordCount.none rfl rfl
theorem Laws.WordCount.collPut (cmd : Nat) (acked : Bool) : Laws.WordCount.Statement (.collPut cmd acked) := Laws.WordCount.none rfl rfl
theorem Laws.WordCount.collGet (cmd : Nat) (inputs : List Msg) : Laws.WordCount.Statement (.collGet cmd inputs) := Laws.WordCount.none rfl rfl
theorem Laws.WordCount.collAllToAll (cmd : Nat) (inputs : List Msg) : Laws.WordCount.Statement (.collAllToAll cmd inputs) := Laws.WordCount.none rfl rfl
theorem Laws.WordCount.fabricRemoteAccess (slice : Nat) (acc : RemoteAccess) : Laws.WordCount.Statement (.fabricRemoteAccess slice acc) := Laws.WordCount.none rfl rfl
theorem Laws.WordCount.ckptSave (cmd : Nat) (reach : Bool) (readback : Nat) : Laws.WordCount.Statement (.ckptSave cmd reach readback) := Laws.WordCount.none rfl rfl
theorem Laws.WordCount.ckptRestore (cmd : Nat) (reach : Bool) : Laws.WordCount.Statement (.ckptRestore cmd reach) := Laws.WordCount.none rfl rfl
theorem Laws.WordCount.ckptPageCopy (cmd : Nat) (va : Nat) : Laws.WordCount.Statement (.ckptPageCopy cmd va) := Laws.WordCount.none rfl rfl
theorem Laws.WordCount.sealContextVoid (u : Nat) (reason : Nat) : Laws.WordCount.Statement (.sealContextVoid u reason) := Laws.WordCount.none rfl rfl
theorem Laws.WordCount.gridRetire (grid : Nat) : Laws.WordCount.Statement (.gridRetire grid) := Laws.WordCount.none rfl rfl
theorem Laws.WordCount.pgreqResidentAdd (part : Nat) (req : Nat) : Laws.WordCount.Statement (.pgreqResidentAdd part req) := Laws.WordCount.none rfl rfl
theorem Laws.WordCount.rangeEvict (part : Nat) (ctx : Nat) (va : Nat) (len : Nat) : Laws.WordCount.Statement (.rangeEvict part ctx va len) := Laws.WordCount.none rfl rfl
theorem Laws.WordCount.recordTake (part : Nat) (qid : Nat) : Laws.WordCount.Statement (.recordTake part qid) := Laws.WordCount.none rfl rfl
theorem Laws.WordCount.gridEligible (grid : Nat) : Laws.WordCount.Statement (.gridEligible grid) := Laws.WordCount.none rfl rfl
theorem Laws.WordCount.gridPlace (grid : Nat) : Laws.WordCount.Statement (.gridPlace grid) := Laws.WordCount.none rfl rfl
theorem Laws.WordCount.bindPlace (slice : Nat) (ix : Nat) : Laws.WordCount.Statement (.bindPlace slice ix) := Laws.WordCount.none rfl rfl
theorem Laws.WordCount.bindWithdraw (slice : Nat) (ix : Nat) : Laws.WordCount.Statement (.bindWithdraw slice ix) := Laws.WordCount.none rfl rfl
theorem Laws.WordCount.bindReturn (slice : Nat) (ix : Nat) : Laws.WordCount.Statement (.bindReturn slice ix) := Laws.WordCount.none rfl rfl
theorem Laws.WordCount.teamSave (team : Nat) : Laws.WordCount.Statement (.teamSave team) := Laws.WordCount.none rfl rfl
theorem Laws.WordCount.graceWindowEnd (u : Nat) : Laws.WordCount.Statement (.graceWindowEnd u) := Laws.WordCount.none rfl rfl
theorem Laws.WordCount.timeSliceExpiry (grid : Nat) : Laws.WordCount.Statement (.timeSliceExpiry grid) := Laws.WordCount.none rfl rfl
theorem Laws.WordCount.eventRecordWrite (part : Nat) : Laws.WordCount.Statement (.eventRecordWrite part) := Laws.WordCount.none rfl rfl
theorem Laws.WordCount.scRegisterQueue (slice : Nat) (value : BitVec 64) : Laws.WordCount.Statement (.scRegisterQueue slice value) := Laws.WordCount.none rfl rfl
theorem Laws.WordCount.scRemoveQueue (slice : Nat) (value : BitVec 64) : Laws.WordCount.Statement (.scRemoveQueue slice value) := Laws.WordCount.none rfl rfl
theorem Laws.WordCount.scSetEventRing (slice : Nat) (value : BitVec 64) : Laws.WordCount.Statement (.scSetEventRing slice value) := Laws.WordCount.none rfl rfl
theorem Laws.WordCount.tlbinvPage (slice : Nat) (value : BitVec 64) : Laws.WordCount.Statement (.tlbinvPage slice value) := Laws.WordCount.none rfl rfl
theorem Laws.WordCount.tlbinvContext (slice : Nat) (value : BitVec 64) : Laws.WordCount.Statement (.tlbinvContext slice value) := Laws.WordCount.none rfl rfl
theorem Laws.WordCount.tlbinvReload (slice : Nat) (value : BitVec 64) : Laws.WordCount.Statement (.tlbinvReload slice value) := Laws.WordCount.none rfl rfl
theorem Laws.WordCount.tlbinvAll (slice : Nat) (value : BitVec 64) : Laws.WordCount.Statement (.tlbinvAll slice value) := Laws.WordCount.none rfl rfl
theorem Laws.WordCount.tlbinvDone (part : Nat) : Laws.WordCount.Statement (.tlbinvDone part) := Laws.WordCount.none rfl rfl
theorem Laws.WordCount.sliceReset (slice : Nat) : Laws.WordCount.Statement (.sliceReset slice) := Laws.WordCount.none rfl rfl
theorem Laws.WordCount.functionReady (slice : Nat) (bit : Nat) : Laws.WordCount.Statement (.functionReady slice bit) := Laws.WordCount.none rfl rfl
theorem Laws.WordCount.firewallReleaseAll (slice : Nat) : Laws.WordCount.Statement (.firewallReleaseAll slice) := Laws.WordCount.none rfl rfl
theorem Laws.WordCount.actctlWrite (slice : Nat) (value : Word) : Laws.WordCount.Statement (.actctlWrite slice value) := Laws.WordCount.none rfl rfl
theorem Laws.WordCount.pmctlThaw (slice : Nat) (value : Word) : Laws.WordCount.Statement (.pmctlThaw slice value) := Laws.WordCount.none rfl rfl
theorem Laws.WordCount.addressRangeWrite (slice : Nat) (offset : Nat) (value : BitVec 64) : Laws.WordCount.Statement (.addressRangeWrite slice offset value) := Laws.WordCount.none rfl rfl
theorem Laws.WordCount.registerWrite (slice : Nat) (offset : Nat) (value : BitVec 64) : Laws.WordCount.Statement (.registerWrite slice offset value) := Laws.WordCount.none rfl rfl
theorem Laws.WordCount.progressWindowEnd (part : Nat) : Laws.WordCount.Statement (.progressWindowEnd part) := Laws.WordCount.none rfl rfl
theorem Laws.WordCount.debugHalt (u : Nat) : Laws.WordCount.Statement (.debugHalt u) := Laws.WordCount.none rfl rfl
theorem Laws.WordCount.debugResume (u : Nat) (lane : Nat) (skip : Bool) : Laws.WordCount.Statement (.debugResume u lane skip) := Laws.WordCount.none rfl rfl
theorem Laws.WordCount.partitionFuse (x0 : Nat) (x1 : Nat) (y0 : Nat) (y1 : Nat) (world : Bool) (ranges : List RangeWords) : Laws.WordCount.Statement (.partitionFuse x0 x1 y0 y1 world ranges) := Laws.WordCount.none rfl rfl
theorem Laws.WordCount.kernelBoot (part : Nat) (image : List Byte) (sigOk : Bool) : Laws.WordCount.Statement (.kernelBoot part image sigOk) := Laws.WordCount.none rfl rfl
theorem Laws.WordCount.partitionResize (part : Nat) (add : Bool) (edge : Edge) : Laws.WordCount.Statement (.partitionResize part add edge) := Laws.WordCount.none rfl rfl
theorem Laws.WordCount.resizeSliceStep (part : Nat) : Laws.WordCount.Statement (.resizeSliceStep part) := Laws.WordCount.none rfl rfl
theorem Laws.WordCount.partitionDissolve (part : Nat) : Laws.WordCount.Statement (.partitionDissolve part) := Laws.WordCount.none rfl rfl
theorem Laws.WordCount.scrubChunk (slice : Nat) : Laws.WordCount.Statement (.scrubChunk slice) := Laws.WordCount.none rfl rfl
theorem Laws.WordCount.powerOn : Laws.WordCount.Statement .powerOn := Laws.WordCount.none rfl rfl
theorem Laws.WordCount.powerFail : Laws.WordCount.Statement .powerFail := Laws.WordCount.none rfl rfl
theorem Laws.WordCount.getVersion (part : Nat) (req : List Byte) : Laws.WordCount.Statement (.getVersion part req) := Laws.WordCount.none rfl rfl
theorem Laws.WordCount.getCapabilities (part : Nat) (req : List Byte) : Laws.WordCount.Statement (.getCapabilities part req) := Laws.WordCount.none rfl rfl
theorem Laws.WordCount.negotiateAlgorithms (part : Nat) (req : List Byte) : Laws.WordCount.Statement (.negotiateAlgorithms part req) := Laws.WordCount.none rfl rfl
theorem Laws.WordCount.getDigests (part : Nat) (req : List Byte) : Laws.WordCount.Statement (.getDigests part req) := Laws.WordCount.none rfl rfl
theorem Laws.WordCount.getCertificate (part : Nat) (req : List Byte) : Laws.WordCount.Statement (.getCertificate part req) := Laws.WordCount.none rfl rfl
theorem Laws.WordCount.challenge (part : Nat) (req : List Byte) : Laws.WordCount.Statement (.challenge part req) := Laws.WordCount.none rfl rfl
theorem Laws.WordCount.getMeasurements (part : Nat) (req : List Byte) : Laws.WordCount.Statement (.getMeasurements part req) := Laws.WordCount.none rfl rfl
theorem Laws.WordCount.measurementExtend (part : Nat) (ix : Nat) (value : List Byte) : Laws.WordCount.Statement (.measurementExtend part ix value) := Laws.WordCount.none rfl rfl
theorem Laws.WordCount.rotFailover : Laws.WordCount.Statement .rotFailover := Laws.WordCount.none rfl rfl
theorem Laws.WordCount.packetSend (slice : Nat) (assoc : Nat) (payload : List Byte) : Laws.WordCount.Statement (.packetSend slice assoc payload) := Laws.WordCount.none rfl rfl
theorem Laws.WordCount.packetReceive (slice : Nat) (assoc : Nat) (counter : BitVec 64) (cipher : List Byte) : Laws.WordCount.Statement (.packetReceive slice assoc counter cipher) := Laws.WordCount.none rfl rfl
theorem Laws.WordCount.packetRetry (slice : Nat) (assoc : Nat) (counter : BitVec 64) : Laws.WordCount.Statement (.packetRetry slice assoc counter) := Laws.WordCount.none rfl rfl
theorem Laws.WordCount.rekey (slice : Nat) (assoc : Nat) : Laws.WordCount.Statement (.rekey slice assoc) := Laws.WordCount.none rfl rfl
theorem Laws.WordCount.rekeyReopen (slice : Nat) (assoc : Nat) (key : Nat) (salt : Word) : Laws.WordCount.Statement (.rekeyReopen slice assoc key salt) := Laws.WordCount.none rfl rfl
theorem Laws.WordCount.flashAccess (world : Bool) (addr : Nat) (write : Option (List Byte)) (len : Nat) : Laws.WordCount.Statement (.flashAccess world addr write len) := Laws.WordCount.none rfl rfl
theorem Laws.WordCount.stackRead (pkt : Packet) : Laws.WordCount.Statement (.stackRead pkt) := Laws.WordCount.none rfl rfl
theorem Laws.WordCount.stackWrite (pkt : Packet) : Laws.WordCount.Statement (.stackWrite pkt) := Laws.WordCount.none rfl rfl
theorem Laws.WordCount.stackAtomic (pkt : Packet) : Laws.WordCount.Statement (.stackAtomic pkt) := Laws.WordCount.none rfl rfl
theorem Laws.WordCount.stackZeroLine (pkt : Packet) : Laws.WordCount.Statement (.stackZeroLine pkt) := Laws.WordCount.none rfl rfl
theorem Laws.WordCount.refreshManagement (stack : Nat) (pch : Nat) (bank : Nat) : Laws.WordCount.Statement (.refreshManagement stack pch bank) := Laws.WordCount.none rfl rfl
theorem Laws.WordCount.bankBlockEnd (stack : Nat) (pch : Nat) (bank : Nat) : Laws.WordCount.Statement (.bankBlockEnd stack pch bank) := Laws.WordCount.none rfl rfl
theorem Laws.WordCount.refreshWindowEnd (stack : Nat) : Laws.WordCount.Statement (.refreshWindowEnd stack) := Laws.WordCount.none rfl rfl
theorem Laws.WordCount.patrolRead (stack : Nat) (line : Nat) : Laws.WordCount.Statement (.patrolRead stack line) := Laws.WordCount.none rfl rfl
theorem Laws.WordCount.hostAccess (part : Nat) (hart : Nat) (acc : HostAccess) : Laws.WordCount.Statement (.hostAccess part hart acc) := Laws.WordCount.none rfl rfl
theorem Laws.WordCount.childQueueTake (slice : Nat) : Laws.WordCount.Statement (.childQueueTake slice) := Laws.WordCount.none rfl rfl
theorem Laws.WordCount.peerUnreachable (slice : Nat) (assoc : Nat) : Laws.WordCount.Statement (.peerUnreachable slice assoc) := Laws.WordCount.none rfl rfl
theorem Laws.WordCount.keyHandleIssue (part : Nat) (cls : BitVec 2) (destroy : Option Nat) : Laws.WordCount.Statement (.keyHandleIssue part cls destroy) := Laws.WordCount.none rfl rfl
theorem Laws.WordCount.rotReset : Laws.WordCount.Statement .rotReset := Laws.WordCount.none rfl rfl
theorem Laws.WordCount.gridEndByKernel (grid : Nat) : Laws.WordCount.Statement (.gridEndByKernel grid) := Laws.WordCount.none rfl rfl

end Sys2Proof
end

