-- ==== Sys2Proof/Tests/Slice0.lean ====
section
/-!
SUPPORT. The model's own tests: what the checks refuse, words of the spec's encodings, single steps with results worked out from
the spec, and for every statement with hypotheses a state and operands that meet them, clause by clause.
-/

namespace Sys2Proof.Tests

set_option Elab.async false

open Sys2Proof Sys2Proof.Machine

/-! ### What the checks refuse (R44, R45, R49, R52 to R59) -/

/-- R49, R54 to R59: two literals, a bit of TRY's literal above octet 14, a second source of QOP.not, and a reserved opcode that is
not reserved. -/
theorem test_wf_refuses :
    (Instr.iadd 7#3 .discard (.lit 0#32) (.lit 0#32)).wf = false ∧ (Instr.fmac 7#3 1 (.lit 0#32) (.lit 1#32)).wf = false ∧
    (Instr.icmpeq 7#3 0 (.lit 0#32) (.lit 0#32)).wf = false ∧ (Instr.cvtsr 7#3 .discard (.lit 0#32) (.lit 0#32)).wf = false ∧
    (Instr.tryOp 7#3 0#21 0x00008000#32).wf = false ∧ (Instr.tryOp 7#3 0#21 0x40000000#32).wf = false ∧
    (Instr.qop 7#3 .not 0 0 1).wf = false ∧ (Instr.reservedOpcodeWord false 0x73#7 7#3 0#21).wf = false ∧
    (Instr.reservedOpcodeWord true 0x6B#7 7#3 0#21).wf = false := by decide +kernel

/-- Why the decoder refuses words. -/
def why (ws : List Word) : Option Reject := match decode ws with
  | .error e => some e
  | .ok _ => none

/-- The decoder refuses by name: a destination TID, a must-be-zero field, an odd pair, QOP function 5, a SRD index past the table, a
must-be-0 order of an atomic reduction, FENCEX class 7, PGADV kind 4, octet 15, a store whose data field is LIT, and an instruction
whose literal is missing. -/
theorem test_decode_refuses :
    ([0x03FF4000#32, 0x01E00001#32, 0x8FE08000#32, 0x98E00005#32, 0x9CE00028#32, 0x6AE00001#32, 0xC3E001C0#32, 0xB7E00004#32,
      0xDBE0003C#32, 0x59FF8000#32].all fun w => why [w, 0#32] == some .illegalField) = true ∧
    why [0x82E00000#32] = some .literalMissing ∧ why [0xEBE00000#32, 1#32] = some .literalMissing ∧ why [] = some .noWord ∧
    (decode [0x74E00005#32]).toOption = some (.reservedOpcodeWord false 0x74#7 7#3 5#21) ∧
    (decode [0xECE00000#32]).toOption = some (.reservedOpcodeWord true 0x6C#7 7#3 0#21) := by decide +kernel

/-! ### Decoding (R42 to R48, R54, R55, R57, R58) -/

/-- R42 to R45, R54, R55, R57, R58: arithmetic, moves and bit words, one word for each, every field at a value of its own. -/
def words_integer : List (List Word × Instr) := [
  ([0x00A00000#32], .nop 5#3), ([0x01A47E80#32], .mov 5#3 (.reg 17) .tid), ([0x02BF003D#32], .vbc 5#3 .discard 61),
  ([0x03BDD0FE#32, 0x89ABCDEF#32], .iadd 5#3 (.reg 119) (.reg 33) (.lit 0x89ABCDEF#32)),
  ([0x04BDD0FE#32, 0x89ABCDEF#32], .isub 5#3 (.reg 119) (.reg 33) (.lit 0x89ABCDEF#32)),
  ([0x05BDD0FE#32, 0x89ABCDEF#32], .imul 5#3 (.reg 119) (.reg 33) (.lit 0x89ABCDEF#32)),
  ([0x06BDD0FE#32, 0x89ABCDEF#32], .imulh 5#3 (.reg 119) (.reg 33) (.lit 0x89ABCDEF#32)),
  ([0x07BDD0FE#32, 0x89ABCDEF#32], .imulhu 5#3 (.reg 119) (.reg 33) (.lit 0x89ABCDEF#32)),
  ([0x08A501FB#32], .imac 5#3 20 (.reg 3) (.latch 3)),
  ([0x09BDD0FE#32, 0x89ABCDEF#32], .imin 5#3 (.reg 119) (.reg 33) (.lit 0x89ABCDEF#32)),
  ([0x0ABDD0FE#32, 0x89ABCDEF#32], .imax 5#3 (.reg 119) (.reg 33) (.lit 0x89ABCDEF#32)),
  ([0x0BBDD0FE#32, 0x89ABCDEF#32], .umin 5#3 (.reg 119) (.reg 33) (.lit 0x89ABCDEF#32)),
  ([0x0CBDD0FE#32, 0x89ABCDEF#32], .umax 5#3 (.reg 119) (.reg 33) (.lit 0x89ABCDEF#32)),
  ([0x0DA47E80#32], .iabs 5#3 (.reg 17) .tid),
  ([0x0EBDD0FE#32, 0x89ABCDEF#32], .andOp 5#3 (.reg 119) (.reg 33) (.lit 0x89ABCDEF#32)),
  ([0x0FBDD0FE#32, 0x89ABCDEF#32], .orOp 5#3 (.reg 119) (.reg 33) (.lit 0x89ABCDEF#32)),
  ([0x10BDD0FE#32, 0x89ABCDEF#32], .xorOp 5#3 (.reg 119) (.reg 33) (.lit 0x89ABCDEF#32)),
  ([0x11BDD0FE#32, 0x89ABCDEF#32], .andn 5#3 (.reg 119) (.reg 33) (.lit 0x89ABCDEF#32)),
  ([0x12BDD0FE#32, 0x89ABCDEF#32], .shl 5#3 (.reg 119) (.reg 33) (.lit 0x89ABCDEF#32)),
  ([0x13BDD0FE#32, 0x89ABCDEF#32], .shr 5#3 (.reg 119) (.reg 33) (.lit 0x89ABCDEF#32)),
  ([0x14BDD0FE#32, 0x89ABCDEF#32], .sar 5#3 (.reg 119) (.reg 33) (.lit 0x89ABCDEF#32)),
  ([0x15A47E80#32], .clz 5#3 (.reg 17) .tid), ([0x16A47E80#32], .popc 5#3 (.reg 17) .tid),
  ([0x17A47E80#32], .brev 5#3 (.reg 17) .tid),
  ([0x18BDD0FE#32, 0x89ABCDEF#32], .bfe 5#3 (.reg 119) (.reg 33) (.lit 0x89ABCDEF#32)),
  ([0x19BDD0FE#32, 0x89ABCDEF#32], .bfes 5#3 (.reg 119) (.reg 33) (.lit 0x89ABCDEF#32)),
  ([0x1AA501FB#32], .bfi 5#3 20 (.reg 3) (.latch 3)),
  ([0x1BBDD0FE#32, 0x89ABCDEF#32], .sel 5#3 (.reg 119) (.reg 33) (.lit 0x89ABCDEF#32))]

theorem test_decode_integer : words_integer.all (fun p => (decode p.1).toOption == some p.2 && encode p.2 == p.1) = true := by decide +kernel

/-- R42 to R45, R54, R55, R57, R58: compares and predicates, one word for each, every field at a value of its own. -/
def words_compare : List (List Word × Instr) := [
  ([0x1CA1BE7F#32], .icmpeq 5#3 6 .zero .abc), ([0x1DA1BE7F#32], .icmpne 5#3 6 .zero .abc),
  ([0x1EA1BE7F#32], .icmplt 5#3 6 .zero .abc), ([0x1FA1BE7F#32], .icmple 5#3 6 .zero .abc),
  ([0x20A1BE7F#32], .ucmplt 5#3 6 .zero .abc), ([0x21A1BE7F#32], .ucmple 5#3 6 .zero .abc), ([0x22A14382#32], .pand 5#3 5 7 2),
  ([0x23A14382#32], .por 5#3 5 7 2), ([0x24A14382#32], .pxor 5#3 5 7 2), ([0x25A10380#32], .pnot 5#3 4 7),
  ([0x26A48300#32], .ptov 5#3 (.reg 18) 6), ([0x27A0FC00#32], .vtop 5#3 3 (.latch 0))]

theorem test_decode_compare : words_compare.all (fun p => (decode p.1).toOption == some p.2 && encode p.2 == p.1) = true := by decide +kernel

/-- R42 to R45, R54, R55, R57, R58: float, function and packed words, one word for each, every field at a value of its own. -/
def words_float : List (List Word × Instr) := [
  ([0x28BDD0FE#32, 0x89ABCDEF#32], .fadd 5#3 (.reg 119) (.reg 33) (.lit 0x89ABCDEF#32)),
  ([0x29BDD0FE#32, 0x89ABCDEF#32], .fsub 5#3 (.reg 119) (.reg 33) (.lit 0x89ABCDEF#32)),
  ([0x2ABDD0FE#32, 0x89ABCDEF#32], .fmul 5#3 (.reg 119) (.reg 33) (.lit 0x89ABCDEF#32)),
  ([0x2BA501FB#32], .fmac 5#3 20 (.reg 3) (.latch 3)),
  ([0x2CBDD0FE#32, 0x89ABCDEF#32], .fmal 5#3 (.reg 119) (.reg 33) (.lit 0x89ABCDEF#32)),
  ([0x2DBDD0FE#32, 0x89ABCDEF#32], .fmin 5#3 (.reg 119) (.reg 33) (.lit 0x89ABCDEF#32)),
  ([0x2EBDD0FE#32, 0x89ABCDEF#32], .fmax 5#3 (.reg 119) (.reg 33) (.lit 0x89ABCDEF#32)),
  ([0x2FBDD0FE#32, 0x89ABCDEF#32], .fscale 5#3 (.reg 119) (.reg 33) (.lit 0x89ABCDEF#32)),
  ([0x30A1BE7F#32], .fcmpeq 5#3 6 .zero .abc), ([0x31A1BE7F#32], .fcmplt 5#3 6 .zero .abc),
  ([0x32A1BE7F#32], .fcmple 5#3 6 .zero .abc), ([0x33A1BE7F#32], .fcmpun 5#3 6 .zero .abc),
  ([0x34A47E80#32], .frcp 5#3 (.reg 17) .tid), ([0x35A47E80#32], .frsq 5#3 (.reg 17) .tid),
  ([0x36A47E80#32], .fsqrt 5#3 (.reg 17) .tid), ([0x37A47E80#32], .fexp2 5#3 (.reg 17) .tid),
  ([0x38A47E80#32], .flog2 5#3 (.reg 17) .tid), ([0x39A47E80#32], .fsinpi 5#3 (.reg 17) .tid),
  ([0x3AA47E80#32], .fcospi 5#3 (.reg 17) .tid), ([0x3BA47E80#32], .ftanh 5#3 (.reg 17) .tid),
  ([0x3CBDD0FE#32, 0x89ABCDEF#32], .badd2 5#3 (.reg 119) (.reg 33) (.lit 0x89ABCDEF#32)),
  ([0x3DBDD0FE#32, 0x89ABCDEF#32], .bmul2 5#3 (.reg 119) (.reg 33) (.lit 0x89ABCDEF#32)),
  ([0x3EA501FB#32], .bmac2 5#3 20 (.reg 3) (.latch 3)),
  ([0x3FBDD0FE#32, 0x89ABCDEF#32], .bmax2 5#3 (.reg 119) (.reg 33) (.lit 0x89ABCDEF#32)),
  ([0x40BDD0FE#32, 0x89ABCDEF#32], .hadd2 5#3 (.reg 119) (.reg 33) (.lit 0x89ABCDEF#32)),
  ([0x41BDD0FE#32, 0x89ABCDEF#32], .hmul2 5#3 (.reg 119) (.reg 33) (.lit 0x89ABCDEF#32)),
  ([0x42A501FB#32], .hmac2 5#3 20 (.reg 3) (.latch 3)),
  ([0x43BDD0FE#32, 0x89ABCDEF#32], .hmax2 5#3 (.reg 119) (.reg 33) (.lit 0x89ABCDEF#32))]

theorem test_decode_float : words_float.all (fun p => (decode p.1).toOption == some p.2 && encode p.2 == p.1) = true := by decide +kernel

/-- R42 to R45, R54, R55, R57, R58: conversions and lane exchanges, one word for each, every field at a value of its own. -/
def words_convert : List (List Word × Instr) := [
  ([0x44A47E80#32], .cvtfi 5#3 (.reg 17) .tid), ([0x45A47E80#32], .cvtif 5#3 (.reg 17) .tid),
  ([0x46BDD0FE#32, 0x89ABCDEF#32], .pkbf 5#3 (.reg 119) (.reg 33) (.lit 0x89ABCDEF#32)),
  ([0x47BDD0FE#32, 0x89ABCDEF#32], .pkhf 5#3 (.reg 119) (.reg 33) (.lit 0x89ABCDEF#32)),
  ([0x48A47E80#32], .upklo 5#3 (.reg 17) .tid), ([0x49A47E80#32], .upkhi 5#3 (.reg 17) .tid),
  ([0x4AA2546B#32], .cvtn 5#3 (.reg 9) (.reg 40) 6 11#4), ([0x4BA2546B#32], .cvtw 5#3 (.reg 9) (.reg 40) 6 11#4),
  ([0x4CA2546B#32], .qscale 5#3 (.reg 9) (.reg 40) 6 11#4),
  ([0x4DBDD0FE#32, 0x89ABCDEF#32], .cvtsr 5#3 (.reg 119) (.reg 33) (.lit 0x89ABCDEF#32)),
  ([0x4EBF067A#32], .shfl 5#3 .discard 12 (.latch 2)), ([0x4FBF067A#32], .lswap 5#3 .discard 12 (.latch 2)),
  ([0x50BF067A#32], .hswap 5#3 .discard 12 (.latch 2)), ([0x51A48300#32], .ballot 5#3 (.reg 18) 6)]

theorem test_decode_convert : words_convert.all (fun p => (decode p.1).toOption == some p.2 && encode p.2 == p.1) = true := by decide +kernel

/-- R42 to R45, R54, R55, R57, R58: memory words of the L-set, one word for each, every field at a value of its own. -/
def words_lanemem : List (List Word × Instr) := [
  ([0x52A24039#32], .ldg8 5#3 (.reg 9) (.reg 0) 3 2#2 true), ([0x53A24039#32], .ldg16 5#3 (.reg 9) (.reg 0) 3 2#2 true),
  ([0x54A24039#32], .ldg32 5#3 (.reg 9) (.reg 0) 3 2#2 true), ([0x55BDBCC4#32], .ldg64 5#3 118 (.latch 1) 4 1#2 false),
  ([0x56BD3E7D#32], .ldg128 5#3 116 .zero 7 3#2 true), ([0x57BF02E2#32], .stg8 5#3 .zero (.reg 5) 6 0#2 true),
  ([0x58BF02E2#32], .stg16 5#3 .zero (.reg 5) 6 0#2 true), ([0x59BF02E2#32], .stg32 5#3 .zero (.reg 5) 6 0#2 true),
  ([0x5ABD8358#32], .stg64 5#3 118 (.reg 6) 5 2#2 false), ([0x5BBD0396#32], .stg128 5#3 116 (.reg 7) 1 1#2 true),
  ([0x5CA23EFF#32], .ldl32 5#3 (.reg 8) .tid 127#7), ([0x5DBD8140#32], .ldl64 5#3 118 (.reg 2) 64#7),
  ([0x5EBD0181#32], .ldl128 5#3 116 (.reg 3) 1#7), ([0x5FBE0221#32], .stl32 5#3 (.latch 0) (.reg 4) 33#7),
  ([0x60BD8282#32], .stl64 5#3 118 (.reg 5) 2#7), ([0x61BD037E#32], .stl128 5#3 116 (.reg 6) 126#7),
  ([0x62BDC0AD#32], .aadd 5#3 119 (.reg 1) 2 3#2 1#2), ([0x63BD8132#32], .aadd64 5#3 118 (.reg 2) 3 0#2 2#2),
  ([0x64BDC0AD#32], .amin 5#3 119 (.reg 1) 2 3#2 1#2), ([0x65BDC0AD#32], .amax 5#3 119 (.reg 1) 2 3#2 1#2),
  ([0x66BDC0AD#32], .aand 5#3 119 (.reg 1) 2 3#2 1#2), ([0x67BDC0AD#32], .aor 5#3 119 (.reg 1) 2 3#2 1#2),
  ([0x68BDC0AD#32], .axchg 5#3 119 (.reg 1) 2 3#2 1#2), ([0x69BD8132#32], .acas 5#3 118 (.reg 2) 3 0#2 2#2),
  ([0x6AA285D6#32], .radd 5#3 (.reg 10) (.reg 11) 5 1#2 true), ([0x6BA285D6#32], .raddf 5#3 (.reg 10) (.reg 11) 5 1#2 true),
  ([0x6CA285D6#32], .rmax 5#3 (.reg 10) (.reg 11) 5 1#2 true)]

theorem test_decode_lanemem : words_lanemem.all (fun p => (decode p.1).toOption == some p.2 && encode p.2 == p.1) = true := by decide +kernel

/-- R42 to R45, R54, R55, R57, R58: accumulator moves and lane control, one word for each, every field at a value of its own. -/
def words_lanectl : List (List Word × Instr) := [
  ([0x6DBC3700#32], .drain 5#3 112 true 23), ([0x6EBC3700#32], .accw 5#3 112 true 23), ([0x6FBFFFF0#32], .bra 5#3 0x1FFFF0#21),
  ([0x70BFFFF0#32], .call 5#3 0x1FFFF0#21), ([0x71A00000#32], .ret 5#3), ([0x72A03C80#32], .trapl 5#3 (.latch 1)),
  ([0x73A03C80#32], .rollb 5#3 (.latch 1))]

theorem test_decode_lanectl : words_lanectl.all (fun p => (decode p.1).toOption == some p.2 && encode p.2 == p.1) = true := by decide +kernel

/-- R42 to R45, R54, R55, R57, R58: uniform arithmetic, one word for each, every field at a value of its own. -/
def words_uniform : List (List Word × Instr) := [
  ([0x80A00000#32], .snop 5#3), ([0x81B0FC00#32], .smov 5#3 33 62),
  ([0x82B68000#32, 0xFFFFFFFF#32], .slit 5#3 45 0xFFFFFFFF#32), ([0x83A0C5F8#32], .sadd 5#3 1 34 63),
  ([0x84A0C5F8#32], .ssub 5#3 1 34 63), ([0x85A0C5F8#32], .smul 5#3 1 34 63), ([0x86A0C5F8#32], .smin 5#3 1 34 63),
  ([0x87A0C5F8#32], .smax 5#3 1 34 63), ([0x88A0C5F8#32], .sand 5#3 1 34 63), ([0x89A0C5F8#32], .sor 5#3 1 34 63),
  ([0x8AA0C5F8#32], .sxor 5#3 1 34 63), ([0x8BA0C5F8#32], .sshl 5#3 1 34 63), ([0x8CA0C5F8#32], .sshr 5#3 1 34 63),
  ([0x8DA0C5F8#32], .ssar 5#3 1 34 63), ([0x8EAF3FFD#32], .saddi 5#3 30 31 0x1FD#9), ([0x8FA149F0#32], .sadd64 5#3 1 18 31),
  ([0x90A0C5F8#32], .sbfe 5#3 1 34 63), ([0x91B0FC00#32], .sclz 5#3 33 62), ([0x92B0FC00#32], .spopc 5#3 33 62)]

theorem test_decode_uniform : words_uniform.all (fun p => (decode p.1).toOption == some p.2 && encode p.2 == p.1) = true := by decide +kernel

/-- R42 to R45, R54, R55, R57, R58: uniform tests, special registers and control, one word for each, every field at a value of its own. -/
def words_unictl : List (List Word × Instr) := [
  ([0x93A39250#32], .scmpeq 5#3 7 9 10), ([0x94A39250#32], .scmpne 5#3 7 9 10), ([0x95A39250#32], .scmplt 5#3 7 9 10),
  ([0x96A39250#32], .scmple 5#3 7 9 10), ([0x97A39250#32], .scmpltu 5#3 7 9 10), ([0x98A0841B#32], .qop 5#3 .andn 1 2 3),
  ([0x99A5986F#32], .ssel 5#3 11 12 13 7), ([0x9AB90000#32], .sfirst 5#3 50), ([0x9BB90000#32], .vmask 5#3 50),
  ([0x9CAE8027#32], .srd 5#3 29 0x27), ([0x9DA0381F#32], .swr 5#3 28 0x1F), ([0x9EA12345#32], .jmp 5#3 0x12345#21),
  ([0x9FAAFFF7#32], .loop 5#3 21 0x7FF7#15), ([0xA0A12345#32], .scall 5#3 0x12345#21), ([0xA1A00000#32], .sret 5#3),
  ([0xA2A00B50#32], .jovl 5#3 5 42), ([0xA3A00801#32], .ovload 5#3 4 true), ([0xA4A00000#32], .yield 5#3),
  ([0xA5A00000#32], .exit 5#3), ([0xA6A05600#32], .trap 5#3 43), ([0xA7A00000#32], .tret 5#3),
  ([0xA8A00001#32], .tmask 5#3 true), ([0xA9A02948#32], .uint 5#3 20 41), ([0xAAA00000#32], .uiret 5#3),
  ([0xABA1A948#32], .sysc 5#3 3 20 41), ([0xACA00000#32], .sbrk 5#3), ([0xADA00C00#32], .launch 5#3 6),
  ([0xAEA05600#32], .regq 5#3 43), ([0xAFB90000#32], .regpool 5#3 50)]

theorem test_decode_unictl : words_unictl.all (fun p => (decode p.1).toOption == some p.2 && encode p.2 == p.1) = true := by decide +kernel

/-- R42 to R45, R54, R55, R57, R58: uniform memory, counters and fences, one word for each, every field at a value of its own. -/
def words_unimem : List (List Word × Instr) := [
  ([0xB0A9E761#32], .sld 5#3 19 2#2 3 (some 44) true), ([0xB1A91E00#32], .sld64 5#3 9 1#2 7 none false),
  ([0xB2A9E762#32], .sst 5#3 19 2#2 3 (some 44) true), ([0xB3A91E00#32], .sst64 5#3 9 1#2 7 none false),
  ([0xB4A8B569#32], .saadd 5#3 17 3#2 2 45 1#2), ([0xB5A8B569#32], .sacas 5#3 17 3#2 2 45 1#2),
  ([0xB6A28648#32], .pgreq 5#3 5 3 9), ([0xB7A00443#32], .pgadv 5#3 3 2 8), ([0xB8A20030#32], .palloc 5#3 4 6),
  ([0xB9A00C00#32], .pfree 5#3 6), ([0xBAA31000#32], .cnew 5#3 6 1#2), ([0xBBA00C00#32], .cfree 5#3 6),
  ([0xBCA02771#32], .cadd 5#3 2#2 3 (.pair 23)), ([0xBDA02771#32], .caddr 5#3 2#2 3 (.pair 23)),
  ([0xBEA73A00#32], .cread 5#3 7 3#2 5), ([0xBFA02771#32], .waitge 5#3 2#2 3 (.pair 23)),
  ([0xC0A81978#32], .waitto 5#3 16 1#2 4 (.one 47)), ([0xC1A00000#32], .tbar 5#3), ([0xC2A03000#32], .fence 5#3 3#2),
  ([0xC3A02188#32], .fencex 5#3 2#2 6 1)]

theorem test_decode_unimem : words_unimem.all (fun p => (decode p.1).toOption == some p.2 && encode p.2 == p.1) = true := by decide +kernel

/-- R42 to R45, R54, R55, R57, R58: speculation, tiles and engines, one word for each, every field at a value of its own. -/
def words_engine : List (List Word × Instr) := [
  ([0xC4A00010#32, 0x80007FFF#32], .tryOp 5#3 0x10#21 0x80007FFF#32), ([0xC5A00000#32], .commit 5#3),
  ([0xC6A12345#32], .txopen 5#3 0x12345#21), ([0xC7A00000#32], .txclose 5#3), ([0xC8A05600#32], .txcancel 5#3 43),
  ([0xC9BF8A20#32], .tiledef 5#3 63 5 4), ([0xCABF0000#32], .tilerel 5#3 62), ([0xCBA1FA00#32], .tstate 5#3 3 61),
  ([0xCCBF8A20#32], .metadef 5#3 63 5 4), ([0xCDBE0E10#32], .cpyin 5#3 60 7 2), ([0xCEBE0E10#32], .cpyout 5#3 60 7 2),
  ([0xCFA30A08#32], .cpygg 5#3 6 5 1), ([0xD0BE0E10#32], .gather 5#3 60 7 2), ([0xD1BE0E10#32], .scatter 5#3 60 7 2),
  ([0xD2A00818#32], .coll 5#3 4 3), ([0xD3A00818#32], .sealb 5#3 4 3), ([0xD4A00818#32], .sealu 5#3 4 3),
  ([0xD5A00C00#32], .sealf 5#3 6), ([0xD6A00C00#32], .ckpt 5#3 6)]

theorem test_decode_engine : words_engine.all (fun p => (decode p.1).toOption == some p.2 && encode p.2 == p.1) = true := by decide +kernel

/-- R42 to R45, R54, R55, R57, R58: matrix words, HINT, uniform float and group words, one word for each, every field at a value of its own. -/
def words_matrix : List (List Word × Instr) := [
  ([0xD7A03603#32], .msel 5#3 3 27), ([0xD8AF517A#32], .mma 5#3 ⟨3, 6, true, false, true, 5, 14, 2⟩),
  ([0xD9AF517A#32], .mmas 5#3 ⟨3, 6, true, false, true, 5, 14, 2⟩),
  ([0xDAAF517A#32], .mmag 5#3 ⟨3, 6, true, false, true, 5, 14, 2⟩), ([0xDBA04036#32], .mscale 5#3 true 13 2),
  ([0xDCA04003#32], .mzero 5#3 true 3), ([0xDDA00002#32], .mrel 5#3 2), ([0xDEA00001#32], .mwait 5#3 (some 1)),
  ([0xDFA0023E#32], .hint 5#3 6#3 1 7), ([0xE0A0C5F8#32], .sfadd 5#3 1 34 63), ([0xE1A0C5F8#32], .sfmul 5#3 1 34 63),
  ([0xE2A39250#32], .sfcmplt 5#3 7 9 10), ([0xE3B0FC00#32], .scvtfi 5#3 33 62), ([0xE4B0FC00#32], .scvtif 5#3 33 62),
  ([0xE5A0C5F8#32], .sdivu 5#3 1 34 63), ([0xE6A0C5F8#32], .sremu 5#3 1 34 63), ([0xE7A30E00#32], .qany 5#3 6 7),
  ([0xE8A30E00#32], .qall 5#3 6 7), ([0xE9A30E00#32], .pset 5#3 6 7), ([0xEAA05600#32], .sleep 5#3 43),
  ([0xEBB70000#32, 0x11112222#32, 0x33334444#32], .slit64 5#3 23 0x11112222#32 0x33334444#32)]

theorem test_decode_matrix : words_matrix.all (fun p => (decode p.1).toOption == some p.2 && encode p.2 == p.1) = true := by decide +kernel

/-! ### Small states

`simt` is partition 0 on slice 0 with the whole slice ready: one 4 GiB range on stack 0, a context with a heap window at 0x40000000,
page tables at 0x10000 (addresses below 2^29 are counter pages mapped to themselves, those from 2^29 to 2^30 uncached pages mapped
from 0 on, with an image of one word at 0x20040000, and those from 2^30 to 3 × 2^29 pages that are not resident), a team of one warp of 64 registers (unit 1) and a Reckoner (unit 4). Lanes 0 and 1 of the warp issue a word at offset 0. -/

/-- Bytes 0 to 4 GiB − 1 of the partition lie on stack 0. -/
def range0 : RangeWords := ⟨0#64, 0x100000000#64, 1#64, 0#64⟩

/-- The context. -/
def ctx0 : Ctx :=
  { Ctx.init with
    asid := 7, hbase := 0x40000000, hlimit := 0x100000, hoff := 0x100000, ptbase := 0x10000, cpbase := 0x31000, cpsize := 64,
    dpbase := 0x40080000, dpsize := 4096, save := 0x50000, savesz := 65536, ctrs := [{ va := 0x31000, scope := 2#2 }],
    blocks := [(0x40080000, 128)] }

/-- The partition. -/
def part0 : Part := { Part.init with live := true, slices := [0], ranges := [range0], kernelUp := true, ctxs := [ctx0] }

/-- A thread with values in v0 to v3, all latches valid and one entry on its call stack. -/
def thread0 : Thread :=
  { Thread.init with
    status := .live, v := [(0, 16#32), (1, 3#32), (2, 0xFFFFFFFF#32)], p := 0xFF#8, l0 := some 5#32, l1 := some 6#32, l2 := some 7#32,
    l3 := some 8#32, lastGroup := some 3#32, stack := [{ off := 8#32, slot := 0, tag := some 0x20000000 }] }

/-- s0:s1 is the heap window's base, s2:s3 a counter outside the pool, s4 is 24, s5 is 2, s6:s7 and s8:s9 are images, s12:s13 is not resident. -/
def uni0 : Uni :=
  { Uni.init with s := [(0, 0x40000000#32), (2, 0x30000#32), (4, 24#32), (5, 2#32), (6, 0x20000000#32), (8, 0x20040000#32), (12, 0x50000000#32)], q := 0xFF#8, tvec := 0x20#32 }

/-- The warp. -/
def warp0 : Warp :=
  { Warp.init with
    live := true, grid := 3, team := 2, quota := 64, u := uni0, th := [(0, thread0), (1, thread0)],
    sched := { base := 10, eff := 10, age := 0, hold := 0, yielded := false, trapped := false } }

/-- The Reckoner. -/
def reck0 : Warp := { warp0 with reck := true, th := [(0, { thread0 with lastGroup := some 1#32 })] }

/-- Sixteen words of NOP, as the image at 0x20000000. -/
def ovl0 : Ovl := { tag := some 0x20000000, code := List.replicate 16 0#32 }

/-- The team, with a window of 4 KiB. -/
def team0 : Team := { Team.init with st := .placed, grid := 3, warps := [1], pool := 16, win := 4096 }

/-- The grid. -/
def grid0 : Grid := { Grid.init with st := .eligible, asid := 7, prio := 10, recb := List.replicate 128 0#8 }

/-- A translation the slice holds of a page of the tables' first (0), second (1) or third leaf. -/
def heldPage (leaf : Nat) (page : Nat) : TlbEnt :=
  { asid := 7, page, leaf := leafAt ([0x17#64, 0x800F#64, 0x05#64].getD leaf 0#64) page, big := true, ent := 0x20000 + 8 * leaf }

/-- The translations slice 0 holds, of the pages the tests use. -/
def tlb0 : List TlbEnt := [heldPage 0 3, heldPage 1 0x2000, heldPage 1 0x2004, heldPage 1 0x2005, heldPage 1 0x2006, heldPage 1 0x2007, heldPage 2 0x5000]

/-- The device. -/
def simt : State :=
  { State.reset with
    mem := [(0x10000, 0x19#8), (0x10002, 0x02#8), (0x20000, 0x17#8), (0x20008, 0x0F#8), (0x20009, 0x80#8), (0x20010, 0x05#8), (0x40000, 0x04#8)]
    slices := Tab.put State.reset.slices 0 { Slice.init with st := .owned, part := some 0, srdy := 0x0FFFFFFF#32, clk := 0x100000000#64, tlb := tlb0 }
    parts := [(0, part0)], cores := [(0, { Core.init with ov0 := ovl0 })], rovl := [(0, ovl0)], units := [(1, warp0), (4, reck0)],
    teams := [(2, team0)], grids := [(3, grid0)], nextId := 10
    cur := { Cur.init with active := true, u := 1, members := 3#32 } }

/-- The Reckoner issues. -/
def reck : State := { simt with cur := { simt.cur with u := 4, members := 1#32 } }

/-- The warp with its threads changed. -/
def withThreads (f : Thread → Thread) : State := simt.modLanes 1 3#32 fun _ t => f t

/-- The warp with its uniform state changed. -/
def withUni (f : Uni → Uni) : State := simt.modUni 1 f

/-! ### Hypotheses met: lane words -/

/-- IntegerAndBitWordsComplete, ComparesAndPredicatesComplete, FloatWordsComplete: the lowest and the highest register below the quota,
a latch, TID and a literal; FMAL reads L0 too. -/
theorem wit_laneWords :
    twoReady 7#3 (.reg 0) (.reg 63) (.lit 1#32) simt = true ∧ twoReady 0#3 .discard (.latch 3) .tid simt = true ∧
    laneReady 7#3 true [] [] simt = true ∧ laneReady 7#3 true (destRegs (.reg 63)) [] simt = true ∧
    oneReady 7#3 (.reg 63) .abc simt = true ∧ accReady 7#3 63 (.latch 0) .zero simt = true ∧
    cmpReady 6#3 (.latch 3) (.reg 63) simt = true ∧ laneReady 7#3 true (predRegs 7 ++ predRegs 6) [] simt = true ∧
    laneReady 7#3 true (predRegs 7) [] simt = true ∧ laneReady 7#3 true (destRegs .discard ++ predRegs 7) [] simt = true ∧
    laneReady 7#3 true (srcRegs (.reg 63)) (srcLatches (.reg 63)) simt = true ∧
    laneReady 7#3 (oneLit (.reg 0) (.lit 0#32)) (destRegs .discard ++ srcRegs (.reg 0) ++ srcRegs (.lit 0#32))
      ([implicitL0] ++ srcLatches (.reg 0) ++ srcLatches (.lit 0#32)) simt = true := by decide +kernel

/-- ConversionsAndExchangesComplete. -/
theorem wit_conversionsAndExchanges :
    oneReady 7#3 (.reg 63) (.reg 0) simt = true ∧ twoReady 7#3 .discard (.lit 0#32) (.reg 63) simt = true ∧
    laneReady 7#3 true (destRegs (.reg 0) ++ srcRegs (.latch 3)) (lcLatches (simt.fslot simt.issuer 7) ++ srcLatches (.latch 3)) simt = true ∧
    laneReady 7#3 true (destRegs .discard ++ [63] ++ srcRegs (.reg 0)) (srcLatches (.reg 0)) simt = true ∧
    ((lanesOf allLanes).any fun l => (simt.past.lane l).awaits [63] []) = false ∧ simt.actMask 7#3 ≠ 0#32 ∧
    laneReady 7#3 true (destRegs (.reg 63) ++ predRegs 7) [] simt = true := by decide +kernel

/-- Whether a global word is ready. -/
def globalMet (i : Instr) (regs lat : List Nat) (a : Src) (bp : Fin 8) (data : Warp → Nat → List Word) (s : State) : Bool :=
  laneReady 7#3 true (regs ++ srcRegs a) (lat ++ srcLatches a) s && globalReady ((encode i).headD 0#32) 7#3 a bp data s

/-- GlobalWordsIssue: a byte at any offset, a line's last word, the last spans of registers below the quota, each operand class. -/
theorem wit_globalWords :
    globalMet (.ldg8 7#3 (.reg 63) (.reg 1) 0 0#2 true) (destRegs (.reg 63)) [] (.reg 1) 0 (fun _ _ => []) simt = true ∧
    globalMet (.ldg16 7#3 .discard (.lit 126#32) 0 3#2 false) [] [] (.lit 126#32) 0 (fun _ _ => []) simt = true ∧
    globalMet (.ldg32 7#3 .discard .zero 0 0#2 true) [] [] .zero 0 (fun _ _ => []) simt = true ∧
    globalMet (.ldg64 7#3 62 .zero 0 0#2 true) (regSpan 62 2) [] .zero 0 (fun _ _ => []) simt = true ∧
    globalMet (.ldg128 7#3 60 (.reg 0) 0 0#2 false) (regSpan 60 4) [] (.reg 0) 0 (fun _ _ => []) simt = true ∧
    globalMet (.stg8 7#3 (.latch 3) .tid 0 0#2 true) [] [3] .tid 0 (fieldData (.latch 3)) simt = true ∧
    globalMet (.stg16 7#3 .zero (.lit 2#32) 0 0#2 true) [] [] (.lit 2#32) 0 (fieldData .zero) simt = true ∧
    globalMet (.stg32 7#3 (.reg 63) .zero 0 0#2 true) [63] [] .zero 0 (fieldData (.reg 63)) simt = true ∧
    globalMet (.stg64 7#3 62 (.reg 0) 0 0#2 false) (regSpan 62 2) [] (.reg 0) 0 (regsData 62 2) simt = true ∧
    globalMet (.stg128 7#3 60 (.reg 0) 0 1#2 false) (regSpan 60 4) [] (.reg 0) 0 (regsData 60 4) simt = true ∧
    ([Instr.aadd 7#3 63 .zero 0 3#2 3#2, .amin 7#3 63 .zero 0 3#2 3#2, .amax 7#3 63 .zero 0 3#2 3#2, .aand 7#3 63 .zero 0 3#2 3#2,
      .aor 7#3 63 .zero 0 3#2 3#2, .axchg 7#3 63 .zero 0 3#2 3#2].all fun i => globalMet i [63] [] .zero 0 (regsData 63 1) simt) = true ∧
    globalMet (.aadd64 7#3 62 (.reg 0) 0 0#2 0#2) (regSpan 62 2) [] (.reg 0) 0 (regsData 62 2) simt = true ∧
    globalMet (.acas 7#3 62 (.reg 0) 0 2#2 1#2) (regSpan 62 2) [] (.reg 0) 0 (regsData 62 2) simt = true ∧
    ([Instr.radd 7#3 (.latch 0) .zero 0 2#2 true, .raddf 7#3 (.latch 0) .zero 0 2#2 true, .rmax 7#3 (.latch 0) .zero 0 2#2 true].all
      fun i => globalMet i [] [0] .zero 0 (fieldData (.latch 0)) simt) = true := by decide +kernel

/-- LocalWordsComplete: the window's last bytes, for each size. -/
theorem wit_localWords :
    laneReady 7#3 true (destRegs (.reg 63) ++ srcRegs (.lit 4092#32)) ([] ++ srcLatches (.lit 4092#32)) simt = true ∧
    localReady 4 false 7#3 (.lit 4092#32) 0#7 simt = true ∧ localReady 8 false 7#3 (.lit 3580#32) 127#7 simt = true ∧
    localReady 16 false 7#3 (.reg 0) 4#7 simt = true ∧ laneReady 7#3 true (regSpan 60 4 ++ srcRegs (.reg 0)) ([] ++ srcLatches (.reg 0)) simt = true ∧
    laneReady 7#3 true (dataRegs (.latch 3) ++ srcRegs .zero) (dataLatches (.latch 3) ++ srcLatches .zero) simt = true ∧
    localReady 4 true 7#3 .zero 127#7 simt = true ∧ localReady 8 true 7#3 (.lit 4088#32) 0#7 simt = true ∧
    localReady 16 true 7#3 (.lit 4080#32) 0#7 simt = true := by decide +kernel

/-- The warp is the first of the quad bound to its core. -/
def bound : State := simt.modCore 0 fun c => { c with bind := some (2, 0) }

/-- AccumulatorsAndLaneControlComplete: the first and the last word of the overlay as targets, and a return. -/
theorem wit_accumulatorsAndLaneControl :
    laneReady 7#3 true (regSpan 56 8) [] bound = true ∧ bound.quadPlace bound.issuer = some 0 ∧
    (bound.core bound.issuer.coreKey).idle true = true ∧ bound.actMask 7#3 ≠ 0#32 ∧
    ([0x1FFFFF#21, 14#21].all fun off => !((simt.ovl simt.issuer simt.cur.slot).outside (simt.cur.next + off.signExtend 32 * 4#32))) = true ∧
    ((List.range 32).all fun l => !(simt.acts 7#3 l) || decide ((simt.past.lane l).stack.length < 8)) = true ∧
    ((List.range 32).all fun l => !(simt.acts 7#3 l) || (!((simt.past.lane l).popsBelow) && (simt.past.lane l).stack != [])) = true ∧
    laneReady 7#3 true (srcRegs (.latch 0)) (srcLatches (.latch 0)) simt = true ∧ simt.past.busy (simt.actMask 7#3) = false := by
  decide +kernel

/-- LaneControlCompletes, the traps: a target one word past the overlay; full, empty and too short call stacks in every lane. -/
theorem wit_laneControlTraps :
    (simt.ovl simt.issuer simt.cur.slot).outside (simt.cur.next + (15#21).signExtend 32 * 4#32) = true ∧
    (let full := withThreads fun t => { t with stack := List.replicate 8 (t.stack.headD { off := 0#32, slot := 0, tag := none }) }
     laneReady 7#3 true [] [] full = true ∧ full.past.lanesWhere (full.actMask 7#3) (fun t => decide (8 ≤ t.stack.length)) = 3#32 ∧
       full.past.busy 3#32 = false) ∧
    (let empty := withThreads fun t => { t with stack := [] }
     laneReady 7#3 true [] [] empty = true ∧ empty.past.lanesWhere (empty.actMask 7#3) Thread.popsBelow = 0#32 ∧
       empty.past.lanesWhere (empty.actMask 7#3) (fun t => t.stack.isEmpty) = 3#32 ∧ empty.past.busy 3#32 = false) ∧
    (let below := withThreads fun t => t.openTx 0#32 0x3C#32 false
     laneReady 7#3 true [] [] below = true ∧ below.past.lanesWhere (below.actMask 7#3) Thread.popsBelow = 3#32) := by decide +kernel

/-! ### Hypotheses met: uniform words -/

/-- UniformWordsComplete, GroupDataAndSpecialRegistersComplete: a guard that holds, no predicate outstanding, and a register that is
not writable. -/
theorem wit_uniformWords :
    uniReady 7#3 simt = true ∧ uniReady 6#3 reck = true ∧ simt.issuer.reck = false ∧
    (lanesOf simt.cur.members).all (fun l => !((simt.past.lane l).awaits (predRegs 7) [])) = true ∧ simt.quiet = true ∧
    ((0x00 : Fin 40).val ≠ 0x0E ∧ (0x00 : Fin 40).val ≠ 0x0F) ∧ ((0x27 : Fin 40) ∉ ([0x10, 0x11, 0x16, 0x17, 0x18, 0x19, 0x1A, 0x1D, 0x1E, 0x1F] : List (Fin 40))) := by
  decide +kernel

/-- UniformBranchesGoOrTrap: targets at both ends of the overlay and one word past it, a LOOP at its end and one that goes on, a full,
an empty and a usable call stack. -/
theorem wit_uniformBranches :
    ([0x1FFFFF#21, 14#21].all fun off => simt.inOverlay (simt.cur.next + off.signExtend 32 * 4#32)) = true ∧
    simt.inOverlay (simt.cur.next + (15#21).signExtend 32 * 4#32) = false ∧
    simt.inOverlay (simt.cur.next + (0x1FFFFE#21).signExtend 32 * 4#32) = false ∧
    simt.inOverlay (simt.cur.next + (0x7FFF#15).signExtend 32 * 4#32) = true ∧
    simt.inOverlay (simt.cur.next + (15#15).signExtend 32 * 4#32) = false ∧ simt.quiet = true ∧
    (withUni fun u => u.setS 5 1#32).issuer.u.getS 5 - 1#32 = 0#32 ∧ simt.issuer.u.getS 5 - 1#32 ≠ 0#32 ∧
    (lanesOf simt.cur.members).all (fun l => decide ((simt.past.lane l).stack.length < 8)) = true ∧
    (lanesOf simt.cur.members).all (fun l => !((simt.past.lane l).popsBelow) && !((simt.past.lane l).stack.isEmpty)) = true ∧
    (let s := withThreads fun t => { t with stack := List.replicate 8 (t.stack.headD { off := 0#32, slot := 0, tag := none }) }
     uniReady 7#3 s = true ∧ s.quiet = true ∧ (lanesOf s.cur.members).any (fun l => decide (8 ≤ (s.past.lane l).stack.length)) = true) ∧
    (let s := withThreads fun t => { t with stack := [] }
     uniReady 7#3 s = true ∧ s.quiet = true ∧
       (lanesOf s.cur.members).any (fun l => !((s.past.lane l).popsBelow) && (s.past.lane l).stack.isEmpty) = true) := by decide +kernel

/-- The image in slot 1. -/
def inSlot1 : State := simt.modCore 0 fun c => { c with ov0 := { tag := some 0x20080000, code := [] }, ov1 := ovl0 }

/-- An image that loads. -/
def loads (s : State) (bp : Fin 8) : Bool :=
  match (s.stands.loadImage s.issuer.part (s.asid s.issuer) s.issuer.slice (s.issuer.u.getPair bp.val).toNat).2 with
  | .ok code => code.length == 1
  | .error _ => false

/-- OverlaysCallsAndLaunchesComplete: the image in slot 0, in slot 1, and in none; a launch by the first thread, and one by a group
without it. -/
theorem wit_overlaysCallsAndLaunches :
    uniReady 7#3 simt = true ∧ simt.noRegion = true ∧ simt.quiet = true ∧ reck.noRegion = true ∧
    (simt.ovl simt.issuer 0).tag = some (simt.issuer.u.getPair 3).toNat ∧ (simt.ovl simt.issuer 0).outside (simt.issuer.u.getS 4) = false ∧
    (inSlot1.ovl inSlot1.issuer 1).tag = some (inSlot1.issuer.u.getPair 3).toNat ∧
    (inSlot1.ovl inSlot1.issuer 0).tag ≠ some (inSlot1.issuer.u.getPair 3).toNat ∧
    (inSlot1.ovl inSlot1.issuer 1).outside (inSlot1.issuer.u.getS 4) = false ∧
    (reck.ovl reck.issuer 0).tag = some (reck.issuer.u.getPair 3).toNat ∧ loads reck 4 = true ∧ loads simt 4 = true ∧
    (reck.ovl reck.issuer 0).tag ≠ some (reck.issuer.u.getPair 4).toNat ∧
    (simt.ovl simt.issuer 0).tag ≠ some (simt.issuer.u.getPair 4).toNat ∧ (simt.ovl simt.issuer 1).tag ≠ some (simt.issuer.u.getPair 4).toNat ∧
    simt.stands.leader = true ∧ ({ simt with cur := { simt.cur with members := 2#32 } } : State).stands.leader = false ∧
    (simt.issuer.u.getPair 0).toNat % 128 = 0 ∧ (simt.grid simt.issuer.grid).depth ≠ 10 ∧ (simt.slice simt.issuer.slice).childQ.length < 256 ∧
    simt.calm = true ∧ (simt.issuer.u.getPair 6).toNat % 128 = 0 ∧
    simt.stands.walkWaits 0 7 0 (simt.issuer.u.getPair 0) = false ∧ simt.stands.walkWaits 0 7 0 (simt.issuer.u.getPair 6) = false ∧
    (match (simt.stands.translate simt.issuer.part (simt.asid simt.issuer) simt.issuer.slice (simt.issuer.u.getPair 6)).2 with
     | .ok y => !y.p
     | .error _ => false) = true ∧
    (let x := simt.stands.translate simt.issuer.part (simt.asid simt.issuer) simt.issuer.slice (simt.issuer.u.getPair 0)
     (match x.2, x.1.uniReach (simt.issuer.u.getPair 0) 128 false [] with
      | .ok y, .go r c _ => y.p && lineSound r c.key && (r.raceTest c false none).isNone
      | _, _ => false) = true) := by decide +kernel

/-- A team of two units, of which the other has not arrived. -/
def notLast : State := simt.modTeam 2 fun t => { t with warps := [1, 4] }

/-- YieldsAndBarriersComplete: a sleep of 0 and one of 24 cycles, and an arrival that is the last and one that is not. -/
theorem wit_yieldsAndBarriers :
    simt.uintNow = false ∧ simt.issuer.u.getS 10 = 0#32 ∧ simt.issuer.u.getS 4 ≠ 0#32 ∧ simt.issuer.live = true ∧ simt.issuer.reck = false ∧
    simt.cur.u ∈ (simt.team simt.issuer.team).warps ∧
    (let last := fun (s : State) => ((s.team s.issuer.team).warps.filter fun u => (s.unit u).live).all fun u =>
       if u = s.cur.u then (lanesOf (s.issuer.liveMask &&& ~~~s.cur.members)).all fun l => match (s.issuer.lane l).wait with
         | .barrier _ => true
         | _ => false
       else (s.unit u).arrived
     last simt = true ∧ last notLast = false) := by decide +kernel

/-- A debugger is attached to the grid. -/
def debugged : State := simt.modGrid 3 fun g => { g with debug := true }

/-- The warp handles a user interrupt. -/
def inHandler : State := withUni fun u => { u with uframe := some { off := 12#32, slot := 0, s62 := 1#32, s63 := 2#32 } }

/-- The warp has a user interrupt pending. -/
def pending : State := withUni fun u => { u with uint := some { payload := 3#32, sender := 4#32, vc := [], due := false } }

/-- TrapsAndUserInterruptsComplete: with and without a debugger; an interrupt to no unit, to one that has none pending, and to one
that has. -/
theorem wit_trapsAndUserInterrupts :
    uniReady 7#3 debugged = true ∧ debugged.noRegion = true ∧ debugged.quiet = true ∧ (debugged.grid debugged.issuer.grid).debug = true ∧
    (simt.grid simt.issuer.grid).debug = false ∧ simt.stands.uintTarget simt.issuer (simt.issuer.u.getS 4) = none ∧
    simt.stands.uintTarget simt.issuer (simt.issuer.u.getS 10) = some 1 ∧ (simt.unit 1).u.uint = none ∧
    pending.stands.uintTarget pending.issuer (pending.issuer.u.getS 10) = some 1 ∧ (pending.unit 1).u.uint.isSome = true ∧
    pending.noRegion = true ∧ uniReady 7#3 pending = true ∧ simt.issuer.u.uframe = none ∧
    inHandler.issuer.u.uframe = some { off := 12#32, slot := 0, s62 := 1#32, s63 := 2#32 } := by decide +kernel

/-- A quota asked for. -/
def asks (n : Word) : State := withUni fun u => u.setS 5 n

/-- A warp blocked in the only grow of its team, from 64 to n registers. -/
def growing (n : Nat) : State :=
  (simt.modLanes 1 3#32 fun _ t => { t with wait := .grow n 3#32 }).modTeam 2 fun t =>
    { t with grows := [{ u := 1, members := 3#32, n, waiting := false }] }

/-- Two warps of a team, each blocked in a grow that does not fit. -/
def growing2 : State :=
  let s := growing 120
  ({ s with units := Tab.put s.units 5 { s.unit 1 with k := 1 } } : State).modTeam 2 fun t =>
    { t with warps := [1, 5], grows := t.grows ++ [{ u := 5, members := 3#32, n := 120, waiting := false }] }

/-- GrowsAreGrantedOrRefused: a grow that fits, and two of two warps that do not. -/
theorem wit_grows :
    (growing 80).wakeable 1 = true ∧ (growing2.team 2).firstGrow = some { u := 1, members := 3#32, n := 120, waiting := false } ∧
    (growing2.team 2).pool < 120 - (growing2.unit 1).quota ∧ ((growing2.team 2).warps.filter fun k => (growing2.unit k).live) = [1, 5] ∧
    ([1, 5].all fun k => growing2.growBlocked (growing2.team 2) k && growing2.wakeable k) = true := by decide +kernel

/-- QuotaIsTraded: quotas 15, 16, 80 and 120, with 16 registers in the pool; a grow that fits and one that does not. -/
theorem wit_quota :
    ¬ ((asks 15#32).issuer.u.getS 5).toNat % 8 = 0 ∧ (asks 15#32).quiet = true ∧ (asks 15#32).noRegion = true ∧
    ((asks 16#32).issuer.u.getS 5).toNat ≤ (asks 16#32).issuer.quota ∧ (asks 16#32).regqHeld 1 = false ∧
    (asks 80#32).issuer.quota < 80 ∧ ((asks 80#32).team 2).grows = [] ∧ 80 - (asks 80#32).issuer.quota ≤ ((asks 80#32).team 2).pool ∧
    ((asks 120#32).team 2).pool < 120 - (asks 120#32).issuer.quota ∧ (asks 120#32).regqHeld 1 = false ∧
    ((growing 80).team 2).firstGrow = some { u := 1, members := 3#32, n := 80, waiting := false } ∧
    80 - ((growing 80).unit 1).quota ≤ ((growing 80).team 2).pool ∧
    ((growing 120).team 2).grows = [{ u := 1, members := 3#32, n := 120, waiting := false }] ∧
    ((growing 120).team 2).pool < 120 - ((growing 120).unit 1).quota ∧
    (((growing 120).team 2).warps.filter fun k => ((growing 120).unit k).live).all (fun k => (growing 120).growBlocked ((growing 120).team 2) k) = true := by
  decide +kernel

/-- A uniform access that passes its checks, on a sound line and with no race, and whose table entry lies apart. -/
def reaches (s : State) (va : DWord) (n : Nat) (st : Bool) (o : Option (BitVec 2)) : Bool :=
  match s.stands.uniReach va n st [4] with
  | .go r c y => lineSound r c.key && (r.raceTest c st o).isNone && y.ent.all fun e => decide (e + 8 ≤ c.key) || decide (c.key + n ≤ e)
  | .stop _ => false

/-- UniformMemoryWordsComplete: loads and stores of 4 and 8 bytes in the heap window and through the tables, and the atomics. -/
theorem wit_uniformMemory :
    reaches simt (uniAddr simt.issuer.u 0 (some 4)) 4 false none = true ∧ reaches simt (uniAddr simt.issuer.u 4 (some 4)) 8 false (some 2#2) = true ∧
    reaches simt (uniAddr simt.issuer.u 0 none) 4 true (some 2#2) = true ∧ reaches simt (uniAddr simt.issuer.u 4 (some 4)) 8 true none = true ∧
    reaches simt (simt.issuer.u.getPair 4) 4 true (some 3#2) = true ∧
    (lanesOf simt.cur.members).all (fun l => !((simt.joined.lane l).inTx)) = true ∧ simt.noRegion = true := by decide +kernel

/-- A counter that passes its checks. -/
def counted (s : State) (va : DWord) (add : Bool) : Option CtrRef := match s.stands.ctrReach va add with
  | .go _ c => some c
  | .stop _ => none

/-- CountersAndFencesComplete: a counter of the tables and one of the pool; thresholds at and above its value; a deadline now and
later; each class of FENCEX. -/
theorem wit_countersAndFences :
    (counted simt (simt.issuer.u.getPair 1) true).isSome = true ∧ (counted simt 0x31000#64 false).isSome = true ∧
    simt.issuer.held.all (fun h => !(h.failedAdd || h.ctr == simt.issuer.u.getPair 1)) = true ∧
    (simt.issuer.u.csrc (.one 10)).toNat ≤ (simt.counterVal 0x30000).toNat ∧
    (simt.counterVal 0x30000).toNat < (simt.issuer.u.csrc (.pair 2)).toNat ∧ (counted simt (simt.issuer.u.getPair 1) false).map (·.key) = some 0x30000 ∧
    (simt.clk simt.issuer + (simt.issuer.u.getS 10).setWidth 64).toNat ≤ (simt.clk simt.issuer).toNat ∧
    (simt.clk simt.issuer).toNat < (simt.clk simt.issuer + (simt.issuer.u.getS 4).setWidth 64).toNat ∧ simt.calm = true ∧
    simt.cores.all (fun p => p.2.mq.all fun o => !(o.u == simt.cur.u)) = true ∧
    ((List.range 7).all fun c1 => simt.cmds.all fun k => !(k.u == simt.cur.u && k.cls == c1)) = true := by decide +kernel

/-- The pool of blocks full, and no pool of counters. -/
def noPools : State := simt.modCtx 0 7 fun c => { c with blocks := [(0x40080000, 4096)], cpsize := 0 }

/-- ResidencyAndPoolWordsComplete: a resident range and one that is not; sizes 0, 128 and what finds no place; a live block, none, and
another address; a counter taken from the pool, and returned. -/
theorem wit_residencyAndPools :
    (let p := simt.part 0
     simt.stands.firstInvalid p (p.ctx 7) 0x20000000 65536 = none ∧ simt.rangeResident p (p.ctx 7) 0x20000000 65536 = true ∧
     simt.stands.firstInvalid p (p.ctx 7) 0x50000000 1 = none ∧ simt.rangeResident p (p.ctx 7) 0x50000000 1 = false) ∧
    choosePlace 0 ctx0.dpbase ctx0.dpsize 128 128 ctx0.blocks ≠ none ∧
    choosePlace 0 ctx0.dpbase ctx0.dpsize 128 128 [(0x40080000, 4096)] = none ∧
    noPools.noRegion = true ∧ ((noPools.part 0).ctx 7).blocks = [(0x40080000, 4096)] ∧
    choosePlace 0 ctx0.cpbase 0 8 8 ctx0.taken = none ∧ (choosePlace 0 ctx0.cpbase ctx0.cpsize 8 8 ctx0.taken).isSome = true ∧
    ctx0.blocks.any (fun k => k.1 == 0x40080000) = true ∧ ctx0.blocks.any (fun k => k.1 == 0x40080080) = false ∧
    (let p := 0x31008
     match (simt.stands.modCtx 0 7 fun k => { k with ctrs := { va := p, scope := 1#2 } :: k.ctrs }).counterAt 0 7 0 (BitVec.ofNat 64 p) with
     | (_, .ok (.ok _)) => true
     | _ => false) = true ∧
    simt.waitedOn 0 7 0x31000#64 = false := by decide +kernel

/-- The last part of ResidencyAndPoolWordsComplete: a pool with one block taken. -/
theorem wit_choosePlace :
    (0 < 128 ∧ [(0x40080000, 128)].Pairwise (fun (a b : Nat × Nat) => a.1 + a.2 ≤ b.1) ∧ 128 ∣ 0x40080000) ∧
    ∃ va, choosePlace 0 0x40080000 4096 128 128 [(0x40080000, 128)] = some va := ⟨by decide +kernel, _, rfl⟩

/-! ### Hypotheses met: speculation -/

/-- The threads are in a TRY region that checkpoints octet 0 in v56 to v63 and goes to 0x3C. -/
def inTryS : State := withThreads fun t => t.openTry 64 1#15 0x3C#32

/-- Thread 0 alone issues, in a TRY region that has buffered one store to the heap window's first word. -/
def tryStore : BufStore := { isLocal := false, addr := 0x40000000, bytes := [1#8, 2#8, 3#8, 4#8] }

/-- The state of that. -/
def bufferedS : State :=
  let s := inTryS.modLanes 1 1#32 fun _ t => { t with sp := { t.sp with buf := [tryStore] }, lastGroup := some 1#32 }
  { s with cur := { s.cur with members := 1#32 } }

/-- TryRegionsOpenCommitAndAbort: no headroom for octet 14, and just room for octet 3 (8 × 4 + 8 = 40 of 40 registers); a COMMIT outside
TRY regions, one of regions with nothing buffered, and one with a store; an abort right after TRY. -/
theorem wit_tryRegions :
    uniReady 7#3 simt = true ∧ simt.noRegion = true ∧ simt.calm = true ∧ simt.issuer.reck = false ∧ 0x4000#32 &&& 0x7FFF8000#32 = 0#32 ∧
    simt.issuer.quota < tryNeed 0x4000#15 simt.past.heldSize ∧ tryNeed 0x0008#15 simt.past.heldSize = 40 ∧ 40 ≤ simt.issuer.quota ∧
    (lanesOf simt.cur.members).all (fun l => !((simt.past.lane l).inTry) || simt.calm && (simt.past.lane l).sp.buf.isEmpty) = true ∧ simt.cur.members ≠ 0#32 ∧
    (lanesOf inTryS.cur.members).all (fun l => !((inTryS.past.lane l).inTry) || inTryS.calm && (inTryS.past.lane l).sp.buf.isEmpty) = true ∧
    uniReady 7#3 inTryS = true ∧ bufferedS.calm = true ∧ uniReady 7#3 bufferedS = true ∧ bufferedS.cur.members = laneBit 0 ∧ (bufferedS.past.lane 0).inTry = true ∧
    (bufferedS.past.lane 0).sp.buf = [tryStore] ∧
    (match bufferedS.stands.check 0 7 0 (BitVec.ofNat 64 tryStore.addr) 4 true with
     | (r, .ok x) => match (r.part 0).locate x.pa with
       | some k => !x.sn && x.ent.isNone && r.lineReady k.key (x.pol == 2) &&
           (raceOf r (.unit 1) (r.order.clock (.unit 1)) .glob (locOf 0 x.pa) 4 true none).isNone
       | none => false
     | _ => false) = true ∧
    tryNeed 1#15 0 ≤ 64 := by decide +kernel

/-- A thread in a transaction opened at offset 0. -/
def inTxS (n : Nat) : State := withThreads fun t => { t.openTx 0#32 0x3C#32 false with lastGroup := some (BitVec.ofNat 32 n) }

/-- Both threads have been aborted four times at this TXOPEN. -/
def dueS : State := withThreads fun t => { t with sp := { t.sp with abOff := 0#32, abCount := 4 } }

/-- Then a lane holds the token. -/
def tokenS (u l : Nat) : State :=
  { dueS with units := Tab.put dueS.units 5 { dueS.unit 1 with k := 1 } }.modPart 0 fun p => { p with token := some (u, l) }

/-- TransactionsOpenAndCancel: no member due, the lowest due with the token free, with a member holding it, and with a lane of
another warp holding it. -/
theorem wit_transactionsOpen :
    ((lanesOf simt.cur.members).filter fun l => (simt.past.lane l).serialDue simt.cur.pc) = [] ∧
    ((lanesOf dueS.cur.members).filter fun l => (dueS.past.lane l).serialDue dueS.cur.pc).head? = some 0 ∧ (dueS.part 0).token = none ∧
    uniReady 7#3 dueS = true ∧ dueS.noRegion = true ∧ dueS.calm = true ∧
    (simt.part simt.issuer.part).tokenQ.all (fun x => x.1 != simt.cur.u) = true ∧
    (dueS.stands.advance 1 3#32 dueS.cur.pc).tokenOf 0 = none ∧ ((tokenS 1 1).stands.advance 1 3#32 dueS.cur.pc).tokenOf 0 = some (1, 1) ∧
    1 ∈ ((lanesOf (tokenS 1 1).cur.members).filter fun l => ((tokenS 1 1).past.lane l).serialDue (tokenS 1 1).cur.pc) ∧
    ((lanesOf (tokenS 1 1).cur.members).filter fun l => ((tokenS 1 1).past.lane l).serialDue (tokenS 1 1).cur.pc).head? = some 0 ∧
    ((tokenS 5 0).stands.advance 1 3#32 dueS.cur.pc).tokenOf 0 = some (5, 0) ∧ (5 : Nat) ≠ (tokenS 5 0).cur.u ∧
    (tokenS 5 0).calm = true ∧ uniReady 7#3 (tokenS 5 0) = true := by decide +kernel

/-- Thread 0 alone closes a transaction that has read one sector. -/
def closingS (bs : List Byte) : State :=
  let s := (inTxS 1).modLanes 1 1#32 fun _ t => { t with sp := { t.sp with rlog := [(0x8000, bs)] } }
  { s with cur := { s.cur with members := 1#32 } }

/-- TransactionsClose: members outside transactions; a lone member that commits, and one whose sector differs. -/
theorem wit_transactionsClose :
    ((lanesOf simt.cur.members).all (fun l => !((simt.past.lane l).inTx)) = true ∧ simt.quiet = true) ∧
    (∀ bs, bs = List.replicate 32 0#8 ∨ bs = List.replicate 32 1#8 → let s := closingS bs
      uniReady 7#3 s = true ∧ s.quiet = true ∧ s.cur.members = laneBit 0 ∧ (s.past.lane 0).inTx = true ∧ (s.past.lane 0).serial = false ∧
      s.calm = true ∧ s.stands.tokenOf 0 = none ∧ s.stands.txMustWait s.past (s.past.lane 0).sp = false) ∧
    (∃ r, (closingS (List.replicate 32 0#8)).stands.validate 0 [] [(0x8000, List.replicate 32 0#8)] = (r, .same)) ∧
    (∃ r, (closingS (List.replicate 32 1#8)).stands.validate 0 [] [(0x8000, List.replicate 32 1#8)] = (r, .differs)) ∧
    ∀ r : State, let s := closingS (List.replicate 32 0#8)
      r.txEntries s.past (s.past.lane 0).sp = (r, false) := by
  have sound : ∀ s : State, s.poison = [] → s.ecc = [] → lineSound s (32 * 0x8000) = true := by
    intro s h1 h2; simp [lineSound, State.poisoned, h1, h2, Tab.get, Tab.find?]
  have bytes : ∀ s : State, s.mem = simt.mem → s.bytes (32 * 0x8000) 32 = List.replicate 32 0#8 := by
    intro s h; simp only [State.bytes, State.byte, h]; decide +kernel
  have out : ∀ (x : State × TxVal) (y : TxVal), x.2 = y → ∃ r, x = (r, y) := fun x y h => ⟨x.1, Prod.ext rfl h⟩
  refine ⟨by decide +kernel, ?_, out _ _ ?_, out _ _ ?_, fun _ => rfl⟩
  · rintro bs (rfl | rfl) <;> decide +kernel
  · simp only [State.validate]
    rw [if_neg (by rw [reachLine_sound _ _ _ _ _ (sound _ rfl rfl)]; exact Bool.false_ne_true), if_pos (bytes _ (by rw [reachLine_mem]; rfl))]
  · simp only [State.validate]
    rw [if_neg (by rw [reachLine_sound _ _ _ _ _ (sound _ rfl rfl)]; exact Bool.false_ne_true),
      if_neg (by rw [bytes _ (by rw [reachLine_mem]; rfl)]; decide +kernel)]

/-- AbortsRestore: both threads in transactions; a call stack of one at an abort to depth 0 and to depth 1. -/
theorem wit_abortsRestore :
    (3#32 : Word) ≠ 0#32 ∧ (lanesOf 3#32).all (fun l => (((inTxS 3).unit 1).lane l).inRegion && !(((inTxS 3).unit 1).lane l).serial) = true ∧
    (thread0.openTx 0#32 0x3C#32 false).sp.region = .tx 0x3C#32 0 1 0#32 false ∧ 1 ≤ thread0.stack.length ∧ 0 ≤ thread0.stack.length := by
  decide +kernel

/-! ### Hypotheses met: tiles, engines and the matrix path -/

/-- Tile 63 in a state, over 4096 bytes. -/
def tiled (st : TileSt) (readers : Nat) : State :=
  (withUni fun u => u.setS 11 4096#32).modTeam 2 fun t => { t with tiles := [(63, { TileEnt.init with extent := 4096, st, readers })] }

/-- TileWordsComplete: a tile over the whole window, and TILEREL of a READY tile with and without readers and of an EMPTY one. -/
theorem wit_tileWords :
    (tiled .empty 0).stands.tileTeam (tiled .empty 0).past = some 2 ∧ (tiled .empty 0).issuer.held = [] ∧ (tiled .empty 0).noRegion = true ∧
    ((tiled .empty 0).tile 2 63).f = false ∧ ((tiled .empty 0).tile 2 63).st = .empty ∧
    ((tiled .empty 0).issuer.u.getS 10).toNat % 256 = 0 ∧ 0 < ((tiled .empty 0).issuer.u.getS 11).toNat ∧
    ((tiled .empty 0).issuer.u.getS 10).toNat + ((tiled .empty 0).issuer.u.getS 11).toNat ≤ ((tiled .empty 0).team 2).win ∧
    ((tiled .ready 0).tile 2 63).st = .ready ∧ ((tiled .ready 0).tile 2 63).readers = 0 ∧ ((tiled .ready 1).tile 2 63).readers ≠ 0 ∧
    ((tiled .draining 0).tile 2 63).st ≠ .ready ∧ reck.stands.tileTeam reck.past = some 2 := by decide +kernel

/-- EngineWordsQueueOrTrap: a record at the window's start and one at its end, one 24 bytes in, and one past it; EMPTY and READY tiles. -/
theorem wit_engineWords :
    uniReady 7#3 (tiled .empty 0) = true ∧ 0 < ((tiled .empty 0).tile 2 63).extent ∧ ((tiled .empty 0).tile 2 62).extent = 0 ∧
    ((tiled .empty 0).tile 2 62).st = .empty ∧ (0#32).toNat % 64 = 0 ∧ (3712#32).toNat % 64 = 0 ∧
    (0#32).toNat + 384 ≤ ((tiled .empty 0).team 2).win ∧ (3712#32).toNat + 384 ≤ ((tiled .empty 0).team 2).win ∧
    ((tiled .empty 0).cmds.filter fun c => c.team == 2 && c.cls == 1).length < 16 ∧ (tiled .ready 0).quiet = true ∧
    ((tiled .ready 0).issuer.u.getS 4).toNat % 64 ≠ 0 ∧ ((tiled .ready 0).issuer.u.getS 11).toNat % 64 = 0 ∧
    ((tiled .ready 0).team 2).win < ((tiled .ready 0).issuer.u.getS 11).toNat + 64 ∧ ((tiled .ready 0).tile 2 63).st ≠ .empty := by
  decide +kernel

/-- A launch record with format slots 0 (format 1) and 1 (format 3) and a board byte. -/
def matRec (board : Byte) : List Byte :=
  (List.range 128).map fun i => if i = 0x50 then 1#8 else if i = 0x54 then 3#8 else if i = 0x25 then board else 0#8

/-- The tiles of a matrix operation: tile 0 of elements and tile 1 of metadata. -/
def matTiles : Tab TileEnt :=
  [(0, { TileEnt.init with extent := 6144, st := .ready }), (1, { TileEnt.init with extent := 384, st := .ready, kind := true })]

/-- The Reckoner of a launch with a team of four warps on each of cores 0 and 1, bound to their cores. -/
def mat (board : Byte) : State :=
  let tm := { team0 with warps := [1, 5, 6, 7], tiles := matTiles }
  { reck with
    units := [(1, warp0), (4, reck0), (5, { warp0 with k := 1 }), (6, { warp0 with k := 2 }), (7, { warp0 with k := 3 })]
    teams := [(2, tm), (3, { tm with idx := 1, core := 1 })], grids := [(3, { grid0 with recb := matRec board })]
    cores := [(0, { Core.init with bind := some (2, 0) }), (1, { Core.init with bind := some (3, 0) })] }

/-- MatrixControlCompletes: the quad at warp 0 of four. -/
theorem wit_matrixControl :
    uniReady 7#3 (mat 0#8) = true ∧ (mat 0#8).noRegion = true ∧ (mat 0#8).issuer.reck = true ∧
    (mat 0#8).stands.teamOn (mat 0#8).issuer.grid 0 = some 2 ∧ ((mat 0#8).issuer.u.getS 10).toNat + 3 < ((mat 0#8).team 2).warps.length ∧
    (((mat 0#8).core 0).mq.filter fun o => o.u == (mat 0#8).cur.u).length < 8 ∧ ((mat 0#8).core 0).bind.isSome = true ∧
    (mat 0#8).stands.quadShort 0 (8 * 7) (8 * 7) = false ∧ (mat 0#8).stands.quadWaits 0 [8 * 7] = false ∧
    (mat 0#8).issuer.held.all (fun h => !h.failedAdd) = true ∧ (mat 0#8).matOpen 4 (some 3) = false ∧ (mat 0#8).matOpen 4 none = false := by
  decide +kernel

/-- The fields of a matrix word on core 0 with tile 0 and octet 0. -/
def mops (slotB : Fin 8) (tile : Fin 64) : MmaOps := { slotA := 0, slotB, acc := true, h := true, z := false, tile, oct := 0, core := 0 }

/-- Whether the cells of a matrix word are ready. -/
def cellsReady (s : State) (m : MmaOps) (sparse : Bool) (cs : List MatCell) : Bool :=
  (cs.all fun c => (s.stands.cellCheck s.past m sparse c).isNone && !(s.stands.matFull s.cur.u c.dst) &&
    ((s.core c.src).hold.isSome || !(s.stands.quadWaits c.src (aRegs m.oct.val true)))) &&
  (s.stands.tileToWait s.past m.tile.val sparse cs).isNone

/-- MatrixWordsQueueOrTrap: one cell, sparse and not; a board of one cell and of two; each reason of Tile-State. -/
theorem wit_matrixWords :
    cellsReady (mat 0#8) (mops 0 0) false [⟨0, 0, 0⟩] = true ∧ cellsReady (mat 0#8) (mops 0 0) true [⟨0, 0, 0⟩] = true ∧
    boardShape ((mat 0#8).grid (mat 0#8).issuer.grid).recb = (1, 1) ∧ boardShape ((mat 1#8).grid (mat 1#8).issuer.grid).recb = (1, 2) ∧
    (mat 1#8).stands.boardRow 3 2 0 = some (mat 1#8).issuer.coreKey ∧ (mat 1#8).stands.boardCells 3 (1, 2) = [⟨0, 0, 0⟩, ⟨1, 0, 1⟩].map some ∧
    cellsReady (mat 1#8) (mops 0 0) false [⟨0, 0, 0⟩, ⟨1, 0, 1⟩] = true ∧ (mat 0#8).quiet = true ∧ (mat 0#8).issuer.held = [] ∧
    (mat 0#8).stands.teamOn 3 ((mat 0#8).issuer.coreKey + 3) = none ∧
    (((mat 0#8).modCore 0 fun c => { c with bind := none }).core 0).bind = none ∧ ((mat 0#8).core 0).bind ≠ none ∧
    slotsMatch ((mat 0#8).fslot (mat 0#8).issuer 0) ((mat 0#8).fslot (mat 0#8).issuer 1) = false ∧
    slotsMatch ((mat 0#8).fslot (mat 0#8).issuer 0) ((mat 0#8).fslot (mat 0#8).issuer 0) = true ∧
    ((mat 0#8).tile 2 1).kind = true ∧ ((mat 0#8).team 2).warps.length ≤ ((mat 0#8).issuer.u.getS 4).toNat + 3 ∧
    (let s := { mat 1#8 with grids := [(3, { grid0 with recb := matRec 16#8 })], teams := [(2, { team0 with idx := 1 }), (3, { team0 with core := 1 })] }
     boardShape (s.grid s.issuer.grid).recb ≠ (1, 1) ∧
       s.boardRow s.issuer.grid (boardShape (s.grid s.issuer.grid).recb).2 0 ≠ some s.issuer.coreKey) := by decide +kernel

/-! ### Hypotheses met: issue, traps, memory, encoding -/

/-- Every predicate of the warp is false. -/
def guardsOff : State := (withThreads fun t => { t with p := 0#8 }).modUni 1 fun u => { u with q := 0#8 }

/-- GuardedOffWordsSkip: words of both sets whose guard 0 is false, and an L-set word under guard 6 on a Reckoner. -/
theorem wit_guardedOff :
    encode (.sadd 0#3 1 2 3) = [0x83008418#32] ∧ encode (.clz 0#3 (.reg 1) .zero) = [0x15007E00#32] ∧ guardsOff.fresh = true ∧
    (0x83008418#32).getLsbD 31 = true ∧ (0x15007E00#32).getLsbD 31 = false ∧ qguard guardsOff.issuer.u 0#3 = false ∧
    guardsOff.issuer.reck = false ∧ guardsOff.actMask 0#3 = 0#32 ∧ reck.fresh = true ∧ reck.issuer.reck = true ∧ (6#3 : BitVec 3) ≠ 7#3 := by
  decide +kernel

/-- IllegalWordsTrap: the first and the last opcode of each kind, a fetch one word past the overlay, a return into a changed slot, the
first register above the quota, and a lost L3. -/
theorem wit_illegalWords :
    reck.fresh = true ∧ reck.quiet = true ∧ reck.issuer.reck = true ∧ (encode (.nop 7#3)).headD 0#32 = 0x00E00000#32 ∧
    qguard reck.issuer.u 7#3 = true ∧ (0x9AE00000#32).toNat / 2 ^ 24 % 128 = 0x1A ∧ (encode (.sfirst 7#3 0)).headD 0#32 = 0x9AE00000#32 ∧
    (encode (.pset 7#3 0 0)).headD 0#32 = 0xE9E00000#32 ∧ (0xE9E00000#32).toNat / 2 ^ 24 % 128 = 0x69 ∧
    simt.fresh = true ∧ simt.quiet = true ∧ simt.issuer.reck = false ∧ (encode (.msel 7#3 0 0)).headD 0#32 = 0xD7E00000#32 ∧
    (encode (.mwait 7#3 none)).headD 0#32 = 0xDEE00004#32 ∧ (0xDEE00004#32).toNat / 2 ^ 24 % 128 = 0x5E ∧ simt.actMask 7#3 ≠ 0#32 ∧
    0x6C ≤ (0x6C#7).toNat ∧ ({ simt with cur := { simt.cur with pc := 64#32 } } : State).inOverlay 64#32 = false ∧
    ((withThreads fun t => { t with stale := true }).issuer.lane 0).stale = true ∧
    regsAbove (destRegs (.reg 64)) simt.issuer.quota = true ∧ simt.joined.namesHeld (destRegs (.reg 63)) = false ∧ regsAbove (destRegs (.reg 63)) simt.issuer.quota = false ∧
    (let s := withThreads fun t => { t with l3 := none }
     s.fresh = true ∧ s.quiet = true ∧ oneLit (.latch 3) (.lit 0#32) = true ∧
       (lanesOf (s.actMask 7#3)).all (fun l => (s.joined.lane l).lostLatch [3] == some 3) = true) := by decide +kernel

/-- LiteralTraps: a literal past the end of the overlay, of a word that acts and of one that does not; QuotaAndLatchTraps: a latch lost in
lanes of a region. -/
theorem wit_literal :
    ([0x12E03EFE#32, 0x12003EFE#32].all fun w => match decode [w] with
      | .error e => e == .literalMissing
      | .ok _ => false) = true ∧
    simt.actMask ((0x12E03EFE#32 >>> 21).setWidth 3) ≠ 0#32 ∧ guardsOff.actMask ((0x12003EFE#32 >>> 21).setWidth 3) = 0#32 ∧
    guardsOff.quiet = true ∧
    (let s := withThreads fun t => { t.openTx 0#32 0x3C#32 false with l3 := none, lastGroup := some 3#32 }
     s.fresh = true ∧ s.quiet = true ∧ s.joined.namesHeld (srcRegs (.latch 3)) = false ∧
       (lanesOf (s.actMask 7#3)).all (fun l => (s.joined.lane l).lostLatch (srcLatches (.latch 3)) == some 3) = true ∧
       (lanesOf (s.actMask 7#3)).all (fun l => (s.joined.lane l).inRegion) = true) := by decide +kernel

/-- A queue of eight entries. -/
def queue8 : List Entry := List.replicate 8 { word := 0x54E04010#32, lit := 0#32, latch := 7, base := 0#64, a := 0#32, b := 0#32, d := [1#32, 2#32, 3#32, 4#32] }

/-- TrapsEnterAndReturn: a trap with a handler and the mask 0; one with no handler, and one with the mask 1; a full queue. -/
theorem wit_traps :
    (0 : Nat) < 32 ∧ ((simt.unit 1).lane 0).status = .live ∧ ((simt.unit 1).lane 0).mask = false ∧ (simt.unit 1).u.tvec ≠ 0xFFFFFFFF#32 ∧
    ((simt.unit 1).lane 0).slot < 2 ∧ queue8.length ≤ 8 ∧ (queue8.all fun e => decide (e.latch < 8) && decide (e.d.length = 4)) = true ∧
    (simt.unit 1).reck = false ∧ (withUni fun u => { u with tvec := 0xFFFFFFFF#32 }).issuer.u.tvec = 0xFFFFFFFF#32 ∧
    (((withThreads fun t => { t with mask := true }).unit 1).lane 0).mask = true ∧ (simt.team (simt.unit 1).team).st = .placed := by
  decide +kernel

/-- WordsWithoutMemoryLeaveIt: the first opcode of each set, which goes on. -/
theorem wit_withoutMemory :
    encode (.nop 7#3) = [0x00E00000#32] ∧ encode (.snop 7#3) = [0x80E00000#32] ∧
    (∃ t, exec (.nop 7#3) simt = .next t) ∧ ∃ t, exec (.snop 7#3) simt = .next t := ⟨by decide +kernel, by decide +kernel, ⟨_, rfl⟩, ⟨_, rfl⟩⟩

/-- An access of unit 1 to the first word of page 0x100000 of the partition. -/
def acc0 : Acc1 :=
  { agent := .unit 1, clock := [], loc := locOf 0 0x100000, key := 0x100000, len := 4, k := false, unc := false, cls := 0, comp := false,
    bias := 31, req := Req.free }

/-- Another agent has written that word. -/
def racing : State :=
  { simt with order := { simt.order with accs :=
      [{ agent := .hart 0 1, epoch := 1, space := .glob, lo := locOf 0 0x100000, len := 4, write := true, atom := none, vc := [] }] } }

/-- AccessesArePerformed: no race, a poisoned line, and a race of a load and of a store. -/
theorem wit_accesses :
    simt.raceTest acc0 true none = none ∧ simt.raceTest acc0 false none = none ∧ simt.raceTest acc0 true (some 3#2) = none ∧
    lineSound simt acc0.key = true ∧ ([1#8, 2#8, 3#8, 4#8] : List Byte).length = acc0.len ∧
    ({ simt with poison := [(0x2000, 0#128)] } : State).poisoned (acc0.key / 128) = true ∧
    racing.raceTest acc0 true none = some (.hart 0 1) ∧ racing.raceTest acc0 false none = some (.hart 0 1) ∧ lineSound racing acc0.key = true := by
  decide +kernel

/-- The next step is a Reckoner's turn. -/
def turn : State := { reck with agenda := [.reck 0 0], cur := Cur.init }

/-- The next step is issue slot 0 of core 0. -/
def slotTurn : State := { simt with agenda := [.issue 0 0 0], cur := Cur.init }

/-- EveryStepKeepsMemoryCanonical: a memory with four bytes listed, and one with none. -/
theorem wit_memoryCanonical : Memory.wf turn = true ∧ Memory.wf State.reset = true ∧ ∃ t, step (State.reset.withFetchWord 32 0x80E00000) = .next t :=
  ⟨by decide +kernel, by decide +kernel, _, rfl⟩

/-- StepRunsTheDecodedWord: a NOP issues on the Reckoner's turn, and in the slot to which one warp is bound. -/
theorem wit_step :
    turn.powered = true ∧ turn.tickOn.aged = none ∧ turn.tickOn.lapsed = none ∧ (let now : State := { turn.tickOn with agenda := [] }
      now.reckOf 0 0 = some 4 ∧ now.reckUint 4 = false ∧ now.groupOf 4 ≠ 0#32 ∧ ((now.unit 4).lane 0).stale = false ∧
      (now.ovl (now.unit 4) 0).outside 0#32 = false ∧ (decode ((now.ovl (now.unit 4) 0).wordsAt 0#32)).toOption = some (.nop 0#3)) ∧
    slotTurn.powered = true ∧ slotTurn.tickOn.aged = none ∧ slotTurn.tickOn.lapsed = none ∧ (let now : State := { slotTurn.tickOn with agenda := [] }
      now.slotOrder 0 0 0 = [1] ∧ (now.unit 1).sched.hold < holdLimit ∧ (now.startIssue 1).groupOf 1 = 3#32 ∧
      (match exec (.nop 0#3) (((now.startIssue 1).atWord 1 3#32 1).settleFor (.nop 0#3)) with
       | .next t => t.cur.done
       | _ => false) = true) := by decide +kernel

/-- DecodeEncodeRoundTrip. -/
theorem wit_roundTrip : (Instr.iadd 7#3 .discard (.lit 5#32) .zero).wf = true ∧ encode (.iadd 7#3 .discard (.lit 5#32) .zero) ≠ [] := by
  decide +kernel

/-! ### Hypotheses met: what befalls threads -/

/-- A flight of an instruction's word, with number 5. -/
def flightIs (i : Instr) (base : DWord) (d : List Word) (fault : Option TrapRec) : Flight :=
  { seq := 5, word := (encode i).headD 0#32, lit := 0#32, base, a := 0#32, b := 0#32, d, latch := 0, cap := 7, since := 0, fault }

/-- Thread 0 has that flight and no other. -/
def flightS (f : Flight) : State := simt.modLanes 1 1#32 fun _ t => { t with flights := [f] }

/-- Whether a flight may be performed and its access passes the checks, on a sound line and with no race, or lies on a page that is
not resident. -/
def flies (f : Flight) (away : Bool) (o : Option (BitVec 2)) : Bool :=
  let s := flightS f
  performable s 1 5 0 f && match s.check 0 7 0 f.va f.kind.size f.kind.writes with
    | (r, .ok x) => !away && (match (r.part 0).locate x.pa with
      | some c => r.lineReady c.key (x.pol == 2) && !x.sn && lineSound r c.key && (r.raceTest (flightAcc s r 1 f x c) f.kind.writes o).isNone &&
          x.ent.all fun e => decide (e + 8 ≤ c.key) || decide (c.key + f.kind.size ≤ e)
      | none => false)
    | (_, .nonres) => away
    | (_, .trap _) | (_, .wait) => false

/-- FlightsArePerformed: a load of a byte and of 16, an atomic, a store and a reduction; a load and a store on a page that is not
resident. -/
theorem wit_flights :
    flies (flightIs (.ldg8 7#3 (.reg 1) .zero 0 0#2 true) 0x400FFFFF#64 [] none) false (some 2#2) = true ∧
    flies (flightIs (.ldg128 7#3 60 .zero 0 0#2 false) 0x20050010#64 [] none) false none = true ∧
    flies (flightIs (.ldg32 7#3 (.reg 1) .zero 0 0#2 false) 0x50000000#64 [] none) true none = true ∧
    flies (flightIs (.aadd 7#3 1 .zero 0 3#2 3#2) 0x40000000#64 [5#32] none) false (some 3#2) = true ∧
    flies (flightIs (.stg32 7#3 (.reg 1) .zero 0 0#2 true) 0x20050000#64 [5#32] none) false (some 2#2) = true ∧
    (storeBytes 4 [5#32]).length = 4 ∧
    flies (flightIs (.radd 7#3 (.reg 1) .zero 0 2#2 true) 0x40000000#64 [5#32] none) false (some 2#2) = true ∧
    flies (flightIs (.stg8 7#3 (.reg 1) .zero 0 0#2 false) 0x50000000#64 [5#32] none) true none = true ∧
    (flightIs (.stg8 7#3 (.reg 1) .zero 0 0#2 false) 0x50000000#64 [5#32] none).kind.yields = .none ∧
    (flightIs (.stg8 7#3 (.reg 1) .zero 0 0#2 false) 0x50000000#64 [5#32] none).kind.writes = true := by decide +kernel

/-- The warp's account of its issues. -/
def scheduled (hold age : Nat) : State :=
  (simt.modCore 0 fun c => { c with cur := [(0, 1)] }).modUnit 1 fun w => { w with sched := { w.sched with hold, age } }

/-- PendingTrapsAndAgingHappen: a faulted flight, a hold count and an age count at their limits. -/
theorem wit_pendingTraps :
    (let f := flightIs (.ldg32 7#3 (.reg 1) .zero 0 0#2 false) 0x400FFFFF#64 [] (some (trapRec 4 0x400FFFFF#64))
     ((flightS f).unit 1).frozen = none ∧ ((flightS f).part ((flightS f).unit 1).part).stalled = false ∧
       (((flightS f).unit 1).lane 0).status = .live ∧ (((flightS f).unit 1).lane 0).flights = [f]) ∧
    Tab.find? ((scheduled (2 ^ 22) 0).core 0).cur 0 = some 1 ∧ 2 ^ 22 ≤ ((scheduled (2 ^ 22) 0).unit 1).sched.hold ∧
    (scheduled (2 ^ 22) 0).groupOf 1 ≠ 0#32 ∧ ((scheduled (2 ^ 22) 0).unit 1).busy ((scheduled (2 ^ 22) 0).groupOf 1) = false ∧
    ((scheduled 0 65536).unit 1).live = true ∧ 65536 ≤ ((scheduled 0 65536).unit 1).sched.age := by decide +kernel

/-- Both threads wait. -/
def waitingS (x : Wait) : State := withThreads fun t => { t with wait := x }

/-- What a wait on the counter at 0x30000 sees: its key and its value. -/
def waitSees (s : State) : Option (Nat × Nat) := match s.waitRef (s.unit 1) 0x30000#64 with
  | (r, some c) => some (c.key, (r.counterVal c.key).toNat)
  | (_, none) => none

/-- The line of the counter is poisoned. -/
def poisonedS (x : Wait) : State := { waitingS x with poison := [(0x600, 0#128)] }

/-- The home of the counter is in reset. -/
def downS (x : Wait) : State := (waitingS x).modSlice 0 fun y => { y with srdy := 4#32 }

/-- WaitsEnd: a counter at its threshold and below it with its deadline come; one whose home does not answer; a sleep that ends now, and a
reply. -/
theorem wit_waitsEnd :
    (waitingS (.counter 0x30000#64 0#64 2#2 none 3#32)).wakeable 1 = true ∧
    waitSees (waitingS (.counter 0x30000#64 0#64 2#2 none 3#32)) = some (0x30000, 0) ∧
    waitSees (waitingS (.counter 0x30000#64 1#64 2#2 (some 0x100000000#64) 3#32)) = some (0x30000, 0) ∧
    (((waitingS (.counter 0x30000#64 1#64 2#2 (some 0x100000000#64) 3#32)).unit 1).lane 1).wait =
      .counter 0x30000#64 1#64 2#2 (some 0x100000000#64) 3#32 ∧
    waitSees (downS (.counter 0x30000#64 1#64 2#2 (some 0x100000000#64) 3#32)) = none ∧
    (0x100000000#64).toNat ≤ (simt.clk (simt.unit 1)).toNat ∧ (waitingS (.sleep 0x100000000#64 3#32)).wakeable 1 = true ∧
    (((waitingS (.sleep 0x100000000#64 3#32)).unit 1).lane 0).wait = .sleep 0x100000000#64 3#32 ∧
    (let s := simt.modUnit 1 fun w => { w with sysc := some { dest := 63, num := 0#32, arg := 0#32, members := 3#32, vc := [] } }
     s.wakeable 1 = true ∧ (s.unit 1).sysc = some { dest := 63, num := 0#32, arg := 0#32, members := 3#32, vc := [] } ∧
       (s.part (s.unit 1).part).slices.contains (7 / 8) = true) := by decide +kernel

/-- The counter's line holds no poison, and then it does. -/
theorem wit_waitLine :
    let w := Wait.counter 0x30000#64 0#64 2#2 none 3#32
    let c : CtrRef := { key := 0x30000, loc := 0x30000, scope := 2#2, unc := false, cls := 0, comp := false, ready := true }
    (((waitingS w).waitRef ((waitingS w).unit 1) 0x30000#64).1.reachCtr c).2 = false ∧
    (((poisonedS w).waitRef ((poisonedS w).unit 1) 0x30000#64).1.reachCtr c).2 = true :=
  ⟨reachLine_sound _ _ _ _ _ (by decide +kernel), reachLine_poisoned _ _ _ _ _ (by decide +kernel)⟩

/-- An OVLOAD into slot 1 waits at its word. -/
def loadingS (copying : Bool) : State :=
  simt.modUnit 1 fun w => { w with ovw := some { va := 0x20040000#64, slot := 1, copying, members := 3#32 } }

/-- Both threads wait at a barrier with a user interrupt pending. -/
def interruptedS : State := pending.modLanes 1 3#32 fun _ t => { t with wait := .barrier 3#32 }

/-- A Reckoner with a user interrupt pending. -/
def reckInterrupted : State := reck.modUni 4 fun u => { u with uint := some { payload := 3#32, sender := 4#32, vc := [], due := false } }

/-- OverlaysAndInterruptsArrive. -/
theorem wit_overlaysAndInterrupts :
    (loadingS false).wakeable 1 = true ∧ ((loadingS false).unit 1).reck = false ∧ (loadingS false).slotBusy 0 1 = false ∧ (loadingS false).loadPending 0 1 = false ∧
    (match ((loadingS false).loadImage 0 7 0 0x20040000).2 with
     | .ok code => code == [0#32]
     | .error _ => false) = true ∧
    (loadingS true).wakeable 1 = true ∧ ((loadingS true).unit 1).ovw.isSome = true ∧
    (interruptedS.unit 1).u.uint.isSome = true ∧ (interruptedS.unit 1).uintReady = true ∧ interruptedS.mayIssue 1 = true ∧
    (interruptedS.unit 1).wd = .no ∧ (interruptedS.unit 1).blockedGroup = 3#32 ∧
    (lanesOf (interruptedS.unit 1).liveMask).all (fun l => ((interruptedS.unit 1).lane l).wait != .none) = true ∧
    (reckInterrupted.unit 4).reck = true ∧ reckInterrupted.reckUint 4 = true := by decide +kernel

/-! ### Hypotheses met: matrix instructions and engine commands -/

/-- A matrix instruction of each kind at the head of core 0's queue. -/
def matOp (kind : MatKind) (started : Bool) : MatOp :=
  { id := 9, u := 4, kind, acc := true, z := false, bTeam := 2, tile := 0, a := [], sa := [], factor := [], slotA := 1#32, slotB := 1#32,
    ccnt := 0#64, rel := [], start := [], grp := 9, cores := [0], started }

/-- The queue holds it. -/
def matQ (o : MatOp) : State := (mat 0#8).modCore 0 fun c => { c with mq := [o] }

/-- MatrixInstructionsRun. -/
theorem wit_matrixInstructions :
    ((matQ (matOp .mma false)).core (64 * 0 + 0)).mq = [matOp .mma false] ∧ ((matQ (matOp .mma false)).part 0).stalled = false ∧
    ([MatKind.mma, .mmas, .mscale, .mzero].all fun k => ((matQ (matOp k true)).matReads (matOp k true)).2.isNone) = true := by decide +kernel

/-- A list of `n` bytes, those not named zero. -/
def bytesOf (n : Nat) (t : Tab Byte) : List Byte := (List.range n).map fun i => Tab.get 0#8 t i

/-- A command of the team. -/
def cmdIs (op : CmdOp) (cls : Nat) (tile : Option Nat) (sval : Word) (ccnt : DWord) (recb : List Byte) (st : CmdSt) : Cmd :=
  { id := 20, u := 1, team := 2, cls, op, tile, bp := 0x40000000#64, bp2 := 0#64, sval, ccnt, rel := [], start := [], recb, st, grid := 3,
    marked := [], copies := [], done := [], msgs := [] }

/-- A shape record of one dimension and one element of 4 bytes, of which none is valid. -/
def shape1 : List Byte := bytesOf 192 [(0, 1#8), (1, 4#8), (16, 1#8)]

/-- The command in its chain; its record lies at the window's start, and tile 5 at 1024. -/
def cmdS (c : Cmd) : State :=
  ({ simt with cmds := [c] } : State).modTeam 2 fun t =>
    { t with mem := [(0, 1#8), (1, 4#8), (16, 1#8)], tiles := [(5, { TileEnt.init with base := 1024, extent := 4, st := .filling })] }

/-- Whether a command's record is read; whether it then starts. -/
def starts (c : Cmd) : Option Bool :=
  let s := cmdS c
  let now := (s.bearAgent c.agent c.start).modCmd 20 fun y => { y with st := .running }
  if !(s.canStart c) then none
  else match now.readRecord c with
    | (r, .ok b) =>
      let c' := { c with recb := b, st := .running }
      match (r.modCmd 20 fun _ => c').startKind c' with
      | (_, .ok _) => some true
      | (_, .error _) => some false
    | (_, .error _) => none

/-- EngineCommandsRun: a record that lets its command go on, and one that does not; a completion without a counter and with one; a
fault. -/
theorem wit_engineCommands :
    starts (cmdIs .cpyin 1 (some 5) 0#32 0#64 [] .queued) = some true ∧ starts (cmdIs .cpyin 1 (some 5) 3904#32 0#64 [] .queued) = some false ∧
    (let c := cmdIs .cpyin 1 (some 5) 0#32 0#64 shape1 .running
     ((cmdS c).runCmd c).2 = none ∧ (((cmdS c).runCmd c).1.team 2).st = .placed) ∧
    (let c := cmdIs .cpyin 1 (some 5) 0#32 0x30000#64 shape1 .running
     let r' := ((cmdS c).runCmd c).1.modTile 2 5 c.tileDone
     c.ccnt ≠ 0#64 ∧ (match r'.counterAt 0 (r'.grid 3).asid 0 c.ccnt with
       | (_, .ok (.ok x)) => x.ready
       | _ => false) = true) ∧
    (let c := cmdIs .cpyin 1 (some 5) 0#32 0#64 shape1 (.failing 0#64)
     (cmdS c).cmd 20 = some c ∧ c.marked = [] ∧ ((cmdS c).unit 1).live = true ∧ ((cmdS c).team 2).st = .placed) := by decide +kernel

/-- A COLL record and its communicator, of two members, over one word; the peer of a transfer or a broadcast is member 1. -/
def collRec (opc : Byte) : List Byte :=
  bytesOf 192 [(0, opc), (4, if opc.toNat ∈ [3, 4, 5] then 1#8 else 0#8), (8, 1#8), (18, 0x05#8), (19, 0x20#8), (27, 0x40#8), (64, 2#8), (88, 64#8)]

/-- Such a command, as member 0, with what it has sent and received. -/
def collIs (opc : Byte) (copies : List (Nat × List Byte)) (msgs : List Msg) : Cmd :=
  { cmdIs .coll 4 none 0#32 0#64 (collRec opc) .running with copies, msgs }

/-- Its association has brought some payloads. -/
def chan0 (ds : List (List Byte)) : Assoc :=
  { key := 1, salt := 0#32, rxKey := 2, rxSalt := 0#32, tx := 5#64, rxHigh := 70#64, seen := [], fails := 0, drops := 0, barred := false, needRekey := false,
    sent := [], delivered := ds }

/-- The state of that. -/
def collS (c : Cmd) (ds : List (List Byte)) : State := { cmdS c with rot := { simt.rot with assocs := [(0, chan0 ds)] } }

/-- A block of member 1 in the first operation, with the fields given. -/
def msgOf (k : CollRec) : Msg := { rank := 1, n := 0, head := k.head, bytes := [1#8, 2#8, 3#8, 4#8] }

/-- A packet that is the only one delivered is taken. -/
theorem takeMsgs_one (c : Cmd) (m : Msg) (hu : c.u = 1) (hp : (collAt c.recb).places m = false) (hk : chanKey (collAt c.recb).chan = 0)
    (w : List Byte) (hw : w = Config.wireMsg ((collS c [w]).grid c.grid).asid c.bp.toNat m) :
    (collS c [w]).takeMsgs c [m] = some (collS c []) := by
  have hs : ((collS c [w]).unit c.u).slice = 0 := by rw [hu]; rfl
  have ht : (collS c [w]).takePacket 0 0 w = some (collS c []) := by
    show (if [w].contains w = true then some _ else none) = _
    rw [if_pos (by simp)]
    simp only [chan0, List.erase_cons_head]
    rfl
  simp only [State.takeMsgs, hp, hs, hk, ← hw, ht, Bool.false_eq_true, if_false, Option.bind_some]

/-- Whether its SEND can be read and leave. -/
def sendsMet (c : Cmd) (s : State) : Bool :=
  let k := collAt c.recb
  (!k.linked || s.portOpen (s.unit c.u).slice (chanKey k.chan)) && match s.engReadSpan c k.send k.sendLen with
    | (q, .ok send) => ((q.collFlit c).sendMessages c send).isSome
    | (_, .error _) => false

/-- CollectivesComplete: each operation takes a block of member 1 and sends; one that has sent takes a block; one whose fields differ; the
end. A put sends, and its acknowledgement comes. -/
theorem wit_collectives :
    ([0#8, 1#8, 2#8, 3#8, 5#8, 6#8].all fun o =>
      let c := collIs o [] []
      let m := msgOf (collAt c.recb)
      c.u == 1 && !((collAt c.recb).places m) && chanKey (collAt c.recb).chan == 0 && (collS c []).collReady 20 o.toNat == some c &&
        m.n == (collS c []).collNo c && (collAt c.recb).takes c.msgs [m] && sendsMet c (collS c []) &&
      let sent := collIs o [(0, [9#8, 8#8, 7#8, 6#8, 5#8, 4#8, 3#8, 2#8])] []
      (collAt sent.recb).takes sent.msgs [m] &&
      let all := { sent with msgs := [m] }
      collDone all && ((collS all []).runPlan all (all.left { locals := [], ops := collOps all })).2.2.isNone) = true ∧
    ([0#8, 1#8, 2#8, 3#8, 6#8].all fun o =>
      let k := collAt (collIs o [] []).recb
      k.matched && (msgOf { k with count := 2 }).head != k.head && (msgOf { k with count := 2 }).n == (collS (collIs o [] []) []).collNo (collIs o [] [])) = true ∧
    (let c := collIs 4#8 [] []
     (collS c []).collReady 20 4 = some c ∧ sendsMet c (collS c []) = true ∧
     let d := collIs 4#8 [(0, [0#8])] []
     d.u = 1 ∧ (collAt d.recb).places (ackMsg (collAt d.recb)) = false ∧ chanKey (collAt d.recb).chan = 0 ∧ d.ccnt = 0#64 ∧
       (collS d []).collReady 20 4 = some d) := by decide +kernel

/-- A packet that is the only one delivered at the slice's port is taken. -/
theorem takeAccess_one (s : State) (w : List Byte) (hs : s.rot.assocs = [(0, chan0 [w])]) :
    s.takeAccess 0 w = some (0, s.setAssoc 0 0 (chan0 [])) := by
  have h : List.find? (fun p : Nat × Assoc => p.1 / 2 ^ 24 == 0 && p.2.delivered.contains w) [(0, chan0 [w])] = some (0, chan0 [w]) :=
    List.find?_cons_of_pos (by simp [chan0])
  unfold State.takeAccess
  rw [hs, h]
  simp only [Option.map_some, chan0, List.erase_cons_head, Nat.zero_mod]

/-- Remote accesses: a frozen port; a put and a get in one line of the context's heap window, on an association that may answer. -/
theorem wit_remoteAccesses :
    (let s := collS (collIs 4#8 [] []) []
     (s.slice 0).part = some 0 ∧ (s.slice 0).srdy.getLsbD 8 = true ∧ (s.slice 0).srdy.getLsbD 9 = true ∧
     ((s.modSlice 0 fun y => { y with portFrozen := true }).slice 0).portFrozen = true ∧ (s.slice 0).portFrozen = false ∧
     lineChunks 0x40000040 64 = [(0x40000040, 64)] ∧
     ([(s.active 0, true), (s.modSlice 0 fun y => { y with portOut := [] }, false)].all fun q =>
       match q.1.permit 0 7 0 (BitVec.ofNat 64 0x40000040) 1 q.2 with
       | (r, .ok x) => !x.sn && x.ent.isNone && (Tab.find? r.rot.assocs (assocKey 0 0)).any (fun y => !y.barred && !y.needRekey) &&
           match (r.part 0).locate x.pa with
           | some l => r.lineReady l.key (x.pol == 2) && lineSound r l.key &&
               (r.raceTest (x.acc (.port 0) (r.order.clock (.port 0)) 0 l 64) q.2 none).isNone
           | none => false
       | _ => false) = true) := by decide +kernel

/-- A CKPT command's record with one shard of one word at 0x20060000, and the status word at the heap window's start. -/
def ckptRec (mode : Byte) (step : Byte) : List Byte :=
  bytesOf 256 [(0, mode), (4, 1#8), (8, step), (35, 0x40#8), (128, 5#8), (138, 0x06#8), (139, 0x20#8), (144, 4#8), (152, 1#8), (153, 4#8), (168, 1#8)]

/-- Such a command. -/
def ckptIs (mode step : Byte) (marked : List Nat) : Cmd := { cmdIs .ckpt 6 none 0#32 0#64 (ckptRec mode step) .running with marked }

/-- Whether its status word can be written. -/
def statusMet (c : Cmd) (s : State) (v : Nat) : Bool := (s.engWriteSpan c (fieldAt c.recb 32 8) (leBytes 8 v)).2.isNone

/-- The shard of step 7. -/
def shard7 : Shard :=
  { store := 0#32, tensor := 5#64, step := 7#64, replica := 0#32, ndim := 1, esz := 4, ranges := [(0, 1)], bytes := [1#8, 2#8, 3#8, 4#8],
    sha := 0#384, twin := none }

/-- The store holds it. -/
def storedS (c : Cmd) : State := { cmdS c with rot := { simt.rot with shards := [shard7] } }

/-- CheckpointsAndSealsRun: a page to copy; a save with nothing left to copy, all of it read back and none; a restore of a step that is
there, one of a step that is not, and one that has chosen before. -/
theorem wit_checkpoints :
    (let c := ckptIs 0#8 7#8 [0x20060000]
     c.marked.contains 0x20060000 = true ∧ c.pageParts 0x20060000 = [(0x20060000, 4)] ∧ (match (cmdS c).engCopy c 0x20060000 4 with
       | (_, .ok bs) => bs.length == 4
       | (_, .error _) => false) = true) ∧
    (let c := ckptIs 0#8 7#8 []
     statusMet c (cmdS c) 4 = true ∧ (saveShards (fieldAt c.recb 1 1 == 1) [] 0 (c.shards.map c.shardOf)).2 = true ∧
       (saveShards (fieldAt c.recb 1 1 == 1) [] 3 (c.shards.map c.shardOf)).2 = false ∧ statusMet c (storedS c) 0 = true ∧
       statusMet c (cmdS c) 2 = true) ∧
    (let c := ckptIs 1#8 8#8 []
     fieldAt c.recb 0 1 = 1 ∧ c.copies = [] ∧ statusMet c (storedS c) 4 = true ∧ (match chooseStep [shard7] c.shards c.step with
       | .error k => k == 3 && statusMet c (storedS c) 3
       | .ok _ => false) = true) ∧
    (let c := ckptIs 1#8 7#8 []
     let writes := fun (y : State) (ws : List (Nat × List Byte)) =>
       match y.runPlan c (c.left { locals := [], ops := restoreOps ws }) with
       | (r, _, none) => statusMet c r 0
       | (_, _, some _) => false
     (match chooseStep [shard7] c.shards c.step with
      | .ok step =>
        let ws := restoreLines ([shard7].filter fun x => x.step == step) c.shards
        ws == [(0x20060000, [1#8, 2#8, 3#8, 4#8])] && writes ((storedS c).modCmd 20 fun x => { x with copies := ws }) ws
      | .error _ => false) = true) ∧
    (let c := { ckptIs 1#8 7#8 [] with copies := [(0x20060000, [1#8, 2#8, 3#8, 4#8])] }
     (match (storedS c).runPlan c (c.left { locals := [], ops := restoreOps c.copies }) with
      | (r, _, none) => statusMet c r 0
      | (_, _, some _) => false) = true) := by decide +kernel

/-- The warp's seal context is to be voided with reason 3. -/
def sealS : State :=
  simt.modUnit 1 fun w => { w with sealCtx := some { key := 0#32, area := 0x50000000#64, bytes := [], void := some 3, bad := 0#32 } }

/-- A seal context that is voided; no byte of its area can be written. -/
theorem wit_sealVoid :
    (sealS.unit 1).sealCtx = some { key := 0#32, area := 0x50000000#64, bytes := [], void := some 3, bad := 0#32 } ∧
    sealS.mayStart 1 = true ∧ (sealS.slice (sealS.unit 1).slice).srdy.getLsbD 10 = true ∧ sealS.cmds = [] ∧
    ((({ sealS with nextId := sealS.nextId + 1, cmds := [sealS.voidCmd 1] } : State).bearAgent (sealS.voidCmd 1).agent
      (sealS.voidCmd 1).start).voidSeal (sealS.voidCmd 1) 3).2 = none := by
  decide +kernel

/-! ### Hypotheses met: records, placing, registers -/

/-- A launch record of one team of one thread at the image of one word: quota 16, R 4, T windows none, the counter and the threshold
given. -/
def recOf (prio : Byte) (ctr dep : Nat) : List Byte :=
  bytesOf 128 [(2, 0x04#8), (3, 0x20#8), (12, 0xFF#8), (13, 0xFF#8), (14, 0xFF#8), (15, 0xFF#8), (16, 1#8), (20, 1#8), (24, 1#8), (28, 1#8),
    (30, 1#8), (31, 1#8), (32, 16#8), (33, prio), (34, 4#8), (36, 2#8), (48, BitVec.ofNat 8 (ctr % 256)), (49, BitVec.ofNat 8 (ctr / 256 % 256)),
    (50, BitVec.ofNat 8 (ctr / 65536)), (51, 0#8), (56, BitVec.ofNat 8 (dep % 256)), (57, BitVec.ofNat 8 (dep / 256 % 256)), (58, BitVec.ofNat 8 (dep / 65536)),
    (112, 0xFF#8), (113, 0xFF#8), (114, 0xFF#8), (115, 0xFF#8), (116, 0xFF#8), (117, 0xFF#8), (118, 0xFF#8), (119, 0xFF#8)]

/-- A queue with one record ahead: TAIL is 1. -/
def queueS (b : List Byte) : State :=
  let s := (simt.modPart 0 fun p => { p with queues := [{ qid := 1, asid := 7, ring := 0x20070000, logsz := 4, primax := 47, tail := 0x30000, head := 0x30800, n := 0 }] })
  (s.writeBytes 0x30000 [1#8]).writeBytes 0x70000 b

/-- The reason for which a record is refused, if it is; 99 where the slot controller does not know yet. -/
def checked (s : State) (asid primax : Nat) (b : List Byte) : Option Nat := match (s.checkRecord 0 asid primax b).2 with
  | .ok _ => none
  | .error (.refused k) => some k
  | .error _ => some 99

/-- What the record of a queue comes to, once it has been taken. -/
def taken (s : State) : Option (Option Nat) :=
  let ag := Agent.slotCtl 0
  match (s.part 0).queues.find? fun x => x.qid == 1 with
  | none => none
  | some q => match s.ctlCounter 0 q.asid q.tail with
    | (r, some tail) =>
      let slot := q.ring + 128 * (q.n % 2 ^ q.logsz)
      let (r0, bad) := r.reachCtr tail
      if bad || !(r0.slotUp 0) || !tail.ready || !(decide (q.n < (r0.counterVal tail.key).toNat)) || r0.copyWaits 0 q.asid slot ||
        (r0.ctlCounter 0 q.asid q.head).2.any (fun h => !h.ready) then none
      else match (acquireAt r0 ag 2#2 tail.loc).copyRecord 0 q.asid slot with
        | (r', some b) => match r'.ctlCounter 0 q.asid q.head with
          | (r'', some head) =>
            let now := (releaseAt (r''.counterAdd 0 0 head 1#64) ag 2#2 head.loc).modQueue 0 1 fun x => { x with n := x.n + 1 }
            some (checked now q.asid q.primax b)
          | (_, none) => none
        | (_, none) => some (some 1)
    | (_, none) => none

/-- A child record that waits on slice 0. -/
def childS (b : List Byte) : State := simt.modSlice 0 fun y => { y with childQ := [{ recb := b, depth := 1, prio := 10, parent := 3, vc := [] }] }

/-- RecordsAreTaken: a record that is accepted and one whose priority is past the queue's; a child record likewise. -/
theorem wit_records :
    taken (queueS (recOf 47#8 0 0)) = some none ∧ taken (queueS (recOf 48#8 0 0)) = some (some 5) ∧
    ((childS (recOf 39#8 0 0)).slice 0).part = some 0 ∧ (childS (recOf 39#8 0 0)).slotUp 0 = true ∧
    taken ((queueS []).modPart 0 fun p => { p with queues := p.queues.map fun x => { x with ring := 0x50000000 } }) = some (some 1) ∧
    checked ((childS (recOf 39#8 0 0)).modSlice 0 fun y => { y with childQ := [] }) 7 39 (recOf 39#8 0 0) = none ∧
    checked ((childS (recOf 40#8 0 0)).modSlice 0 fun y => { y with childQ := [] }) 7 39 (recOf 40#8 0 0) = some 5 := by decide +kernel

/-- Grid 4 beside what runs. -/
def gridS (g : Grid) : State := { simt with grids := Tab.put simt.grids 4 g }

/-- It has been accepted and waits for a counter, or not, and for a page that is not resident. -/
def acceptedG (dep : Nat) : Grid := { Grid.init with st := .accepted, asid := 7, prio := 10, recb := recOf 10#8 0 dep, ranges := [(0x50000000, 65536)] }

/-- It is over, with a completion counter. -/
def overG (ctr : Nat) : Grid := { Grid.init with st := .eligible, asid := 7, recb := recOf 10#8 ctr 0, placed := 1, ended := 1 }

/-- A residency request. -/
def pgreqS (va : Nat) (ctr : Option Nat := some 0x30000) : State := simt.modPart 0 fun p => { p with pgreqs := [{ id := 1, asid := 7, va, len := 65536, ctr, grid := 3 }] }

/-- An event that waits for the ring. -/
def ringS : State := simt.modPart 0 fun p => { p with ring := some { addr := 0x80000, logsz := 4, prod := 0x90000 }, events := [eventRec 5 0 0 0 3 0 0 0] }

/-- The page of the first image has been named by `.evict`. -/
def advisedS : State := simt.modPart 0 fun p => { p with advice := [{ asid := 7, va := 0x20000000, len := 65536, kind := 1 }] }

/-- GridsAndResidencyAdvance: a dependence that is not there, one that is met with threshold 0; a grid without a counter, with one, and
with a page that holds none; an event; a valid range and one that is not, and a request without a counter; a range that may go. -/
theorem wit_grids :
    ((gridS (acceptedG 0)).grid 4).st = .accepted ∧ fieldAt (acceptedG 0).recb 0x38 8 = 0 ∧ fieldAt (acceptedG 0x30000).recb 0x38 8 = 0x30000 ∧
    ([0, 0x30000].all fun d => let s := gridS (acceptedG d)
      s.slotUp 0 && match s.ctlCounter 0 7 0x30000 with
        | (q, some c) =>
          let (r, bad) := if d = 0 then (s, false) else q.reachCtr c
          c.ready && !bad && decide (fieldAt (acceptedG d).recb 0x40 8 ≤ (r.counterVal c.key).toNat) && r.tablesReady 0 7 0x50000000 65536 &&
            (r.firstInvalid (r.part 0) ((r.part 0).ctx 7) 0x50000000 65536).isNone
        | (_, none) => false) = true ∧
    ([0, 0x30008, 0x10003].all fun k => (gridS (overG k)).gridOver 4 && (gridS (overG k)).slotUp 0) = true ∧
    (match (gridS (overG 0x30008)).ctlCounter 0 7 0x30008 with
     | (_, some c) => c.ready
     | (_, none) => false) = true ∧
    ((gridS (overG 0x10003)).ctlCounter 0 7 0x10003).2 = none ∧
    (ringS.part 0).ring.isSome = true ∧ ringS.slotUp 0 = true ∧ ((ringS.part 0).prod + 2 ^ 64 - (ringS.part 0).sccons.toNat) % 2 ^ 64 ≠ 2 ^ 4 ∧
    ringS.physReady 0 0x80000 32 = true ∧ ringS.physReady 0 0x90000 8 = true ∧
    ([0x50000000, 0x70000000].all fun va => (pgreqS va).tablesReady 0 7 va 65536) = true ∧
    ((pgreqS 0x50000000 none).part 0).pgreqs.all (fun q => q.ctr.isNone) = true ∧
    (pgreqS 0x50000000).firstInvalid ((pgreqS 0x50000000).part 0) (((pgreqS 0x50000000).part 0).ctx 7) 0x50000000 65536 = none ∧
    (match ((pgreqS 0x50000000).makeResident 0 7 0x50000000 65536).ctlCounter 0 7 0x30000 with
     | (_, some c) => c.ready
     | (_, none) => false) = true ∧
    ((pgreqS 0x70000000).firstInvalid ((pgreqS 0x70000000).part 0) (((pgreqS 0x70000000).part 0).ctx 7) 0x70000000 65536).isSome = true ∧
    advisedS.mayEvict 0 7 0x20000000 65536 = true ∧ advisedS.tablesReady 0 7 0x20000000 65536 = true ∧ advisedS.slotUp 0 = true ∧
    (advisedS.part 0).advice.all (fun a => a.kind != 2) = true := by decide +kernel

/-- It waits for a core; core 5 holds its image in one slot. -/
def placeS (slot : Nat) : State :=
  let img : Ovl := { tag := some 0x20040000, code := [0#32] }
  (gridS { acceptedG 0 with st := .eligible, ranges := [] }).modCore 5 fun c => if slot = 0 then { c with ov0 := img } else { c with ov1 := img }

/-- A record of one operation for a grid stands in the slot table of slice 0. -/
def bindS (s : State) (op grid : Nat) (cores : DWord) (n : Nat) : State :=
  s.modSlice 0 fun y => { y with binds := [(0, { op, prio := 10, qcls := 0, v := true, grid, cores, team0 := 0, nteam := n, record := 0, context := 0 })] }

/-- The team stands alone on its core, its warp withdrawn. -/
def leavingS : State :=
  { simt with units := [(1, { warp0 with wd := .preparing })], grids := [(3, { grid0 with recb := recOf 10#8 0 0 })] }

/-- The warp runs its handler with the trap masked, at its second word. -/
def maskedS : State := leavingS.modLanes 1 1#32 fun _ t => { t with trapMode := true, mask := true, pc := 0x24#32 }

/-- The team is saved. -/
def savedS : State := ({ leavingS with units := [(1, { warp0 with wd := .saved })] } : State).modTeam 2 fun t => { t with st := .saved }

/-- TeamsArePlacedAndMove: a grid for which there is room; a place record on a core that holds the image in slot 0 and in slot 1; a time
slice that ends alone; a withdrawal; a team that can be saved; a handler past the grace window; a return. -/
theorem wit_teams :
    (placeS 0).slotUp 0 = true ∧ ((placeS 0).part 0).stalled = false ∧ (placeS 0).wants 4 = true ∧
    ((placeS 0).gridOrder 0 fun h => h.st == .eligible) = [3, 4] ∧ (placeS 0).wants 3 = false ∧
    (match (placeS 0).bestPlan 3 with
     | some (vs, p) => ((placeS 0).chosen 3 vs p).isNone
     | none => true) = true ∧
    (placeS 0).bringRanges 4 = some (placeS 0, true) ∧ ((placeS 0).grid 4).ranges = [] ∧
    (match (placeS 0).bestPlan 4 with
     | some (vs, p) => ((placeS 0).writePlan 4 vs p).isSome
     | none => false) = true ∧
    ([0, 1].all fun k => let s := bindS (placeS k) 1 4 0x20#64 1
      (match s.bindAt 0 0 1 with
       | some b => b.grid == 4 && b.coreList == [5] && b.nteam == 1
       | none => false) && !((s.grid 4).closed) && decide (0 < s.coreRoom 4 [] 0 5) && !(recReck (s.grid 4).recb) &&
      ((s.startSlice 4).bindDone 0 0).pickSlot 5 0x20040000 [] == some k &&
      (if k = 0 then (s.core 5).ov0 else (s.core 5).ov1).tag == some 0x20040000) = true ∧
    quantum (fieldAt (simt.grid 3).recb 0x27 1) = some 3000000 ∧ simt.gridCores 3 ≠ [] ∧
    (simt.grid 3).since.toNat + 3000000 ≤ (simt.cornerClk 0).toNat ∧
    ((bindS simt 2 3 1#64 0).bindAt 0 0 2).isSome = true ∧ (bindS simt 2 3 1#64 0).saveRoom ((bindS simt 2 3 1#64 0).grid 3) [] = true ∧
    (maskedS.unit 1).live = true ∧ (maskedS.unit 1).halted = false ∧ (maskedS.part 0).stalled = false ∧
    (maskedS.unit 1).lanesWhere allLanes (fun t => t.pend.isSome) = 0#32 ∧
    ([2].all fun x => (leavingS.team x).warps.all fun y => leavingS.prepared y && allLanes.toNat.testBit 0 &&
      (List.range 32).all fun l => !((leavingS.unit y).lane l).inRegion) = true ∧
    (leavingS.team 2).st = .placed ∧ leavingS.clusterReck 3 0 0 = none ∧ leavingS.prepared 1 = true ∧ (leavingS.unit 1).live = true ∧
    maskedS.lingers 1 = true ∧ (maskedS.unit 1).wd = .preparing ∧ (maskedS.unit 1).wdAt.toNat + 300000 ≤ (maskedS.clk (maskedS.unit 1)).toNat ∧
    (let s := bindS savedS 3 3 1#64 0
     (s.bindAt 0 0 3).isSome = true ∧ s.savedRecks 3 = [] ∧ s.savedTeams 3 = [2] ∧
       ([0].foldl (fun y c => y.returnTo 3 0 c) (s.startSlice 3)).savedTeams 3 = []) ∧
    (savedS.team 2).warps = [1] ∧
    (∀ k ∈ leavingS.cmds, k.team ≠ 2) ∧ leavingS.cores.all (fun p => p.2.mq.all fun o => !((leavingS.team 2).warps.contains o.u) && o.bTeam != 2) = true ∧
    (let s := { bindS savedS 3 3 1#64 1 with grids := [(3, { grid0 with recb := (recOf 10#8 0 0).set 0x26 1#8 })] }
     recWhole (s.grid 3).recb = true ∧ (s.bindAt 0 0 3).map (·.nteam) = some 1 ∧ s.savedTeams 3 = [2] ∧
       ([0].foldl (fun y c => y.returnTo 3 0 c) (s.startSlice 3)).savedTeams 3 = []) := by decide +kernel

/-- No grid waits but those that are listed. -/
theorem wit_timeSlice : ∀ i, i ≠ 3 → simt.wants i = false := by
  intro i hi
  have h : simt.grid i = Grid.init := if_neg fun h => hi h.symm
  simp [State.wants, h, Grid.init]

/-- A slice whose functions are not ready, owned by partition 0. -/
def freshSlice : State := State.reset.modSlice 1 fun y => { y with srdy := 4#32 }

/-- RegistersAreWritten, SlicesAreControlled: each register's clause, at its first and its last offset. -/
theorem wit_registers :
    (simt.slice 0).part = some 0 ∧ (simt.slice 0).srdy.getLsbD 2 = true ∧ (simt.part 0).slices.contains (0x80000007 / 8 % 32) = true ∧ (0x80FFFFFF#64).getLsbD 30 = false ∧
    (0x100 - 0x100) / 32 < (simt.part 0).ranges.length ∧ rangeWithin range0 (simt.part 0).slices = true ∧
    rangeWithin { range0 with stk := 0xFFFFFFFFFFFF#64 } (simt.part 0).slices = false ∧
    (0xC00186A0#32).getLsbD 30 = true ∧ ((simt.part 0).slices.all fun k => !((simt.slice k).relPend)) = true ∧
    ((simt.modPart 0 fun p => { p with stalled := true }).part 0).stalled = true ∧ simt.moving 0 = false ∧ (simt.slice 0).srBusy = false ∧ simt.cmds = [] ∧
    State.reset.powered = true ∧ State.reset.srdyBit 23 2 = true ∧ (State.reset.slice 23).srdy.getLsbD 2 = false ∧
    freshSlice.srdyBit 1 31 = true ∧ (freshSlice.slice 1).srdy.getLsbD 31 = false ∧ (freshSlice.slice 1).srdy.getLsbD 2 = true := by decide +kernel

/-- No unit of the device is frozen. -/
theorem wit_unfrozen : ∀ u, (simt.unit u).frozen = none := by
  intro u
  have h : simt.unit u = if 1 = u then warp0 else if 4 = u then reck0 else Warp.init := rfl
  rw [h]
  split
  · rfl
  · split <;> rfl

/-- A command block of the slot controller at 0x70000, and the queue's descriptor at 0x70800. -/
def blockS (op : Byte) (fields : Tab Byte) : State :=
  let s : State := simt.modPart 0 fun p => { p with ctxs := [{ ctx0 with desc := 0x71000 }], queues := [{ qid := 1, asid := 7, ring := 0, logsz := 4, primax := 0, tail := 0, head := 0, n := 0 }] }
  (((s.writeBytes 0x70000 (bytesOf 64 ((0, op) :: fields))).writeBytes 0x70800 (bytesOf 64 [(8, 4#8), (24, 0x08#8), (26, 0x03#8)])).writeBytes 0x71000
    (bytesOf 128 [(0x1A, 1#8), (0x20, 7#8)]))

/-- A reload of the context is under way. -/
def reloadS : State := simt.modPart 0 fun p => { p with tlbinv := 0xC000000000000007#64, ctxs := [{ ctx0 with desc := 0x71000 }] }

/-- TranslationsAndSlotCommandsAct: TLBINV with each OP, and one that runs; each command with its block. -/
theorem wit_translations :
    (simt.part 0).tlbinv.getLsbD 63 = false ∧ ([0, 1, 2, 3].all fun op => BitVec.toNat (BitVec.ofNat 64 (op * 2 ^ 61)) / 2 ^ 61 % 4 == op) = true ∧
    ((simt.modPart 0 fun p => { p with tlbinv := 0x8000000000000000#64 }).part 0).tlbinv.getLsbD 63 = true ∧
    ([blockS 1#8 [(9, 8#8), (10, 7#8), (17, 0x10#8), (18, 7#8)], blockS 2#8 [(4, 1#8)], blockS 2#8 [(4, 2#8)], blockS 3#8 [(10, 8#8), (24, 16#8), (34, 9#8)]].all fun s =>
      let now := s.writeSccmd 0 0x70000#64
      !((s.part 0).scstat.getLsbD 0) && now.slotUp 0 && now.physReady 0 0x70000 64 && match now.scBlock 0 with
      | (r, some b) => scBlockOk b &&
        (if fieldAt b 0 1 = 1 then
          r.physReady 0 (fieldAt b 8 8) 64 && r.physReady 0 (fieldAt b 16 8) 128 && (match r.physRead 0 (fieldAt b 8 8) 64 with
           | (r1, some q) => queueOk q && decide ((r1.part 0).queues.length < 1024) && (match r1.bringCtx 0 (fieldAt b 16 8) with
             | (r2, some asid) => match r2.ctlCounter 0 asid (fieldAt q 24 8) with
               | (r3, some c) => c.ready && !((r3.reachCtr c).2)
               | (_, none) => false
             | (_, none) => false)
           | (_, none) => false)
         else if fieldAt b 0 1 = 2 then true
         else fieldAt b 8 8 % 4096 == 0 && decide (4 ≤ fieldAt b 24 1) && decide (fieldAt b 24 1 ≤ 16) && fieldAt b 32 8 % 8 == 0)
      | (_, none) => false) = true ∧
    ((blockS 4#8 []).writeSccmd 0 0x70000#64).slotUp 0 = true ∧
    (match ((blockS 4#8 []).writeSccmd 0 0x70000#64).scBlock 0 with
     | (_, some b) => !(scBlockOk b)
     | (_, none) => false) = true ∧
    ((blockS 4#8 []).part 0).sccmd = 0#64 ∧ (reloadS.part 0).tlbinv.toNat / 2 ^ 61 % 4 = 2 ∧
    reloadS.physReady 0 ((reloadS.part 0).ctx ((reloadS.part 0).tlbinv.toNat % 65536)).desc 128 = true := by decide +kernel

/-- The partition's monitor has run its window, with the activity given. -/
def windowS (a : Bool) : State := simt.modPart 0 fun p => { p with activity := a }

/-- A debugger is attached to the grid. -/
def debugS (halted : Bool) (was : Option (Bool × Bool)) : State :=
  ((simt.modGrid 3 fun g => { g with debug := true }).modUnit 1 fun w => { w with halted }).modLanes 1 1#32 fun _ t => { t with pend := was }

/-- MonitorAndDebuggerAct. -/
theorem wit_monitor :
    ([true, false].all fun a => let s := windowS a
      (s.part 0).live && (s.part 0).pmctl.getLsbD 31 && !((s.part 0).stalled) && s.monitored 0 && (s.part 0).activity == a && s.snapReady 0 &&
      decide ((s.part 0).pmAt.toNat + 3000 * Nat.max 1 ((s.part 0).pmctl.toNat % 2 ^ 24) ≤ (s.slice (s.part 0).corner).clk.toNat)) = true ∧
    (simt.unit 1).live = true ∧ (simt.unit 1).halted = false ∧ simt.holdsToken 1 = false ∧
    ((debugS true none).grid 3).debug = true ∧ ((debugS true none).unit 1).halted = true ∧ (((debugS true none).unit 1).lane 0).pend = none ∧
    (((debugS false (some (false, false))).unit 1).lane 0).pend = some (false, false) ∧ (simt.unit 1).u.tvec ≠ 0xFFFFFFFF#32 ∧
    (simt.grid 3).st = .eligible ∧ ((simt.modPart 0 fun p => { p with stalled := true }).part (simt.grid 3).part).stalled = true := by decide +kernel

/-! ### Hypotheses met: partitions, the root of trust, stacks and harts -/

/-- Power has come up and the root of trust answers; no partition is there. -/
def rotS : State := State.reset.modSlice 0 fun y => { y with srdy := 0x0FFFFFFF#32 }

/-- A resize of partition 0 by one slice, to be joined or to leave. -/
def resizeS (add : Bool) : State :=
  simt.modPart 0 fun p => { p with resize := some { add, x0 := 0, x1 := 1, y0 := 0, y1 := 0, todo := [if add then 1 else 0] } }

/-- PartitionsChange: the smallest rectangle and the whole die; a boot; a rectangle that grows and one that cannot; both kinds of step; an
end. -/
theorem wit_partitions :
    rotS.rotUp = true ∧ (rotS.part 0).live = false ∧
    ([rectSlices 0 0 0 0, rectSlices 0 5 0 3].all fun l => l.all fun i => rotS.sliceOpen i) = true ∧
    (let s := simt.modPart 0 fun p => { p with kernelUp := false }
     s.rotUp = true ∧ (s.part 0).live = true ∧ (s.part 0).kernelUp = false ∧ (s.part 0).bootFail = false ∧ (s.slice (s.part 0).corner).srdy.getLsbD 3 = true ∧
       ((s.part 0).slices.any fun i => (s.slice i).srdy.getLsbD 8 && (s.slice i).srdy.getLsbD 9 && !((s.slice i).portFrozen)) = true) ∧
    simt.rotUp = true ∧ (simt.part 0).kernelUp = true ∧ (simt.part 0).resize = none ∧
    (simt.part 0).resized true .right = some (0, 1, 0, 0) ∧ simt.sliceOpen 1 = true ∧ (simt.slice 1).st = .free ∧ (simt.slice 1).part = none ∧
    ({ simt.part 0 with x1 := 1 } : Part).resized false .left = some (1, 1, 0, 0) ∧
    (reRange (simt.part 0).ranges fun x => x ||| sliceStacks 1).isSome = true ∧ (resizeS true).rotUp = true ∧
    (match ((resizeS true).part 0).resize with
     | some z => z.todo == [1] && z.add
     | none => false) = true ∧ ((resizeS false).slice 0).placing = true := by decide +kernel

/-- Partition 0 on slices 0 and 1, all of them up, with a resize by slice 1, to be joined or to leave; nothing stands on slice 1. -/
def pairS (add : Bool) : State :=
  ((resizeS add).modSlice 1 fun y => { y with st := .owned, part := some 0, srdy := 0x0FFFFFFF#32, placing := false }).modPart 0 fun p =>
    { p with slices := [0, 1], x1 := 1, ranges := if add then p.ranges else [{ range0 with stk := 5#64 }],
             resize := some { add, x0 := 0, x1 := if add then 1 else 0, y0 := 0, y1 := 0, todo := [1] } }

/-- PartitionsChange, the later steps of a resize: lines go onto a slice that has joined, and from one that is empty. -/
theorem wit_resize :
    (pairS true).rotUp = true ∧ (pairS true).linesMove ((pairS true).part 0) = true ∧
    (reRange ((pairS true).part 0).ranges fun x => x ||| sliceStacks 1).isSome = true ∧
    1 ∈ ((pairS true).part 0).slices ∧ 1 ∉ ((resizeS true).part 0).slices ∧
    ((pairS false).slice 1).placing = false ∧ (pairS false).standing 1 = false ∧ (pairS false).sliceEmpty 1 = true ∧
    ((pairS false).slice 1).srBusy = false ∧ (pairS false).linesMove ((pairS false).part 0) = true ∧
    (reRange ((pairS false).part 0).ranges fun x => if x &&& ~~~(sliceStacks 1) = 0#64 then 3#64 else x &&& ~~~(sliceStacks 1)).isSome = true := by decide +kernel

/-- A slice that is being scrubbed. -/
def scrubS (chunk : Nat) : State := rotS.modSlice 0 fun y => { y with st := .scrubbing, chunk }

/-- An association between a port and a peer. -/
def assoc0 : Assoc :=
  { key := 1, salt := 0#32, rxKey := 2, rxSalt := 0#32, tx := 5#64, rxHigh := 70#64, seen := [70#64], fails := 7, drops := 0, barred := false, needRekey := false,
    sent := [(4#64, [1#8])], delivered := [] }

/-- It is listed, and the transport key that it stands on is live. -/
def chanS (x : Assoc) : State :=
  { simt with rot := { simt.rot with assocs := [(assocKey 0 1023, x)],
                                     keys := [{ handle := 1023#32, seq := 0#64, alg := 0, dead := false, part := 0 }] } }

/-- A key of partition 0. -/
def keyS : State := { simt with rot := { simt.rot with keys := [{ handle := 0x03000000#32, seq := 0#64, alg := 1, dead := false, part := 0 }] } }

/-- ScrubAndPower, RootOfTrustKeeps, SpdmIsAnswered, PacketsAndRekeys. -/
theorem wit_rootOfTrust :
    ([0, 2047].all fun c => (scrubS c).rotUp && ((scrubS c).slice 0).st == .scrubbing && ((scrubS c).slice 0).srdy.getLsbD (5 + c / 1024) &&
      (scrubS c).banksOpen (c / 1024)) = true ∧
    State.reset.powered = true ∧ State.reset.rot.standby = false ∧
    (match exec .powerFail State.reset with
     | .next t => t.powered == false
     | _ => false) = true ∧
    simt.rotUp = true ∧ (simt.part 0).live = true ∧ simt.rot.freeIndex < 2 ^ 24 ∧ (simt.part 0).kernelUp = true ∧
    keyS.rot.freeIndex = 1 ∧ (∃ k ∈ keyS.rot.keys, (k.part = 0 ∧ k.handle.toNat % 2 ^ 24 = 0 ∧ k.handle.toNat / 2 ^ 24 % 4 = (3#2).toNat) ∧ k.dead = false) ∧
    4095 % 4096 + 1 ≤ 4096 ∧
    ((simt.slice 0).srdy.getLsbD 8 && (simt.slice 0).srdy.getLsbD 9 && !((simt.slice 0).portFrozen)) = true ∧ certSlot0 [0x13#8, 0x82#8, 0#8] = true ∧
    ((simt.modPart 0 fun p => { p with spdm := { p.spdm with phase := 3 } }).part 0).spdm.phase = 3 ∧
    (chanS assoc0).assocAt 0 1023 = some assoc0 ∧ Tab.find? (chanS assoc0).rot.assocs (assocKey 0 1023) = some assoc0 ∧
    (chanS { assoc0 with barred := true, sent := [] }).rotUp = true ∧ (chanS assoc0).chanHandle 0 1023 = true ∧
    assoc0.barred = false ∧ assoc0.needRekey = false ∧ (∃ p ∈ assoc0.sent, p.1 = 4#64) ∧ assoc0.fresh 70#64 = false ∧ assoc0.fresh 5#64 = false ∧
    assoc0.fresh 6#64 = true ∧ assoc0.fresh 71#64 = true ∧ ((chanS assoc0).slice 0).portFrozen = false ∧
    ((chanS { assoc0 with barred := true }).slice 0).part.isSome = true := by decide +kernel

/-- A packet to the last line below the metadata region. -/
def pkt0 : Packet :=
  { stack := 0, line := 0x1FF7FFFF, tag := 1023#10, off := 124, smask := 7#4, layout := 0#2, comp := false, acls := 0#2, aop := .add, x := 1#64, y := 0#32, data := [] }

/-- The stack with a row due and a blocked bank. -/
def stackS : State :=
  ({ simt with tick := 2 } : State).modStack 0 fun t => { t with due := [(bankKey (pktAddr pkt0) * 8192 + 1, 1)], blocked := [(5, 0#64)] }

/-- A line with an error in each half, beyond correction in the second. -/
def eccS (n : Nat) : State := { simt with ecc := [(0, 1), (1, n)] }

/-- StackRequestsAreServed, StacksAreMaintained. -/
theorem wit_stacks :
    simt.stackUp 0 = true ∧ pkt0.line < 2 ^ 29 ∧ 128 * pkt0.line < 0xFFC000000 ∧ (simt.stack 0).held = [] ∧
    (simt.stack 0).shut (bankKey (pktAddr pkt0)) (simt.tick + 1) = false ∧ simt.poisoned (pktKey pkt0 / 128) = false ∧
    Tab.get 0 simt.ecc (2 * (pktKey pkt0 / 128)) = 0 ∧ Tab.get 0 simt.ecc (2 * (pktKey pkt0 / 128) + 1) = 0 ∧
    pkt0.off % atomSize pkt0.aop = 0 ∧ pkt0.off + atomSize pkt0.aop ≤ 128 ∧ ({ pkt0 with line := 2 ^ 29 - 1 } : Packet).line < 2 ^ 29 ∧
    (stackS.stack 0).shut (bankKey (pktAddr pkt0)) (stackS.tick + 1) = true ∧
    Tab.find? (stackS.stack 0).blocked (bankKey (pktAddr pkt0)) = none ∧
    (List.find? (fun p => p.1 / 8192 == bankKey (pktAddr pkt0)) (stackS.stack 0).due).isSome = true ∧
    Tab.find? (stackS.stack 0).blocked 5 = some 0#64 ∧ (0#64).toNat + 570 ≤ (stackS.slice 0).clk.toNat ∧ (stackS.stack 0).held = [] ∧
    (simt.stack 0).win.toNat + 96000000 ≤ (simt.slice 0).clk.toNat ∧ lineSound simt 0 = true ∧ lineSound (eccS 2) 0 = false ∧
    (eccS 2).poisoned 0 = false := by decide +kernel

/-- Harts 0 to 7 of the slice, before they make an access; a root table at 0x200000 maps what lies below 2^48 to itself. -/
def hostS : State :=
  ((simt.modPart 0 fun p => { p with ctxs := [] }).writeBytes 0x200000 [0x43#8]).modHart 7 fun x =>
    { x with reply := [], fault := false, pageFault := false, halted := false }

/-- Whether a place can be loaded from, stored to and updated by hart 7. -/
def hostFree (s : State) (x : HostPlace) (n : Nat) : Bool := match (s.part 0).locate x.pa with
  | none => false
  | some l =>
    let a : Acc1 := { agent := .hart 0 7, clock := s.order.clock (.hart 0 7), loc := locOf 0 x.pa, key := l.key, len := n, k := false,
                      unc := x.unc, cls := l.cls, comp := l.comp, bias := 31, req := Req.free }
    (regSlice x.pa).isNone && s.lineReady l.key x.unc && lineSound s l.key && !(s.snapHeld 0 x.pa) && (s.raceTest a false none).isNone &&
      (s.raceTest a true none).isNone && (s.raceTest a true (some 2#2)).isNone && (s.raceTest a false (some 2#2)).isNone

/-- HostAccessesArePerformed: memory at the end of the range, and the same through tables; a page that they do not map; an address outside
the range; the last slice's register block; a hart that holds a reservation and one that does not. -/
theorem wit_hosts :
    (hostS.part 0).live = true ∧ (hostS.part 0).kernelUp = true ∧ (hostS.part 0).slices.contains (7 / 8) = true ∧
    (hostS.slice (7 / 8)).srdy.getLsbD 3 = true ∧ (Tab.get Hart.init hostS.harts 7).frozen = false ∧
    ([none, some 0x200000].all fun via => match hostS.hostPlace (hostS.part 0) via 0xFFFFFFFC false with
      | (r, .ok x) => x.pa == 0xFFFFFFFC && hostFree r x 4
      | _ => false) = true ∧
    lineChunks 0xFFFFFFFC 4 = [(0xFFFFFFFC, 4)] ∧ 0xFFFFFFFC % 4 = 0 ∧
    (match hostS.hostPlace (hostS.part 0) (some 0x200000) (2 ^ 48) false with
     | (_, .pageFault) => true
     | _ => false) = true ∧
    (7, 0xFFFFFFFC, 4) ∈ ({ hostS with resv := [(7, 0xFFFFFFFC, 4)] } : State).resv ∧ hostS.resv = [] ∧
    regSlice 0x100000000 = none ∧ (hostS.part 0).locate 0x100000000 = none ∧ lineChunks 0x100000000 128 = [(0x100000000, 128)] ∧
    regSlice 0x000FFF0000000018 = some 0 ∧ 0x000FFF0000000018 % 8 = 0 ∧ (hostS.slice 0).srdy.getLsbD 2 = true := by decide +kernel

/-! ### Single steps (the results are the spec's worked examples, or follow from the rule named) -/

/-- The state after one instruction; the reset state where it does not go on. -/
def after (i : Instr) (s : State) : State := match exec i s with
  | .next t => t
  | .fault _ | .refused _ => State.reset

/-- A register of a lane, and the warp's flags. -/
def vOf (s : State) (l n : Nat) : Word := ((s.unit 1).lane l).getV n
def fsrOf (s : State) : Word := (s.unit 1).u.fsr
def sOf (s : State) (n : Nat) : Word := (s.unit 1).u.getS n

/-- Registers of lane 0 and of lane 1. -/
def lanesS (a b : Tab Word) : State :=
  (simt.modLanes 1 1#32 fun _ t => { t with v := a }).modLanes 1 2#32 fun _ t => { t with v := b }

/-- Both lanes hold the same; format slots 0 to 4 are E4M3, E5M2, E2M3, I8, and N4 with a Gleyr scale and an automatic type. -/
def regs (a : Tab Word) : State :=
  (lanesS a a).modGrid 3 fun g => { g with recb := bytesOf 128 [(0x50, 3#8), (0x54, 4#8), (0x58, 6#8), (0x5C, 9#8), (0x60, 0x28#8), (0x61, 1#8)] }

/-- v5 and the flags after an instruction that has v3 and v4 as its sources. -/
def gives (i : Instr) (x y : Word) : Word × Word :=
  let t := after i (regs [(3, x), (4, y)])
  (vOf t 0 5, fsrOf t)

/-- R87: −2³¹ × 3. The result is in L0 too, and the old L0 in L1 (R28). -/
theorem test_imulh :
    (gives (.imulh 7#3 (.reg 5) (.reg 3) (.reg 4)) 0x80000000#32 3#32).1 = 0xFFFFFFFE#32 ∧
    (gives (.imul 7#3 (.reg 5) (.reg 3) (.reg 4)) 0x80000000#32 3#32).1 = 0x80000000#32 ∧
    (gives (.imulhu 7#3 (.reg 5) (.reg 3) (.reg 4)) 0x80000000#32 3#32).1 = 1#32 ∧
    (let t := ((after (.imulh 7#3 .discard (.reg 3) (.reg 4)) (regs [(3, 0x80000000#32), (4, 3#32)])).unit 1).lane 0
     t.l0 = some 0xFFFFFFFE#32 ∧ t.l1 = some 5#32 ∧ t.l3 = some 7#32) := by decide +kernel

/-- R87, R90, R91, R88: wraps, the shift of the full width, CLZ of 0, IABS of −2³¹. -/
theorem test_integers :
    (gives (.iadd 7#3 (.reg 5) (.reg 3) (.reg 4)) 0xFFFFFFFF#32 1#32).1 = 0#32 ∧
    (gives (.isub 7#3 (.reg 5) (.reg 3) (.reg 4)) 0#32 1#32).1 = 0xFFFFFFFF#32 ∧
    (gives (.shl 7#3 (.reg 5) (.reg 3) (.reg 4)) 1#32 32#32).1 = 0#32 ∧
    (gives (.shl 7#3 (.reg 5) (.reg 3) (.reg 4)) 1#32 31#32).1 = 0x80000000#32 ∧
    (gives (.sar 7#3 (.reg 5) (.reg 3) (.reg 4)) 0x80000000#32 0x80000000#32).1 = 0xFFFFFFFF#32 ∧
    (gives (.shr 7#3 (.reg 5) (.reg 3) (.reg 4)) 0x80000000#32 31#32).1 = 1#32 ∧
    (gives (.clz 7#3 (.reg 5) (.reg 3)) 0#32 0#32).1 = 32#32 ∧ (gives (.iabs 7#3 (.reg 5) (.reg 3)) 0x80000000#32 0#32).1 = 0x80000000#32 ∧
    (gives (.imin 7#3 (.reg 5) (.reg 3) (.reg 4)) 0x80000000#32 1#32).1 = 0x80000000#32 ∧
    (gives (.umin 7#3 (.reg 5) (.reg 3) (.reg 4)) 0x80000000#32 1#32).1 = 1#32 ∧
    (gives (.andn 7#3 (.reg 5) (.reg 3) (.reg 4)) 0xFF#32 0x0F#32).1 = 0xF0#32 := by decide +kernel

/-- R92: the field of 0xDEADBEEF at bit 8, 12 bits long. -/
theorem test_bfe :
    (gives (.bfe 7#3 (.reg 5) (.reg 3) (.lit 0x00000C08#32)) 0xDEADBEEF#32 0#32).1 = 0x00000DBE#32 ∧
    (gives (.bfes 7#3 (.reg 5) (.reg 3) (.lit 0x00000C08#32)) 0xDEADBEEF#32 0#32).1 = 0xFFFFFDBE#32 ∧
    (gives (.bfi 7#3 5 (.reg 3) (.lit 0x00000C18#32)) 0xFFFFFFFF#32 0#32).1 = 0xFF000000#32 := by decide +kernel

/-- R95, R96, R94: ICMPLT p1, TID, 8 in lane 0; PNOT p2, p2; SEL by p0. -/
theorem test_predicates :
    (((after (.icmplt 7#3 1 .tid (.lit 8#32)) (withThreads fun t => { t with p := 0#8 })).unit 1).lane 0).getP 1 = true ∧
    (((after (.icmplt 7#3 1 .tid (.lit 8#32)) (withThreads fun t => { t with p := 1#8 })).unit 1).lane 0).p = 3#8 ∧
    (((after (.icmplt 7#3 1 (.lit 8#32) .tid) simt).unit 1).lane 0).getP 1 = false ∧
    (((after (.pnot 7#3 2 2) simt).unit 1).lane 0).getP 2 = false ∧
    (gives (.sel 7#3 (.reg 5) (.reg 3) (.reg 4)) 1#32 2#32).1 = 1#32 ∧
    vOf (after (.sel 7#3 (.reg 5) (.reg 1) (.reg 2)) (withThreads fun t => { t with p := 0#8 })) 0 5 = 0xFFFFFFFF#32 := by decide +kernel

/-- R98, R99: the product that ties, and the one rounding of FMAC. -/
theorem test_fmac :
    gives (.fmul 7#3 (.reg 5) (.reg 3) (.reg 3)) 0x3F800800#32 0#32 = (0x3F801000#32, 0x10#32) ∧
    gives (.fadd 7#3 (.reg 5) (.reg 3) (.reg 4)) 0x3F801000#32 0xBF800000#32 = (0x3A000000#32, 0#32) ∧
    (let t := after (.fmac 7#3 2 (.reg 0) (.reg 1)) (regs [(0, 0x3F800800#32), (1, 0x3F800800#32), (2, 0xBF800000#32)])
     vOf t 0 2 = 0x3A000400#32 ∧ fsrOf t = 0#32) ∧
    gives (.fsub 7#3 (.reg 5) (.reg 3) (.reg 4)) 0x7F800000#32 0x7F800000#32 = (0x7FC00000#32, 1#32) := by decide +kernel

/-- R100: the NaN is not chosen, −0 is the lesser. -/
theorem test_fmin :
    gives (.fmin 7#3 (.reg 5) (.reg 3) (.reg 4)) 0x7FC00000#32 0x3F800000#32 = (0x3F800000#32, 0#32) ∧
    gives (.fmin 7#3 (.reg 5) (.reg 3) (.reg 4)) 0#32 0x80000000#32 = (0x80000000#32, 0#32) ∧
    gives (.fmax 7#3 (.reg 5) (.reg 3) (.reg 4)) 0x7FA00000#32 0x7FC00000#32 = (0x7FC00000#32, 1#32) := by decide +kernel

/-- R105, R106. -/
theorem test_convertIntegers :
    gives (.cvtfi 7#3 (.reg 5) (.reg 3)) 0x40200000#32 0#32 = (2#32, 0x10#32) ∧
    gives (.cvtfi 7#3 (.reg 5) (.reg 3)) 0x4F32D05E#32 0#32 = (0x7FFFFFFF#32, 0x20#32) ∧
    gives (.cvtfi 7#3 (.reg 5) (.reg 3)) 0xBECCCCCD#32 0#32 = (0#32, 0x10#32) ∧
    gives (.cvtif 7#3 (.reg 5) (.reg 3)) 0x7FFFFFFF#32 0#32 = (0x4F000000#32, 0x10#32) := by decide +kernel

/-- R73, R74: the table of worked conversions. -/
theorem test_convertNarrow :
    gives (.cvtn 7#3 (.reg 5) (.reg 3) 0 0#4) 0x43960000#32 0#32 = (0x79#32, 0x10#32) ∧
    gives (.cvtn 7#3 (.reg 5) (.reg 3) 0 0#4) 0x43FA0000#32 0#32 = (0x7F#32, 0x14#32) ∧
    gives (.cvtn 7#3 (.reg 5) (.reg 3) 0 8#4) 0x43FA0000#32 0#32 = (0x7E#32, 0x34#32) ∧
    gives (.cvtn 7#3 (.reg 5) (.reg 3) 1 0#4) 0xBC23D70A#32 0#32 = (0xA1#32, 0x10#32) ∧
    gives (.cvtn 7#3 (.reg 5) (.reg 3) 2 0#4) 0x40A9999A#32 0#32 = (0x1B#32, 0x10#32) ∧
    gives (.cvtn 7#3 (.reg 5) (.reg 3) 3 0#4) 0x43480000#32 0#32 = (0x7F#32, 0x20#32) := by decide +kernel

/-- R114: both counters of the stochastic rounding. -/
theorem test_cvtsr :
    gives (.cvtsr 7#3 (.reg 5) (.reg 3) (.reg 4)) 0x3F808123#32 0x00007F00#32 = (0x3F81#32, 0x10#32) ∧
    gives (.cvtsr 7#3 (.reg 5) (.reg 3) (.reg 4)) 0x3F808123#32 0x00007EDC#32 = (0x3F80#32, 0x10#32) := by decide +kernel

/-- R104, R108, R107: halves apart; UPKLO of 1.0; PKHF of 1.0 and 2.0. -/
theorem test_halves :
    gives (.badd2 7#3 (.reg 5) (.reg 3) (.reg 4)) 0x3F800000#32 0x3F804000#32 = (0x40004000#32, 0#32) ∧
    gives (.hmul2 7#3 (.reg 5) (.reg 3) (.reg 4)) 0x3C004000#32 0x40004000#32 = (0x40004400#32, 0#32) ∧
    gives (.upklo 7#3 (.reg 5) (.reg 3)) 0x00003F80#32 0#32 = (0x3F800000#32, 0#32) ∧
    gives (.pkhf 7#3 (.reg 5) (.reg 3) (.reg 4)) 0x3F800000#32 0x40000000#32 = (0x40003C00#32, 0#32) := by decide +kernel

/-- R76: 0.5 and 6.0 are values of types 01 and 11 alike, as in the worked block; the lower type wins, with e = 32, that is, byte 0x60. -/
theorem test_qscale :
    (let s := (lanesS [(3, 0x3F000000#32)] [(3, 0x40C00000#32)]).modGrid 3 fun g => { g with recb := bytesOf 128 [(0x60, 0x28#8), (0x61, 1#8)] }
     let t := after (.qscale 7#3 (.reg 5) (.reg 3) 4 0#4) s
     vOf t 0 5 = 0x60#32 ∧ vOf t 1 5 = 0x60#32) := by decide +kernel

/-- R118, R116, R119: HSWAP of two lanes; SHFL from the other lane; BALLOT. -/
theorem test_exchange :
    (let t := after (.hswap 7#3 (.reg 9) 8 (.lit 1#32)) (lanesS [(8, 0x22221111#32)] [(8, 0x44443333#32)])
     vOf t 0 9 = 0x33331111#32 ∧ vOf t 1 9 = 0x44442222#32) ∧
    (let t := after (.shfl 7#3 (.reg 4) 1 (.reg 3)) (lanesS [(1, 10#32), (3, 0x21#32)] [(1, 20#32), (3, 0x20#32)])
     vOf t 0 4 = 20#32 ∧ vOf t 1 4 = 10#32) ∧
    (let t := after (.ballot 7#3 (.reg 5) 1) (simt.modLanes 1 1#32 fun _ t => { t with p := 0#8 })
     vOf t 0 5 = 2#32 ∧ vOf t 1 5 = 2#32) := by decide +kernel

/-- The word that issues has a literal. -/
def two : State := { simt with cur := { simt.cur with len := 2 } }

/-- R204: a TRY with quota 64 copies v0 to v7 to v56 to v63; one that names octet 7 has no headroom and aborts with CODE 0x08. -/
theorem test_try :
    (let t := after (.tryOp 7#3 8#21 1#32) two
     vOf t 0 58 = 0xFFFFFFFF#32 ∧ vOf t 0 2 = 0xFFFFFFFF#32 ∧ ((t.unit 1).lane 0).inTry = true ∧ ((t.unit 1).lane 0).abc = 0#32) ∧
    (let t := after (.tryOp 7#3 8#21 0x80#32) two
     ((t.unit 1).lane 0).abc = 8#32 ∧ ((t.unit 1).lane 0).inTry = false ∧ (t.unit 1).u.ablanes = 3#32 ∧ ((t.unit 1).lane 0).pc = 0x28#32) := by
  decide +kernel

/-- R148, R149, R13, R152: SADDI of −3, an add that wraps, a shift of 33, LOOP's last round and the one before. -/
theorem test_uniform :
    sOf (after (.saddi 2#3 30 4 0x1FD#9) simt) 30 = 21#32 ∧
    sOf (after (.ssub 7#3 10 9 5) simt) 10 = 0xFFFFFFFE#32 ∧
    (let t := after (.loop 7#3 5 (-9)) { simt with cur := { simt.cur with pc := 0x28#32 } }
     sOf t 5 = 1#32 ∧ ((t.unit 1).lane 0).pc = 8#32) ∧
    (let t := after (.loop 7#3 5 (-9)) { (withUni fun u => { u with s := [(5, 1#32)] }) with cur := { simt.cur with pc := 0x28#32 } }
     sOf t 5 = 0#32 ∧ ((t.unit 1).lane 0).pc = 0x2C#32) := by decide +kernel

/-- R154, R155: lane 0 is the first member, and members 0 and 1 make the mask; WARP, QUOTA and SLICE. -/
theorem test_specialRegisters :
    sOf (after (.vmask 7#3 10) simt) 10 = 3#32 ∧ sOf (after (.sfirst 7#3 10) { simt with cur := { simt.cur with members := 2#32 } }) 10 = 1#32 ∧
    sOf (after (.srd 7#3 10 0x12) simt) 10 = 64#32 ∧ sOf (after (.srd 7#3 10 0x0F) simt) 10 = 1#32 ∧
    ((after (.swr 7#3 4 0x10) simt).unit 1).u.fcr = 0#32 ∧ ((after (.swr 7#3 5 0x10) simt).unit 1).u.fcr = 2#32 := by decide +kernel

/-- R160, R24: SCALL keeps the offset after it and SRET goes back there. -/
theorem test_calls :
    (let t := after (.scall 7#3 4#21) simt
     ((t.unit 1).lane 0).pc = 0x14#32 ∧ ((t.unit 1).lane 0).stack.length = 2 ∧ (((t.unit 1).lane 0).stack.headD { off := 0#32, slot := 0, tag := none }).off = 4#32) ∧
    (let t := after (.sret 7#3) simt
     ((t.unit 1).lane 0).pc = 8#32 ∧ ((t.unit 1).lane 0).stack = []) := by decide +kernel

/-- R166, R286, R288: TRAP writes cause 0x0D of the frame, s[sa] in TADDR and the next offset in TPC, and goes to TVEC, masked. -/
theorem test_trap :
    (let t := ((after (.trap 7#3 4) simt).unit 1).lane 0
     t.pc = 0x20#32 ∧ t.trapMode = true ∧ t.mask = true ∧ t.frameWord 4 = 4#32 ∧ t.frameWord 2 = 24#32 ∧ t.frameWord 0 = BitVec.ofNat 32 Config.causeSoftware) ∧
    (let t := ((after (.regq 7#3 5) simt).unit 1).lane 1
     t.pc = 0x20#32 ∧ t.frameWord 4 = 0#32 ∧ t.frameWord 0 = BitVec.ofNat 32 Config.causeQuota) := by decide +kernel

/-- R165: with the last thread the warp and its team are over. -/
theorem test_exit :
    ((after (.exit 7#3) simt).unit 1).live = false ∧ ((after (.exit 7#3) { simt with cur := { simt.cur with members := 1#32 } }).unit 1).live = true := by
  decide +kernel

/-- R272, R270: a CADD of 1 to a counter outside the pool; a counter that CFREE has not made live traps. -/
theorem test_cadd :
    (after (.cadd 7#3 2#2 1 (.one 5)) simt).bytes 0x30000 8 = leBytes 8 2 ∧
    (((after (.cadd 7#3 2#2 3 (.one 5)) simt).unit 1).lane 0).frameWord 0 = BitVec.ofNat 32 Config.causeCounter := by decide +kernel

/-- R282, R342: a write of sectors 0 to 2 leaves sector 3; a request of a row past its threshold makes the row due. -/
theorem test_stackWrite :
    (let s := simt.writeBytes 0 (List.replicate 128 7#8)
     let t := after (.stackWrite { pkt0 with line := 0, data := List.replicate 128 9#8 }) s
     t.byte 95 = 9#8 ∧ t.byte 96 = 7#8) ∧
    (let s := simt.modStack 0 fun t => { t with counts := [(0, 511)] }
     ((after (.stackRead { pkt0 with line := 0 }) s).stack 0).due = [(0, 0)]) := by decide +kernel

/-- FIPS 197, 4.2, 5.1.1 and its worked columns: a product, an S-box value and back, a column of MixColumns. -/
theorem test_aes :
    gfMul 0x57 0x83 = 0xC1 ∧ sbox 0x53 = 0xED ∧ invSbox 0xED = 0x53 ∧
    (mixColumns [2, 3, 1, 1] [0xDB, 0x13, 0x53, 0x45]).take 4 = [0x8E, 0x4D, 0xA1, 0xBC] ∧
    (mixColumns [14, 11, 13, 9] [0x8E, 0x4D, 0xA1, 0xBC]).take 4 = [0xDB, 0x13, 0x53, 0x45] := by decide +kernel

end Sys2Proof.Tests
end

section
/-!
PROOFS. What a load, a store and an atomic do to memory (R217, R234, R235, R282).
-/

namespace Sys2Proof.Machine

/-! ### Who an agent is does not change on the way to a line -/

/-- Two states that agree on the orders, the units and who owns each slice: all that a race test reads. -/
def sameAgents (s t : State) : Prop := s.order = t.order ∧ s.units = t.units ∧ ∀ i, (s.slice i).part = (t.slice i).part

theorem agentPlace_congr {s t : State} (h : sameAgents s t) (a : Agent) : agentPlace s a = agentPlace t a := by
  obtain ⟨-, hu, hp⟩ := h
  simp only [State.slice] at hp
  cases a <;> simp only [agentPlace, hu, hp]

theorem raceTest_congr {s t : State} (h : sameAgents s t) (a : Acc1) (w : Bool) (o : Option (BitVec 2)) :
    s.raceTest a w o = t.raceTest a w o := by
  have hs : ∀ sc x y, scopeHas s sc x y = scopeHas t sc x y := fun sc x y => by
    simp only [scopeHas, agentPlace_congr h]
  simp only [State.raceTest, raceOf, conflicts, scopesMeet, hs, h.1]

theorem sameAgents_modSlice (s : State) (i : Nat) (f : Slice → Slice) (hf : ∀ y, (f y).part = y.part) : sameAgents (s.modSlice i f) s := by
  refine ⟨rfl, rfl, fun j => ?_⟩
  rw [slice_modSlice]
  split
  · rename_i h; rw [hf, h]
  · rfl

theorem sameAgents_trans {s t r : State} (h : sameAgents s t) (h' : sameAgents t r) : sameAgents s r :=
  ⟨h.1.trans h'.1, h.2.1.trans h'.2.1, fun i => (h.2.2 i).trans (h'.2.2 i)⟩

theorem sameAgents_sliceIrq (s : State) (sl : Nat) (i : Irq) : sameAgents (s.sliceIrq sl i) s := by
  unfold State.sliceIrq
  dsimp only
  split
  · split <;> exact ⟨rfl, rfl, fun _ => rfl⟩
  · exact ⟨rfl, rfl, fun _ => rfl⟩

theorem sameAgents_poisonLine (s : State) (line : Nat) : sameAgents (s.poisonLine line) s := by
  unfold State.poisonLine
  dsimp only
  split
  · exact sameAgents_trans (sameAgents_sliceIrq _ _ _) (sameAgents_modSlice _ _ _ fun _ => rfl)
  · exact sameAgents_modSlice _ _ _ fun _ => rfl

theorem sameAgents_readHalves (s : State) (line : Nat) (hs : List Nat) : sameAgents (s.readHalves line hs).1 s := by
  unfold State.readHalves
  split
  · exact ⟨rfl, rfl, fun _ => rfl⟩
  · split
    · exact sameAgents_poisonLine _ _
    · split
      · exact sameAgents_modSlice _ _ _ fun _ => rfl
      · exact ⟨rfl, rfl, fun _ => rfl⟩

/-- Reaching a line changes nothing that a race test reads. -/
theorem raceTest_reach (s : State) (a b : Acc1) (hs : List Nat) (w : Bool) (o : Option (BitVec 2)) :
    (s.reach b hs).1.raceTest a w o = s.raceTest a w o :=
  raceTest_congr (sameAgents_trans (sameAgents_readHalves _ _ _) ⟨rfl, rfl, fun _ => rfl⟩) a w o

/-! ### Loads -/

theorem perfLoad_poisoned (s : State) (a : Acc1) (o : Option (BitVec 2)) (h : s.poisoned (a.key / 128) = true) :
    (s.perfLoad a o).2 = .error .poison := by
  have hp : (s.reach a [0, 1]).2 = true := reachLine_poisoned s a.key a.unc a.cls a.req h
  simp only [State.perfLoad, hp, if_true]

/-- A load of a sound line comes to what its bytes and its race test say. -/
theorem perfLoad_sound (s : State) (a : Acc1) (o : Option (BitVec 2)) (h : lineSound s a.key = true) :
    (s.perfLoad a o).2 = match s.raceTest a false o with
      | some g => .error (.race g)
      | none => .ok (s.bytes a.key a.len) := by
  have hp : (s.reach a [0, 1]).2 = false := reachLine_sound s a.key a.unc a.cls a.req h
  have hb : (s.reach a [0, 1]).1.bytes a.key a.len = s.bytes a.key a.len := bytes_congr (reach_mem _ _ _) _ _
  simp only [State.perfLoad, hp, Bool.false_eq_true, if_false, State.loadAt, raceTest_reach]
  split <;> simp [*]

/-! ### Stores -/

/-- A store that completes no race leaves its bytes at its place and every other byte as it was. -/
theorem perfStore_bytes (s : State) (a : Acc1) (bs : List Byte) (o : Option (BitVec 2)) (h : s.raceTest a true o = none)
    (hl : bs.length = a.len) : (s.perfStore a bs o).1.bytes a.key a.len = bs ∧
      ∀ k, k < a.key ∨ a.key + a.len ≤ k → (s.perfStore a bs o).1.byte k = s.byte k := by
  obtain ⟨-, hb⟩ := perfStore_mem s a bs o h
  constructor
  · rw [← hl]
    refine Eq.trans ?_ (bytes_writeBytes s a.key bs)
    simp only [State.bytes, hb]
  · intro k hk
    rw [hb, byte_writeBytes_out s a.key k bs (by omega)]

theorem perfStore_race (s : State) (a : Acc1) (bs : List Byte) (o : Option (BitVec 2)) (g : Agent) (h : s.raceTest a true o = some g) :
    s.perfStore a bs o = (s, .error (.race g)) := by
  simp only [State.perfStore, h]

/-! ### Atomics -/

theorem orderAtomic_mem (s : State) (a : Acc1) (n : Nat) (red : Bool) (sc od : BitVec 2) : (s.orderAtomic a n red sc od).mem = s.mem := by
  grind [State.orderAtomic, acquireAt_mem, releaseAt_mem, seeAt_mem, relaxedAt_mem]

/-- A read-modify-write that finds no race, and no poison unless it is a reduction, gives the value that it finds at its line and puts
the new one there. -/
theorem perfRmw_ok (s : State) (a : Acc1) (n : Nat) (red : Bool) (f : DWord → DWord) (sc od : BitVec 2)
    (hp : ((s.reach a [0, 1]).2 && !red) = false) (hr : s.raceTest a true (some sc) = none) :
    let old : DWord := BitVec.ofNat 64 (leNat ((s.reach a [0, 1]).1.oldBytes a.key n))
    (s.perfRmw a n red f sc od).2 = .ok old ∧
      ∃ t : State, t.mem = s.mem ∧ (s.perfRmw a n red f sc od).1.mem = (t.writeBytes a.key (leBytes n (f old).toNat)).mem := by
  simp only [State.perfRmw, hp, Bool.false_eq_true, if_false, raceTest_reach, hr, orderAtomic_mem, putBytes_mem, true_and]
  exact ⟨_, by rw [flitAtomic_mem, note_mem, reach_mem], rfl⟩

theorem perfRmw_poisoned (s : State) (a : Acc1) (n : Nat) (f : DWord → DWord) (sc od : BitVec 2) (h : s.poisoned (a.key / 128) = true) :
    s.perfRmw a n false f sc od = ((s.reach a [0, 1]).1, .error .poison) := by
  have hp : (s.reach a [0, 1]).2 = true := reachLine_poisoned s a.key a.unc a.cls a.req h
  simp only [State.perfRmw, hp, Bool.not_false, Bool.and_self, if_true]

theorem leBytes_length (n v : Nat) : (leBytes n v).length = n := by
  induction n generalizing v with
  | zero => rfl
  | succ n ih => simp [leBytes, ih]

/-- Memory after a write of `n` bytes: the bytes written, and the others as they were. -/
theorem bytes_of_written {s t r : State} {k n v : Nat} (ht : t.mem = s.mem) (hr : r.mem = (t.writeBytes k (leBytes n v)).mem) :
    r.bytes k n = leBytes n v ∧ ∀ j, j < k ∨ k + n ≤ j → r.byte j = s.byte j := by
  constructor
  · have := bytes_writeBytes t k (leBytes n v)
    rwa [leBytes_length, ← bytes_congr hr] at this
  · intro j hj
    rw [byte_congr hr, byte_writeBytes_out t k j _ (by rw [leBytes_length]; exact hj), byte_congr ht]

/-- An atomic on a sound line gives the old value and writes the new one, and nothing else. -/
theorem perfAtomic_sound (s : State) (a : Acc1) (op : AtomOp) (x : DWord) (y : Word) (sc od : BitVec 2)
    (hr : s.raceTest a true (some sc) = none) (hs : lineSound s a.key = true) :
    let old : DWord := BitVec.ofNat 64 (leNat (s.bytes a.key (atomSize op)))
    let e := s.perfAtomic a op x y sc od
    e.2 = .ok old ∧ e.1.bytes a.key (atomSize op) = leBytes (atomSize op) (atomApply op old x y).toNat ∧
      ∀ k, k < a.key ∨ a.key + atomSize op ≤ k → e.1.byte k = s.byte k := by
  have hp : (s.reach a [0, 1]).2 = false := reachLine_sound s a.key a.unc a.cls a.req hs
  have hpo : (s.reach a [0, 1]).1.poisoned (a.key / 128) = false := by
    have hq : (s.reach a [0, 1]).1.poison = s.poison := reachLine_poison s a.key a.unc a.cls a.req hs
    simp only [lineSound, Bool.and_eq_true, Bool.not_eq_true'] at hs
    unfold State.poisoned at hs ⊢
    rw [hq]; exact hs.1
  have hb : (s.reach a [0, 1]).1.oldBytes a.key (atomSize op) = s.bytes a.key (atomSize op) :=
    (oldBytes_sound _ _ _ hpo).trans (bytes_congr (reach_mem _ _ _) _ _)
  obtain ⟨h2, t, ht, h1⟩ := perfRmw_ok s a (atomSize op) (reduces op) (fun old => atomApply op old x y) sc od (by rw [hp]; rfl) hr
  rw [hb] at h1 h2
  exact ⟨h2, bytes_of_written ht h1⟩

/-- A reduction that finds no race is performed, poison or not. -/
theorem perfAtomic_reduces (s : State) (a : Acc1) (op : AtomOp) (x : DWord) (y : Word) (sc od : BitVec 2)
    (hr : s.raceTest a true (some sc) = none) (hd : reduces op = true) : ∃ old : DWord, (s.perfAtomic a op x y sc od).2 = .ok old ∧
      (s.perfAtomic a op x y sc od).1.bytes a.key (atomSize op) = leBytes (atomSize op) (atomApply op old x y).toNat := by
  obtain ⟨h2, t, ht, h1⟩ :=
    perfRmw_ok s a (atomSize op) (reduces op) (fun old => atomApply op old x y) sc od (by rw [hd, Bool.not_true, Bool.and_false]) hr
  exact ⟨_, h2, (bytes_of_written ht h1).1⟩

theorem perfAtomic_poisoned (s : State) (a : Acc1) (op : AtomOp) (x : DWord) (y : Word) (sc od : BitVec 2)
    (h : s.poisoned (a.key / 128) = true) (hd : reduces op = false) :
    s.perfAtomic a op x y sc od = ((s.reach a [0, 1]).1, .error .poison) := by
  unfold State.perfAtomic
  rw [hd]
  exact perfRmw_poisoned s a _ _ sc od h

/-- Settles O31: each access is taken apart into its trip to the line, its race test and what it writes. -/
theorem accessesArePerformed : Obligations.AccessesArePerformed := by
  unfold Obligations.AccessesArePerformed
  refine ⟨fun a bs o op x y sc od s => ⟨fun hr hl => ⟨(perfStore_mem s a bs o hr).1, perfStore_bytes s a bs o hr hl⟩,
      fun hr hs => ⟨?_, perfLoad_mem s a o⟩, fun hr hs => perfAtomic_sound s a op x y sc od hr hs⟩,
    fun a bs o op x y sc od g s => ⟨fun h => ⟨perfLoad_poisoned s a o h, perfLoad_mem s a o⟩, fun h hd => ?_,
      fun hr hd => perfAtomic_reduces s a op x y sc od hr hd, fun h => perfStore_race s a bs o g h,
      fun hs h => ⟨?_, perfLoad_mem s a o⟩⟩⟩
  · rw [perfLoad_sound s a o hs, hr]
  · rw [perfAtomic_poisoned s a op x y sc od h hd]
    exact ⟨rfl, reach_mem s a _⟩
  · rw [perfLoad_sound s a o hs, h]

end Sys2Proof.Machine
end

section
/-!
PROOFS. What each register of a slice reads after a write (R7, R279 to R281, R300, R306, R324, R336, R343).
-/

namespace Sys2Proof.Machine

/-! ### The low word of a written value -/

theorem getLsbD_lo (v : DWord) (i : Nat) : v.lo.getLsbD i = (decide (i < 32) && v.getLsbD i) := by
  simp [DWord.lo]

theorem toNat_lo_field (v : DWord) : v.lo.toNat / 8 % 32 = v.toNat / 8 % 32 := by
  simp only [DWord.lo, BitVec.toNat_setWidth]
  omega

/-- A register of 32 bits that a written 1 clears, read as 64 bits. -/
theorem setWidth_and_not_lo (x : Word) (v : DWord) : (x &&& ~~~v.lo).setWidth 64 = x.setWidth 64 &&& ~~~v := by
  refine BitVec.eq_of_getLsbD_eq fun i hi => ?_
  simp only [BitVec.getLsbD_setWidth, BitVec.getLsbD_and, BitVec.getLsbD_not, getLsbD_lo, hi, decide_true, Bool.true_and]
  by_cases h : i < 32
  · simp [h]
  · simp [h, BitVec.getLsbD_of_ge x i (by omega)]

/-- A register of 32 bits that takes the written bits under a mask, read as 64 bits. -/
theorem setWidth_keep32 (m : Word) (v : DWord) : (keep32 m v.lo).setWidth 64 = v &&& m.setWidth 64 := by
  refine BitVec.eq_of_getLsbD_eq fun i hi => ?_
  simp only [keep32, BitVec.getLsbD_setWidth, BitVec.getLsbD_and, getLsbD_lo, hi, decide_true, Bool.true_and]
  by_cases h : i < 32
  · simp [h]
  · simp [h, BitVec.getLsbD_of_ge m i (by omega)]

theorem lo_setWidth (w : Word) : DWord.lo (w.setWidth 64) = w := by
  simp [DWord.lo]

/-! ### The owner of a slice -/

theorem owner_eq {s : State} {sl pn : Nat} (h : (s.slice sl).part = some pn) : s.owner sl = s.part pn := by
  simp only [State.owner, h]

theorem modOwner_eq {s : State} {sl pn : Nat} (h : (s.slice sl).part = some pn) (f : Part → Part) : s.modOwner sl f = s.modPart pn f := by
  simp only [State.modOwner, h]

@[simp] theorem modOwner_mem (s : State) (sl : Nat) (f : Part → Part) : (s.modOwner sl f).mem = s.mem := by
  unfold State.modOwner
  split <;> rfl

/-! ### Reading after a change -/

/-- A change of a slice that leaves its owner shows in the registers of the slice. -/
theorem regRead_modSlice {s : State} {sl : Nat} {f : Slice → Slice} (hf : (f (s.slice sl)).part = (s.slice sl).part) :
    ((s.modSlice sl f).slice sl = f (s.slice sl)) ∧ (s.modSlice sl f).owner sl = s.owner sl := by
  have h : (s.modSlice sl f).slice sl = f (s.slice sl) := by rw [slice_modSlice, if_pos rfl]
  refine ⟨h, ?_⟩
  unfold State.owner
  rw [h, hf]
  rfl

/-- A change of the owner shows in the registers that act for the whole partition. -/
theorem owner_modPart {s : State} {sl pn : Nat} (h : (s.slice sl).part = some pn) (f : Part → Part) :
    (s.modPart pn f).owner sl = f (s.part pn) := by
  have hs : ((s.modPart pn f).slice sl).part = some pn := h
  rw [owner_eq hs, part_modPart, if_pos rfl]

/-! ### Writing -/

section
variable {s : State} {sl pn : Nat} (hp : (s.slice sl).part = some pn) (hu : (s.slice sl).srdy.getLsbD 2 = true)
include hp hu

theorem regUp_of : s.regUp sl = true := by simp only [State.regUp, hp, hu, Option.isSome_some, Bool.and_self]

/-- A register that is known takes what is written, unless the write waits. -/
theorem exec_registerWrite_of {off : Nat} {v : DWord} {t : State} (hk : regKnown off = true) (ht : s.regWrite sl off v = some t) :
    exec (.registerWrite sl off v) s = .next t := by
  simp only [exec_registerWrite, execRegisterWrite, regUp_of hp hu, hk, ht, Bool.not_true, Bool.or_self, Bool.false_eq_true, if_false]

/-- A register of the slice itself reads as what the write made of it. -/
theorem writes_slice {off : Nat} {v x : DWord} {f : Slice → Slice} (hk : regKnown off = true)
    (hw : s.regWrite sl off v = some (s.modSlice sl f)) (hf : (f (s.slice sl)).part = (s.slice sl).part)
    (hx : ∀ t : State, t.slice sl = f (s.slice sl) → t.regRead sl off = x) :
    ∃ t, exec (.registerWrite sl off v) s = .next t ∧ t.mem = s.mem ∧ t.regRead sl off = x :=
  ⟨_, exec_registerWrite_of hp hu hk hw, rfl, hx _ (regRead_modSlice hf).1⟩

/-- A register that acts for the whole partition reads as what the write made of it. -/
theorem writes_owner {off : Nat} {v x : DWord} {f : Part → Part} (hk : regKnown off = true)
    (hw : s.regWrite sl off v = some (s.modOwner sl f)) (hx : ∀ t : State, t.owner sl = f (s.part pn) → t.regRead sl off = x) :
    ∃ t, exec (.registerWrite sl off v) s = .next t ∧ t.mem = s.mem ∧ t.regRead sl off = x := by
  rw [modOwner_eq hp] at hw
  exact ⟨_, exec_registerWrite_of hp hu hk hw, rfl, hx _ (owner_modPart hp f)⟩

/-- A write that is ignored. -/
theorem writes_nothing {off : Nat} {v : DWord} (hk : regKnown off = true) (hw : s.regWrite sl off v = some s) :
    ∃ t, exec (.registerWrite sl off v) s = .next t ∧ t.mem = s.mem ∧ t.regRead sl off = s.regRead sl off :=
  ⟨s, exec_registerWrite_of hp hu hk hw, rfl, rfl⟩

/-- FWVIOL, MEVADDR and ACTADDR: a written 1 clears V (R281, R306, R336). -/
theorem registerWrite_acked {off : Nat} (v : DWord) (ho : off = 0x000 ∨ off = 0x050 ∨ off = 0x088) :
    ∃ t, exec (.registerWrite sl off v) s = .next t ∧ t.mem = s.mem ∧
      t.regRead sl off = if v.getLsbD 63 then s.regRead sl off &&& 0x7FFFFFFFFFFFFFFF#64 else s.regRead sl off := by
  by_cases hv : v.getLsbD 63 = true
  · rw [if_pos hv]
    rcases ho with rfl | rfl | rfl
    · exact writes_slice hp hu rfl (congrArg some (if_pos hv)) rfl fun t ht => congrArg Slice.fwviol ht
    · exact writes_slice hp hu rfl (congrArg some (if_pos hv)) rfl fun t ht => congrArg Slice.mevaddr ht
    · exact writes_slice hp hu rfl (congrArg some (if_pos hv)) rfl fun t ht => congrArg Slice.actaddr ht
  · rw [if_neg hv]
    rcases ho with rfl | rfl | rfl <;> exact writes_nothing hp hu rfl (congrArg some (if_neg hv))

/-- IRQROUTE: a route to a slice of the partition is taken (R306). -/
theorem registerWrite_irqroute (v : DWord) : ∃ t, exec (.registerWrite sl 0x020 v) s = .next t ∧ t.mem = s.mem ∧
    t.regRead sl 0x020 = if (s.part pn).slices.contains (v.toNat / 8 % 32) then v &&& 0x800000FF#64 else s.regRead sl 0x020 := by
  have hc : (s.owner sl).slices.contains (v.lo.toNat / 8 % 32) = (s.part pn).slices.contains (v.toNat / 8 % 32) := by
    rw [owner_eq hp, toNat_lo_field]
  by_cases h : (s.part pn).slices.contains (v.toNat / 8 % 32) = true
  · rw [if_pos h]
    refine writes_slice hp hu rfl (congrArg some (if_pos (hc.trans h))) rfl fun t ht => ?_
    exact (congrArg (fun y => y.irqroute.setWidth 64) ht).trans (setWidth_keep32 _ v)
  · rw [if_neg h]
    exact writes_nothing hp hu rfl (congrArg some (if_neg (hc ▸ h)))

/-- MEVSTAT and PMSTAT: the bits that a written 1 clears (R279, R300). -/
theorem registerWrite_cleared {off : Nat} (v : DWord) (ho : off = 0x040 ∨ off = 0x068) :
    ∃ t, exec (.registerWrite sl off v) s = .next t ∧ t.mem = s.mem ∧ t.regRead sl off = s.regRead sl off &&& ~~~v := by
  rcases ho with rfl | rfl
  · refine writes_slice hp hu rfl rfl rfl fun t ht => ?_
    exact (congrArg (fun y => y.mevstat.setWidth 64) ht).trans (setWidth_and_not_lo _ v)
  · refine writes_owner hp hu rfl rfl fun t ht => ?_
    have hold : s.regRead sl 0x068 = (s.part pn).pmstat.setWidth 64 := congrArg (fun p => p.pmstat.setWidth 64) (owner_eq hp)
    rw [hold]
    exact (congrArg (fun p => p.pmstat.setWidth 64) ht).trans (setWidth_and_not_lo _ v)

/-- PMCTL without THAW: EN and WINDOW (R300). -/
theorem registerWrite_pmctl (v : DWord) (hv : v.getLsbD 30 = false) : ∃ t, exec (.registerWrite sl 0x060 v) s = .next t ∧ t.mem = s.mem ∧
    t.regRead sl 0x060 = v &&& 0x80FFFFFF#64 := by
  have hlo : v.lo.getLsbD 30 = false := by rw [getLsbD_lo, hv, Bool.and_false]
  have hw : s.regWrite sl 0x060 v = some (s.modOwner sl fun p => { p with pmctl := keep32 0x80FFFFFF#32 v.lo }) := by
    show some (s.writePmctl sl v.lo) = _
    unfold State.writePmctl
    simp only [hlo, Bool.false_eq_true, if_false, State.regPlain, lo_setWidth]
  refine writes_owner hp hu rfl hw fun t ht => ?_
  exact (congrArg (fun p => p.pmctl.setWidth 64) ht).trans (setWidth_keep32 _ v)

/-- A write of SRDY or SCSTAT, and one of SRCTL or FWCTL whose command bit is 0, is ignored (R306 to R308, R324). -/
theorem registerWrite_ignored {off : Nat} (v : DWord)
    (ho : off = 0x018 ∨ off = 0x0A8 ∨ (off = 0x010 ∧ v.getLsbD 0 = false) ∨ (off = 0x008 ∧ v.getLsbD 31 = false)) :
    exec (.registerWrite sl off v) s = .next s := by
  rcases ho with rfl | rfl | ⟨rfl, hv⟩ | ⟨rfl, hv⟩
  · exact exec_registerWrite_of hp hu rfl rfl
  · exact exec_registerWrite_of hp hu rfl rfl
  · exact exec_registerWrite_of hp hu rfl (by simp only [State.regWrite, hv]; rfl)
  · exact exec_registerWrite_of hp hu rfl (congrArg some (if_neg (by rw [hv]; exact Bool.false_ne_true)))

/-- SCCMD: a command starts unless one is under way (R324). -/
theorem registerWrite_sccmd (v : DWord) : ∃ t, exec (.registerWrite sl 0x0A0 v) s = .next t ∧ t.mem = s.mem ∧
    if (s.part pn).scstat.getLsbD 0 then t.part pn = s.part pn
    else t.part pn = { s.part pn with sccmd := v &&& 0x000FFFFFFFFFFFC0#64, scstat := (s.part pn).scstat ||| 1#32 } := by
  refine ⟨_, exec_registerWrite_of hp hu rfl rfl, modOwner_mem _ _ _, ?_⟩
  unfold State.writeSccmd
  rw [modOwner_eq hp, part_modPart, if_pos rfl]
  by_cases h : (s.part pn).scstat.getLsbD 0 = true
  · rw [if_pos h]; exact if_pos h
  · rw [if_neg h]; exact if_neg h

/-- ACTCTL: the thresholds, and both stacks count anew (R336). -/
theorem actctlWrite_reads (w : Word) : ∃ t, exec (.actctlWrite sl w) s = .next t ∧ t.mem = s.mem ∧
    t.regRead sl 0x080 = (w &&& 0x0FFFFFFF#32).setWidth 64 ∧ (t.stack (2 * sl)).counts = [] ∧ (t.stack (2 * sl + 1)).counts = [] ∧
    (t.stack (2 * sl)).win = (s.slice sl).clk ∧ (t.stack (2 * sl + 1)).win = (s.slice sl).clk := by
  have hx : (s.modSlice sl fun y => { y with actctl := keep32 0x0FFFFFFF#32 w }).slice sl =
      { s.slice sl with actctl := keep32 0x0FFFFFFF#32 w } := (regRead_modSlice rfl).1
  refine ⟨s.writeActctl sl w, ?_, rfl, ?_, ?_⟩
  · simp only [exec_actctlWrite, execActctlWrite, regUp_of hp hu, Bool.not_true, Bool.false_eq_true, if_false]
  · exact congrArg (fun y => y.actctl.setWidth 64) hx
  · simp [State.writeActctl, stack_modStack, hx]

/-! ### The address-range table (R343) -/

/-- A word of a range entry that can be written reads as `writeRange` leaves it. -/
theorem addressRangeWrite_reads {off : Nat} (v : DWord) (h1 : 0x100 ≤ off) (h2 : off < 0x300) (h3 : off % 8 = 0) :
    ∃ t, exec (.addressRangeWrite sl off v) s = .next t ∧ t.mem = s.mem ∧
      t.regRead sl off = rangeWord (((s.part pn).writeRange ((off - 0x100) / 32) (off % 32 / 8) v).ranges.getD ((off - 0x100) / 32) rangeZero)
        (off % 32 / 8) := by
  refine ⟨s.modOwner sl fun p => p.writeRange ((off - 0x100) / 32) (off % 32 / 8) v, ?_, modOwner_mem _ _ _, ?_⟩
  · have h1' : ¬ off < 0x100 := by omega
    have h2' : ¬ 0x300 ≤ off := by omega
    simp [execAddressRangeWrite, regUp_of hp hu, h1', h2', h3]
  · have ho := owner_modPart hp fun p => p.writeRange ((off - 0x100) / 32) (off % 32 / 8) v
    rw [← modOwner_eq hp] at ho
    simp only [State.regRead, h1, h2, and_self, if_true, ho]

end

/-- The entry that a write of a word leaves in its place. -/
theorem getD_writeRange (p : Part) (i k : Nat) (v : DWord) (hi : i < p.ranges.length) :
    (p.writeRange i k v).ranges.getD i rangeZero =
      (let r := p.ranges.getD i rangeZero
       let r' := rangeBits (if k = 0 then { r with base := v } else if k = 1 then { r with size := v } else if k = 2 then { r with stk := v }
         else { r with ctl := v })
       if k = 2 && !(rangeWithin r' p.slices) then r else r') := by
  simp [Part.writeRange, List.getD, hi]

/-! The words of a written entry, each as it reads. -/

theorem rangeWord_writeRange_base (p : Part) (i : Nat) (v : DWord) (hi : i < p.ranges.length) :
    rangeWord ((p.writeRange i 0 v).ranges.getD i rangeZero) 0 = v &&& 0x000FFFFFFFFF0000#64 := by
  rw [getD_writeRange p i 0 v hi]; rfl

theorem rangeWord_writeRange_size (p : Part) (i : Nat) (v : DWord) (hi : i < p.ranges.length) :
    rangeWord ((p.writeRange i 1 v).ranges.getD i rangeZero) 1 = v &&& 0x000FFFFFFFFF0000#64 := by
  rw [getD_writeRange p i 1 v hi]; rfl

theorem rangeWord_writeRange_ctl (p : Part) (i : Nat) (v : DWord) (hi : i < p.ranges.length) :
    rangeWord ((p.writeRange i 3 v).ranges.getD i rangeZero) 3 = v &&& 0xFFFFF00EF#64 := by
  rw [getD_writeRange p i 3 v hi]; rfl

/-- A SET that names a stack outside the partition is ignored. -/
theorem rangeWord_writeRange_set (p : Part) (i : Nat) (v : DWord) (hi : i < p.ranges.length) :
    rangeWord ((p.writeRange i 2 v).ranges.getD i rangeZero) 2 =
      if rangeWithin (rangeBits { p.ranges.getD i rangeZero with stk := v }) p.slices then v &&& 0xFFFFFFFFFFFF#64
      else (p.ranges.getD i rangeZero).stk := by
  rw [getD_writeRange p i 2 v hi]
  generalize p.ranges.getD i rangeZero = r
  cases h : rangeWithin (rangeBits { r with stk := v }) p.slices
  · exact congrArg (rangeWord · 2) (if_pos (by simpa using h))
  · exact congrArg (rangeWord · 2) (if_neg (by simpa using h))

/-- Settles O48, register by register. -/
theorem registersAreWritten : Obligations.RegistersAreWritten := by
  unfold Obligations.RegistersAreWritten
  intro sl pn off v w s hp hu
  refine ⟨registerWrite_acked hp hu v, ?_, registerWrite_cleared hp hu v, ?_, ?_, ?_, ?_, ?_, ?_, registerWrite_ignored hp hu v, ?_⟩
  · rintro rfl
    exact registerWrite_irqroute hp hu v
  · rintro rfl
    exact writes_slice hp hu rfl rfl rfl fun t ht => congrArg Slice.mevcnt ht
  · rintro rfl
    exact registerWrite_pmctl hp hu v
  · rintro rfl
    exact writes_owner hp hu rfl rfl fun t ht => congrArg Part.pmbuf ht
  · rintro rfl
    exact writes_owner hp hu rfl rfl fun t ht => congrArg Part.sccons ht
  · intro h1 h2 h3 hi
    obtain ⟨t, ht, hm, hr⟩ := addressRangeWrite_reads hp hu v h1 h2 h3
    refine ⟨t, ht, hm, ?_⟩
    have hold : s.regRead sl off = rangeWord ((s.part pn).ranges.getD ((off - 0x100) / 32) rangeZero) (off % 32 / 8) := by
      simp only [State.regRead, h1, h2, and_self, if_true, owner_eq hp]
    rw [hr, hold]
    have hk : off % 32 / 8 = 0 ∨ off % 32 / 8 = 1 ∨ off % 32 / 8 = 2 ∨ off % 32 / 8 = 3 := by omega
    rcases hk with h | h | h | h <;> rw [h]
    · exact rangeWord_writeRange_base _ _ _ hi
    · exact rangeWord_writeRange_size _ _ _ hi
    · exact rangeWord_writeRange_set _ _ _ hi
    · exact rangeWord_writeRange_ctl _ _ _ hi
  · rintro rfl
    obtain ⟨t, ht, hm, hr, hs⟩ := actctlWrite_reads hp hu w
    exact ⟨⟨t, ht, hm, hr⟩, t, ht, hs⟩
  · rintro rfl
    exact registerWrite_sccmd hp hu v

end Sys2Proof.Machine
end

section
/-!
PROOFS. The canonical form of memory (log 2): that an operation leaves memory alone, or keeps its canonical form, said once for every
operation of the model.
-/

namespace Sys2Proof.Machine

/-! ### What an answer does to memory -/

/-- Memory, as the list of its cells, is in canonical form. -/
def canonical (m : List Host.Cell) : Prop := Tab.wf 0#8 m = true

theorem wf_iff_canonical (s : State) : Memory.wf s = true ↔ canonical s.mem := Iff.rfl

/-- `Q` holds of the memory of every state that a G-set word's effect holds. -/
def GRes.Keeps (Q : List Host.Cell → Prop) : GRes → Prop
  | .done s => Q s.mem
  | .trap s _ _ => Q s.mem
  | .wait => True
  | .queued f => ∀ s : State, Q s.mem → Q (f s).mem

/-- `Q` holds of the memory of every state that a uniform access holds. -/
def UAcc.Keeps (Q : List Host.Cell → Prop) : UAcc → Prop
  | .stop r => r.Keeps Q
  | .go s _ _ => Q s.mem

/-- `Q` holds of the memory of every state that a counter word's checks hold. -/
def CAcc.Keeps (Q : List Host.Cell → Prop) : CAcc → Prop
  | .stop r => r.Keeps Q
  | .go s _ => Q s.mem

/-- `Q` holds of the memory of the state that a lane's commit holds. -/
def ComEnd.Keeps (Q : List Host.Cell → Prop) : ComEnd → Prop
  | .ok s => Q s.mem
  | .fault | .wait | .frozen _ _ _ => True

/-- A hart's access keeps `Q`, whether it reaches memory or a register block. -/
structure HostOp.Keeps (Q : List Host.Cell → Prop) (op : HostOp) : Prop where
  mem (o : Nat) (s : State) (a : Acc1) : Q s.mem → Q (op.mem o s a).1.mem
  reg (o n sl off : Nat) (s : State) : Q s.mem → Q (op.reg o n sl off s).1.mem

/-- `Q` holds of the memory of the state that a step answers, if it answers one. -/
def Answers (Q : List Host.Cell → Prop) : Out State → Prop
  | .next t => Q t.mem
  | .fault _ | .refused _ => True

/-- Running any instruction keeps `Q`: what the words of an issue slot are run with. -/
def RunKeeps (Q : List Host.Cell → Prop) (run : Instr → State → Out State) : Prop :=
  ∀ (i : Instr) (x : State), Q x.mem → Answers Q (run i x)

/-! ### The writers of memory -/

theorem writeByte_canonical (s : State) (k : Nat) (b : Byte) (hm : canonical s.mem) : canonical (s.writeByte k b).mem :=
  wf_writeByte s k b hm

theorem writeBytes_canonical (bs : List Byte) (s : State) (k : Nat) (hm : canonical s.mem) : canonical (s.writeBytes k bs).mem :=
  wf_writeBytes bs s k hm

theorem relocate_canonical (s : State) (pn : Nat) (q : Part) (stays : Nat → Bool) (hm : canonical s.mem) :
    canonical (s.relocate pn q stays).mem := wf_relocate s pn q stays hm

theorem putBytes_canonical (s : State) (a : Acc1) (bs : List Byte) (hm : canonical s.mem) : canonical (s.putBytes a bs).mem :=
  wf_putBytes s a bs hm

theorem putEntry_canonical (s : State) (k v : Nat) (hm : canonical s.mem) : canonical (s.putEntry k v).mem := wf_putEntry s k v hm

theorem perfStore_canonical (s : State) (a : Acc1) (bs : List Byte) (o : Option (BitVec 2)) (hm : canonical s.mem) :
    canonical (s.perfStore a bs o).1.mem := wf_perfStore s a bs o hm

theorem setEntryBit_canonical (s : State) (sl k bit : Nat) (hm : canonical s.mem) : canonical (s.setEntryBit sl k bit).mem :=
  wf_setEntryBit s sl k bit hm

theorem setDirty_canonical (s : State) (sl : Nat) (x : Xlat) (hm : canonical s.mem) : canonical (s.setDirty sl x).mem :=
  wf_setDirty s sl x hm

/-! ### Choices and folds -/

theorem ite_keeps {Q : List Host.Cell → Prop} {c : Prop} [Decidable c] {a b : State} (ha : Q a.mem) (hb : Q b.mem) :
    Q (if c then a else b).mem := by
  split
  · exact ha
  · exact hb

theorem ite_mem {c : Prop} [Decidable c] {a b : State} {m : List Host.Cell} (ha : a.mem = m) (hb : b.mem = m) :
    (if c then a else b).mem = m := by
  split
  · exact ha
  · exact hb

theorem fst_keeps_of_eq {Q : List Host.Cell → Prop} {α : Type} {a b : State × α} (e : a = b) (h : Q a.1.mem) : Q b.1.mem :=
  e ▸ h

theorem ite_fst_keeps {Q : List Host.Cell → Prop} {α : Type} {c : Prop} [Decidable c] {a b : State × α} (ha : Q a.1.mem) (hb : Q b.1.mem) :
    Q (if c then a else b).1.mem := by
  split
  · exact ha
  · exact hb

theorem foldl_keeps {Q : List Host.Cell → Prop} {α : Type} {f : State → α → State} (hf : ∀ (s : State) (a : α), Q s.mem → Q (f s a).mem)
    (l : List α) {s : State} (hm : Q s.mem) : Q (l.foldl f s).mem := by
  induction l generalizing s with
  | nil => exact hm
  | cons a r ih => exact ih (hf s a hm)

/-- The same where a fold carries something beside the state. -/
theorem foldl_fst_keeps {Q : List Host.Cell → Prop} {α β : Type} {f : State × β → α → State × β}
    (hf : ∀ (r : State × β) (a : α), Q r.1.mem → Q (f r a).1.mem) (l : List α) {r : State × β} (hm : Q r.1.mem) :
    Q (l.foldl f r).1.mem := by
  induction l generalizing r with
  | nil => exact hm
  | cons a r ih => exact ih (hf _ a hm)

theorem foldl_fst_mem {α β : Type} {f : State × β → α → State × β} (hf : ∀ (r : State × β) (a : α), (f r a).1.mem = r.1.mem) (l : List α)
    (r : State × β) : (l.foldl f r).1.mem = r.1.mem :=
  @foldl_fst_keeps (· = r.1.mem) α β f (fun x a hx => (hf x a).trans hx) l r rfl

/-- A fold that may fail: what every step that succeeds keeps, the whole fold does. -/
theorem foldl_bind_keeps {σ α : Type} (P : σ → Prop) {f : α → σ → Option σ} (hf : ∀ (a : α) (x y : σ), P x → f a x = some y → P y)
    (l : List α) {o : Option σ} {t : σ} (ho : ∀ x ∈ o, P x) (ht : l.foldl (fun r a => r.bind (f a)) o = some t) : P t := by
  induction l generalizing o with
  | nil => exact ho t ht
  | cons a r ih =>
    refine ih (fun y hy => ?_) ht
    obtain ⟨x, hx, hy⟩ := Option.bind_eq_some_iff.mp hy
    exact hf a x y (ho x hx) hy

theorem foldl_bind_mem {α : Type} {f : α → State → Option State} (hf : ∀ (a : α) (x y : State), f a x = some y → y.mem = x.mem) (l : List α)
    {o : Option State} {s t : State} (ho : ∀ x ∈ o, x.mem = s.mem) (ht : l.foldl (fun r a => r.bind (f a)) o = some t) : t.mem = s.mem :=
  foldl_bind_keeps (fun x : State => x.mem = s.mem) (fun a x y hx h => (hf a x y h).trans hx) l ho ht

/-! ### Issue -/

section
variable {Q : List Host.Cell → Prop}

theorem Answers.ite {c : Prop} [Decidable c] {a b : Out State} (ha : Answers Q a) (hb : Answers Q b) : Answers Q (if c then a else b) := by
  split
  · exact ha
  · exact hb

theorem GRes.ite_keeps {c : Prop} [Decidable c] {a b : GRes} (ha : a.Keeps Q) (hb : b.Keeps Q) : (if c then a else b).Keeps Q := by
  split
  · exact ha
  · exact hb

theorem Answers.andThen {o : Out State} {f : State → Out State} : Answers Q o → (∀ x : State, Q x.mem → Answers Q (f x)) →
    Answers Q (match o with
      | .fault e => .fault e
      | .refused e => .refused e
      | .next t => f t) := by
  intro ho hf
  cases o with
  | next t => exact hf t ho
  | fault _ => trivial
  | refused _ => trivial

theorem Answers.of_next {o : Out State} {t : State} (h : Answers Q o) (ht : o = .next t) : Q t.mem := by
  subst ht
  exact h

theorem raiseGroup_keeps {s r : State} (u : Nat) (m tpc : Word) (x : TrapRec) (hs : Q s.mem) (hr : Q r.mem) :
    Answers Q (raiseGroup s r u m tpc x) := by
  unfold raiseGroup
  refine Answers.ite hs ?_
  show Q (State.mem _)
  rwa [raiseLanes_mem]

@[simp] theorem loseLatches_mem (s : State) (u : Nat) (w : Warp) (lost pc : Word) (ls : List Nat) :
    (s.loseLatches u w lost pc ls).mem = s.mem := by
  unfold State.loseLatches
  rw [releaseToken_mem, mem_foldl _ fun _ _ => takeTrap_mem _ _ _ _ _ _]

/-- An L-set word keeps what its body keeps: all that surrounds the body leaves memory alone. -/
theorem issueL_keeps (g : BitVec 3) (wf : Bool) (regs lat : List Nat) {body : State → Word → Out State} {s : State}
    (hb : ∀ (x : State) (act : Word), Q x.mem → Answers Q (body x act)) (hs : Q s.mem) :
    Answers Q (issueL g wf regs lat body s) := by
  unfold issueL
  refine Answers.ite trivial ?_
  split
  · refine Answers.ite (raiseGroup_keeps _ _ _ _ hs hs) (Answers.ite (raiseGroup_keeps _ _ _ _ hs hs) (Answers.ite hs ?_))
    split
    · exact raiseGroup_keeps _ _ _ _ hs hs
    · exact hb _ _ hs
  · refine Answers.ite hs (Answers.ite (raiseGroup_keeps _ _ _ _ hs hs) (Answers.ite (raiseGroup_keeps _ _ _ _ hs hs)
      (Answers.ite (raiseGroup_keeps _ _ _ _ hs hs) (Answers.ite (Answers.ite hs ?_) (Answers.ite hs (Answers.ite hs
        (Answers.ite (hb _ _ hs) ?_)))))))
    · show Q (State.mem _)
      rw [raiseLanes_mem, abortLanes_mem]
      exact hs
    · refine Answers.andThen ?_ fun x hx => ?_
      · refine Answers.ite ?_ (hb _ _ ?_) <;>
          exact Eq.mpr (congrArg Q (abortBare_mem ..)) hs
      · show Q (State.mem _)
        split
        · rwa [loseLatches_mem]
        · exact hx

/-- A G-set word keeps what its effect keeps. -/
theorem issueG_keeps (q : BitVec 3) (wf : Bool) (on : Where) (it ix : InReg) (drain : Bool) {body : State → GRes} {s : State}
    (hb : ∀ x : State, Q x.mem → (body x).Keeps Q) (hs : Q s.mem) : Answers Q (issueG q wf on it ix drain body s) := by
  unfold issueG
  refine Answers.ite trivial (Answers.ite (raiseGroup_keeps _ _ _ _ hs hs) (Answers.ite hs (Answers.ite (raiseGroup_keeps _ _ _ _ hs hs)
    (Answers.ite (raiseGroup_keeps _ _ _ _ hs hs) (Answers.ite ?_ (Answers.ite hs ?_))))))
  · show Q (State.mem _)
    rw [abortLanes_mem]
    exact hs
  · split
    · rename_i h; exact (congrArg (GRes.Keeps Q) h).mp (hb _ hs)
    · exact hs
    · rename_i h; exact (congrArg (GRes.Keeps Q) h).mp (hb _ hs) _ hs
    · rename_i h; exact raiseGroup_keeps _ _ _ _ hs ((congrArg (GRes.Keeps Q) h).mp (hb _ hs))

end
end Sys2Proof.Machine
end

section
/-!
PROOFS. What each function of the model does to memory, one lemma for each, in the order of the model: that it leaves memory as it was
(`_mem`, and `_keeps` for what answers a step or a word's effect: whatever holds of memory still holds), or, where it reaches a writer of
memory, that it keeps the canonical form (`_canonical`). A proof names the callees whose lemmas it rests on.
-/

namespace Sys2Proof.Machine

variable {Q : List Host.Cell → Prop}

/-! ### Functions of Machine/Order -/

@[simp] theorem orderAfter_mem (s : State) (a : Agent) (lo len : Nat) (write : Bool) : (orderAfter s a lo len write).mem = s.mem := rfl

@[simp] theorem acquireCtr_mem (s : State) (a : Agent) (scope : BitVec 2) (loc : Nat) : (acquireCtr s a scope loc).mem = s.mem := rfl

@[simp] theorem seeCtr_mem (s : State) (a : Agent) (loc : Nat) (len : Nat) : (seeCtr s a loc len).mem = s.mem := rfl

@[simp] theorem fencexOrder_mem (s : State) (u c1 c2 : Nat) (done : VC) : (fencexOrder s u c1 c2 done).mem = s.mem := rfl

/-! ### Functions of Machine/Memory -/

@[simp] theorem settle_mem (s : State) (u : Nat) (f : List Nat → Bool) : (s.settle u f).mem = s.mem := rfl

@[simp] theorem readWalk_mem (s : State) (ls : List Loc) : (s.readWalk ls).1.mem = s.mem := by
  unfold State.readWalk
  rw [foldl_fst_mem]
  exact fun _ _ => reachLine_mem _ _ _ _ _ _

theorem translateTable_canonical (s : State) (p : Part) (c : Ctx) (sl va : Nat) (hm : canonical s.mem) :
    canonical (s.translateTable p c sl va).1.mem := by
  grind [State.translateTable, modSlice_mem, readWalk_mem, setEntryBit_canonical]

theorem translate_canonical (s : State) (pn asid sl : Nat) (va : DWord) (hm : canonical s.mem) :
    canonical (s.translate pn asid sl va).1.mem := by
  grind [State.translate, translateTable_canonical]

theorem check_canonical (s : State) (pn asid sl : Nat) (va : DWord) (size : Nat) (write : Bool) (hm : canonical s.mem) :
    canonical (s.check pn asid sl va size write).1.mem := by
  grind [State.check, translate_canonical]

theorem permit_canonical (s : State) (pn asid sl : Nat) (va : DWord) (size : Nat) (write : Bool) (hm : canonical s.mem) :
    canonical (s.permit pn asid sl va size write).1.mem := by
  have hc := check_canonical s pn asid sl va size write hm
  unfold State.permit
  split
  · rename_i x h
    rw [h] at hc
    grind [reachLine_mem]
  · exact hc

theorem perfRmw_canonical (s : State) (a : Acc1) (n : Nat) (red : Bool) (f : DWord → DWord) (scope order : BitVec 2)
    (hm : canonical s.mem) :
    canonical (s.perfRmw a n red f scope order).1.mem := by
  grind [State.perfRmw, reach_mem, note_mem, flitAtomic_mem, orderAtomic_mem, putBytes_canonical]

theorem perfAtomic_canonical (s : State) (a : Acc1) (op : AtomOp) (x : DWord) (y : Word) (scope order : BitVec 2) (hm : canonical s.mem) :
    canonical (s.perfAtomic a op x y scope order).1.mem := perfRmw_canonical _ _ _ _ _ _ _ hm

theorem counterAt_canonical (s : State) (pn asid sl : Nat) (va : DWord) (hm : canonical s.mem) :
    canonical (s.counterAt pn asid sl va).1.mem := by
  grind [State.counterAt, translate_canonical]

@[simp] theorem reachCtr_mem (s : State) (c : CtrRef) (r : Req) : (s.reachCtr c r).1.mem = s.mem := by
  grind [State.reachCtr, reachLine_mem]

theorem counterPut_canonical (s : State) (pn sl : Nat) (c : CtrRef) (v : Nat) (hm : canonical s.mem) :
    canonical (s.counterPut pn sl c v).mem := by
  grind [State.counterPut, modPart_mem, setPacked_mem, writeBytes_canonical]

theorem counterAdd_canonical (s : State) (pn sl : Nat) (c : CtrRef) (n : DWord) (r : Req) (hm : canonical s.mem) :
    canonical (s.counterAdd pn sl c n r).mem := by
  grind [State.counterAdd, counterPut_canonical, reachCtr_mem]

/-! ### Functions of Machine/Ops -/

@[simp] theorem localAccess_mem (s : State) (u tm : Nat) (la : Word) (size : Nat) (data : Option (List Byte)) :
    (s.localAccess u tm la size data).1.mem = s.mem := by
  grind [State.localAccess, modTeam_mem, noteAccess_mem]

/-! ### Functions of Machine/Operands -/

theorem laneBody_keeps (f : LaneFn) {s : State} (act : Word) (hm : Q s.mem) : Answers Q (laneBody f s act) := hm

theorem issueUni_keeps (q : BitVec 3) (f : State → Warp → Uni → Uni) {s : State} (hm : Q s.mem) : Answers Q (issueUni q f s) :=
  issueG_keeps _ _ _ _ _ _ (fun _ hm => hm) hm

theorem trapWord_keeps (s : State) (cause : Nat) (taddr : DWord) (hm : Q s.mem) : (trapWord s cause taddr).Keeps Q := by
  grind [trapWord, GRes.Keeps]

@[simp] theorem freeze_mem (s : State) (u : Nat) (members : Word) (lanes : List (Nat × DWord)) (wr : Bool) (pa : Nat) :
    (s.freeze u members lanes wr pa).mem = s.mem := by
  grind [State.freeze, modUnit_mem, violate_mem]

theorem frozenAt_keeps (s : State) (va : DWord) (wr : Bool) (pa : Nat) (hm : Q s.mem) : (frozenAt s va wr pa).Keeps Q := by
  grind [frozenAt, advance_mem, freeze_mem, GRes.Keeps]

@[simp] theorem yieldBy_mem (s : State) (u : Nat) (m : Word) : (s.yieldBy u m).mem = s.mem := rfl

/-! ### Functions of Machine/UniMem -/

theorem uniReach_canonical (s : State) (va : DWord) (size : Nat) (write : Bool) (regs : List Nat) (hm : canonical s.mem) :
    (s.uniReach va size write regs).Keeps canonical := by
  grind [State.uniReach, permit_canonical, frozenAt_keeps, trapWord_keeps, GRes.Keeps, UAcc.Keeps]

theorem uniLoad_canonical (q : BitVec 3) (bp : Fin 8) (b : Option (Fin 64)) (size : Nat) (acq : Bool) (regs : List Nat)
    (f : Uni → List Byte → Uni) (s : State) (hm : canonical s.mem) :
    Answers canonical (uniLoad q bp b size acq regs f s) := by
  refine issueG_keeps _ _ _ _ _ _ (fun s hm => ?_) hm
  grind [GRes.Keeps, modUni_mem, perfLoad_mem, uniReach_canonical, UAcc.Keeps]

theorem uniStore_canonical (q : BitVec 3) (bp : Fin 8) (b : Option (Fin 64)) (rel : Bool) (bytes : Uni → List Byte) (s : State)
    (hm : canonical s.mem) :
    Answers canonical (uniStore q bp b rel bytes s) := by
  refine issueG_keeps _ _ _ _ _ _ (fun s hm => ?_) hm
  grind [GRes.Keeps, perfStore_canonical, setDirty_canonical, uniReach_canonical, UAcc.Keeps]

theorem uniAtomic_canonical (q : BitVec 3) (d : Fin 64) (scope : BitVec 2) (bp : Fin 8) (order : BitVec 2) (op : AtomOp)
    (args : Uni → Word × Word) (s : State) (hm : canonical s.mem) :
    Answers canonical (uniAtomic q d scope bp order op args s) := by
  refine issueG_keeps _ _ _ _ _ _ (fun s hm => ?_) hm
  grind [GRes.Keeps, modUni_mem, perfAtomic_canonical, setDirty_canonical, uniReach_canonical, UAcc.Keeps]

theorem ctrReach_canonical (s : State) (va : DWord) (wr : Bool) (hm : canonical s.mem) : (s.ctrReach va wr).Keeps canonical := by
  grind [State.ctrReach, counterAt_canonical, frozenAt_keeps, trapWord_keeps, GRes.Keeps, CAcc.Keeps]

theorem ctrRead_canonical (s : State) (va : DWord) (regs : List Nat) (hm : canonical s.mem) : (s.ctrRead va regs).Keeps canonical := by
  have hc := ctrReach_canonical s va false hm
  unfold State.ctrRead
  split
  · rename_i h; rw [h] at hc; exact hc
  · rename_i x c h
    rw [h] at hc
    have hx : canonical (x.reachCtr c (x.uniReq regs)).1.mem := (reachCtr_mem ..).symm ▸ hc
    split <;> (rename_i h; rw [h] at hx; exact hx)

theorem engineTrap_keeps (s : State) (h : Held) (hm : Q s.mem) : (engineTrap s h).Keeps Q := by
  grind [engineTrap, modTile_mem, modUnit_mem, GRes.Keeps]

theorem reporting_keeps (s : State) (va : DWord) (k : GRes) (hm : Q s.mem) (hk : k.Keeps Q) : (reporting s va k).Keeps Q := by
  grind [reporting, engineTrap_keeps]

theorem addCounter_canonical (q : BitVec 3) (bp : Fin 8) (b : CSrc) {order : State → Agent → Nat → State}
    (ho : ∀ x a n, (order x a n).mem = x.mem) {s : State} (hm : canonical s.mem) : Answers canonical (addCounter q bp b order s) :=
  issueG_keeps _ _ _ _ _ _ (fun x hx => by
    have hc := ctrReach_canonical x ((x.unit x.cur.u).u.getPair bp.val) true hx
    dsimp only
    split
    · rename_i h; rw [h] at hc; exact hc
    · rename_i h
      rw [h] at hc
      show canonical (State.mem _)
      rw [ho]
      exact counterAdd_canonical _ _ _ _ _ _ hc) hm

theorem execCadd_canonical (q : BitVec 3) (_scope : BitVec 2) (bp : Fin 8) (b : CSrc) (s : State) (hm : canonical s.mem) :
    Answers canonical (execCadd q _scope bp b s) := by
  grind [execCadd, addCounter_canonical, relaxedAt_mem]

theorem execCaddr_canonical (q : BitVec 3) (scope : BitVec 2) (bp : Fin 8) (b : CSrc) (s : State) (hm : canonical s.mem) :
    Answers canonical (execCaddr q scope bp b s) := by
  grind [execCaddr, addCounter_canonical, releaseAt_mem]

theorem execCread_canonical (q : BitVec 3) (d : Fin 32) (_scope : BitVec 2) (bp : Fin 8) (s : State) (hm : canonical s.mem) :
    Answers canonical (execCread q d _scope bp s) := by
  refine issueG_keeps _ _ _ _ _ _ (fun s hm => ?_) hm
  grind [GRes.Keeps, ctrRead_canonical, modUni_mem, reporting_keeps, seeCtr_mem, CAcc.Keeps]

@[simp] theorem deliverUint_mem (s : State) (u : Nat) (m off : Word) (slot : Nat) : (s.deliverUint u m off slot).mem = s.mem := by
  grind [State.deliverUint, modLanes_mem, setUnit_mem]

theorem atYield_keeps (s : State) (k : GRes) (hm : Q s.mem) (hk : k.Keeps Q) : (atYield s k).Keeps Q := by
  grind [atYield, deliverUint_mem, yieldBy_mem, GRes.Keeps]

@[simp] theorem blockAt_mem (s : State) (w : Wait) : (s.blockAt w).mem = s.mem := rfl

theorem waitCounter_canonical (q : BitVec 3) (scope : BitVec 2) (bp : Fin 8) (b : CSrc) (dl : State → Warp → Option DWord)
    (fin : Bool → Uni → Uni) {s : State} (hm : canonical s.mem) : Answers canonical (waitCounter q scope bp b dl fin s) :=
  issueG_keeps _ _ _ _ _ _ (fun x hx => by
    refine reporting_keeps _ _ _ hx (atYield_keeps _ _ hx ?_)
    have hc := ctrRead_canonical x ((x.unit x.cur.u).u.getPair bp.val) [] hx
    split
    · rename_i h; rw [h] at hc; exact hc
    · rename_i h
      rw [h] at hc
      grind [GRes.Keeps, CAcc.Keeps, yieldBy_mem, modUni_mem, acquireCtr_mem, blockAt_mem]) hm

theorem execWaitge_canonical (q : BitVec 3) (scope : BitVec 2) (bp : Fin 8) (b : CSrc) (s : State) (hm : canonical s.mem) :
    Answers canonical (execWaitge q scope bp b s) := by
  grind [execWaitge, waitCounter_canonical]

theorem execWaitto_canonical (q : BitVec 3) (t : Fin 64) (scope : BitVec 2) (bp : Fin 8) (b : CSrc) (s : State) (hm : canonical s.mem) :
    Answers canonical (execWaitto q t scope bp b s) := by
  grind [execWaitto, waitCounter_canonical]

@[simp] theorem walkPages_mem (s : State) (p : Part) (c : Ctx) (l : List Nat) : (s.walkPages p c l).1.mem = s.mem := by
  induction l generalizing s with
  | nil => rfl
  | cons g r ih => grind [State.walkPages, readWalk_mem]

theorem slotCtlAdd_canonical (s : State) (pn : Nat) (r : CtrRef) (hm : canonical s.mem) : canonical (s.slotCtlAdd pn r).mem := by
  grind [State.slotCtlAdd, counterAdd_canonical, releaseAt_mem]

theorem execPgreq_canonical (q : BitVec 3) (c r : Fin 8) (b : Fin 64) (s : State) (hm : canonical s.mem) :
    Answers canonical (execPgreq q c r b s) := by
  refine issueG_keeps _ _ _ _ _ _ (fun s hm => ?_) hm
  grind [GRes.Keeps, ctrReach_canonical, modPart_mem, slotCtlAdd_canonical, walkPages_mem, frozenAt_keeps, trapWord_keeps, CAcc.Keeps]

theorem execPgadv_keeps (q : BitVec 3) (k : Fin 4) (bp : Fin 8) (b : Fin 64) (s : State) (hm : Q s.mem) :
    Answers Q (execPgadv q k bp b s) := by
  refine issueG_keeps _ _ _ _ _ _ (fun s hm => ?_) hm
  grind [GRes.Keeps, modPart_mem]

theorem execPalloc_keeps (q : BitVec 3) (d : Fin 8) (b : Fin 64) (s : State) (hm : Q s.mem) : Answers Q (execPalloc q d b s) := by
  refine issueG_keeps _ _ _ _ _ _ (fun s hm => ?_) hm
  grind [GRes.Keeps, modCtx_mem, modUni_mem]

theorem execPfree_keeps (q : BitVec 3) (bp : Fin 8) (s : State) (hm : Q s.mem) : Answers Q (execPfree q bp s) := by
  refine issueG_keeps _ _ _ _ _ _ (fun s hm => ?_) hm
  grind [GRes.Keeps, modCtx_mem, raiseEvent_mem]

theorem execCnew_canonical (q : BitVec 3) (d : Fin 8) (scope : BitVec 2) (s : State) (hm : canonical s.mem) :
    Answers canonical (execCnew q d scope s) := by
  refine issueG_keeps _ _ _ _ _ _ (fun s hm => ?_) hm
  grind [GRes.Keeps, counterAt_canonical, counterPut_canonical, modCtx_mem, modUni_mem, overwriteAt_mem]

theorem execCfree_canonical (q : BitVec 3) (bp : Fin 8) (s : State) (hm : canonical s.mem) : Answers canonical (execCfree q bp s) := by
  refine issueG_keeps _ _ _ _ _ _ (fun s hm => ?_) hm
  grind [GRes.Keeps, ctrReach_canonical, modCtx_mem, trapWord_keeps, CAcc.Keeps]

@[simp] theorem arrive_mem (s : State) (u : Nat) : (s.arrive u).mem = s.mem := rfl

theorem execTbar_keeps (q : BitVec 3) (s : State) (hm : Q s.mem) : Answers Q (execTbar q s) := by
  refine issueG_keeps _ _ _ _ _ _ (fun s hm => ?_) hm
  grind [GRes.Keeps, arrive_mem, barrierCheck_mem, blockAt_mem, atYield_keeps]

theorem execFence_keeps (q : BitVec 3) (scope : BitVec 2) (s : State) (hm : Q s.mem) : Answers Q (execFence q scope s) := by
  refine issueG_keeps _ _ _ _ _ _ (fun s hm => ?_) hm
  grind [GRes.Keeps, fenceOrder_mem]

theorem execFencex_keeps (q : BitVec 3) (_scope : BitVec 2) (c1 c2 : Fin 7) (s : State) (hm : Q s.mem) :
    Answers Q (execFencex q _scope c1 c2 s) := by
  refine issueG_keeps _ _ _ _ _ _ (fun s hm => ?_) hm
  grind [GRes.Keeps, fencexOrder_mem]

/-! ### Functions of Machine/EngineWords -/

theorem tileState_keeps (s : State) (reason : Nat) (hm : Q s.mem) : (tileState s reason).Keeps Q := by
  grind [tileState, trapWord_keeps]

theorem tileBounds_keeps (s : State) (t : Nat) (hm : Q s.mem) : (tileBounds s t).Keeps Q := by
  grind [tileBounds, trapWord_keeps]

theorem tileWait_keeps (t : Nat) : (tileWait t).Keeps Q := fun _ hm => hm

theorem tileWord_keeps (q : BitVec 3) (r : InReg) {f : State → Nat → GRes} {s : State}
    (hf : ∀ (x : State) (tm : Nat), Q x.mem → (f x tm).Keeps Q)
    (hm : Q s.mem) : Answers Q (tileWord q r f s) :=
  issueG_keeps _ _ _ _ _ _ (fun x hx => by
    split
    · exact hx
    · exact hf x _ hx) hm

theorem naming_keeps (s : State) (tm t : Nat) (k : GRes) (hm : Q s.mem) (hk : k.Keeps Q) : (naming s tm t k).Keeps Q := by
  grind [naming, engineTrap_keeps]

theorem defTile_keeps (q : BitVec 3) (kind : Bool) (t a b : Fin 64) {s : State} (hm : Q s.mem) : Answers Q (defTile q kind t a b s) :=
  tileWord_keeps _ _ (fun _ _ hx => naming_keeps _ _ _ _ hx (by
    have hw := @tileWait_keeps Q
    grind [GRes.Keeps, tileState_keeps, tileBounds_keeps, modTile_mem])) hm

theorem execTilerel_keeps (q : BitVec 3) (t : Fin 64) (s : State) (hm : Q s.mem) : Answers Q (execTilerel q t s) :=
  tileWord_keeps _ _ (fun _ _ hx => naming_keeps _ _ _ _ hx (GRes.ite_keeps ((congrArg Q (modTile_mem ..)).mpr hx) (tileWait_keeps _))) hm

theorem execTstate_keeps (q : BitVec 3) (d t : Fin 64) (s : State) (hm : Q s.mem) : Answers Q (execTstate q d t s) :=
  tileWord_keeps _ _ (fun _ _ hx => naming_keeps _ _ _ _ hx (by
    show Q (State.mem (State.modUni _ _ _))
    rw [modUni_mem]
    split
    · exact ite_keeps hx hx
    all_goals exact hx)) hm

theorem tileRule_keeps (s : State) (tm : Nat) (op : CmdOp) (t : Nat) (k : GRes) (hm : Q s.mem) (hk : k.Keeps Q) :
    (tileRule s tm op t k).Keeps Q := by
  unfold tileRule
  grind [tileBounds_keeps, tileState_keeps, tileWait_keeps]

theorem recordRule_keeps (s : State) (tm : Nat) (op : CmdOp) (a : Word) (k : GRes) (hm : Q s.mem) (hk : k.Keeps Q) :
    (recordRule s tm op a k).Keeps Q := by
  grind [recordRule, trapWord_keeps]

@[simp] theorem addCmd_mem (s : State) (tm : Nat) (op : CmdOp) (tile : Option Nat) (bp bp2 : DWord) (sval : Word) :
    (s.addCmd tm op tile bp bp2 sval).mem = s.mem := by
  grind [State.addCmd, modTile_mem]

theorem engineWord_keeps (q : BitVec 3) (op : CmdOp) (t : Option (Fin 64)) (bp bp2 : Option (Fin 8)) (b : Option (Fin 64)) {s : State}
    (hm : Q s.mem) : Answers Q (engineWord q op t bp bp2 b s) :=
  tileWord_keeps _ _ (fun x tm hx => by
    dsimp only
    split
    · refine naming_keeps _ _ _ _ hx (tileRule_keeps _ _ _ _ _ hx (recordRule_keeps _ _ _ _ _ hx ?_))
      grind [GRes.Keeps, addCmd_mem]
    · refine recordRule_keeps _ _ _ _ _ hx ?_
      grind [GRes.Keeps, addCmd_mem]) hm

/-! ### Functions of Machine/Completion -/

@[simp] theorem bearAgent_mem (s : State) (a : Agent) (start : VC) : (s.bearAgent a start).mem = s.mem := rfl

@[simp] theorem dropAgent_mem (s : State) (a : Agent) : (s.dropAgent a).mem = s.mem := rfl

@[simp] theorem holdFault_mem (s : State) (u grid : Nat) (h : Held) : (s.holdFault u grid h).mem = s.mem := by
  grind [State.holdFault, modTile_mem, modUnit_mem, raiseEvent_mem]

@[simp] theorem failAdd_mem (s : State) (u grid team cls : Nat) (ctr : DWord) : (s.failAdd u grid team cls ctr).mem = s.mem := by
  grind [State.failAdd, holdFault_mem]

theorem completionAdd_canonical (s : State) (u grid team cls : Nat) (a : Agent) (ctr : DWord) (v : VC) (hm : canonical s.mem) :
    canonical (s.completionAdd u grid team cls a ctr v).1.mem := by
  grind [State.completionAdd, counterAdd_canonical, counterAt_canonical, failAdd_mem, publish_mem]

/-! ### Functions of Machine/Overlay -/

theorem imageBytes_canonical (s : State) (pn asid sl va n : Nat) (hm : canonical s.mem) :
    canonical (s.imageBytes pn asid sl va n).1.mem := by
  unfold State.imageBytes
  refine foldl_fst_keeps (fun r a hr => ?_) _ hm
  have ht := translate_canonical r.1 pn asid sl (BitVec.ofNat 64 a.1) hr
  grind [reachLine_mem]

theorem loadImage_canonical (s : State) (pn asid sl va : Nat) (hm : canonical s.mem) : canonical (s.loadImage pn asid sl va).1.mem := by
  grind [State.loadImage, imageBytes_canonical]

@[simp] theorem setOvl_mem (s : State) (core slot : Nat) (o : Ovl) : (s.setOvl core slot o).mem = s.mem := rfl

@[simp] theorem setRovl_mem (s : State) (key : Nat) (o : Ovl) : (s.setRovl key o).mem = s.mem := rfl

/-! ### Functions of Machine/EngineAccess -/

theorem engReach_canonical (s : State) (c : Cmd) (va : DWord) (al n : Nat) (wr : Bool) (hm : canonical s.mem) :
    canonical (s.engReach c va al n wr).1.mem := by
  grind [State.engReach, permit_canonical]

theorem engRead_canonical (s : State) (c : Cmd) (va : DWord) (al n : Nat) (hm : canonical s.mem) :
    canonical (s.engRead c va al n).1.mem := by
  grind [State.engRead, engReach_canonical, perfLoad_mem]

theorem blockReach_canonical (s : State) (c : Cmd) (va : Nat) (hm : canonical s.mem) : canonical (s.blockReach c va).1.mem := by
  unfold State.blockReach
  refine foldl_fst_keeps (fun r a hr => ?_) _ hm
  have ht := engReach_canonical r.1 c (BitVec.ofNat 64 (va + 128 * a)) 1 128 false hr
  grind

theorem engBlock_canonical (s : State) (c : Cmd) (va : Nat) (hm : canonical s.mem) : canonical (s.engBlock c va).1.mem := by
  have hb := blockReach_canonical s c va hm
  unfold State.engBlock
  split
  · rename_i h; rw [h] at hb; exact hb
  · rename_i h
    rw [h] at hb
    refine foldl_fst_keeps (fun r a hr => ?_) _ hb
    grind [perfLoad_mem]

theorem engWrite_canonical (s : State) (c : Cmd) (va : DWord) (al : Nat) (bs : List Byte) (hm : canonical s.mem) :
    canonical (s.engWrite c va al bs).1.mem := by
  grind [State.engWrite, engReach_canonical, perfStore_canonical, setDirty_canonical]

theorem engReadSpan_canonical (s : State) (c : Cmd) (va n : Nat) (hm : canonical s.mem) : canonical (s.engReadSpan c va n).1.mem := by
  unfold State.engReadSpan
  refine foldl_fst_keeps (fun r a hr => ?_) _ hm
  have he := engRead_canonical r.1 c (BitVec.ofNat 64 a.1) 1 a.2 hr
  grind

theorem engWriteSpan_canonical (s : State) (c : Cmd) (va : Nat) (bs : List Byte) (hm : canonical s.mem) :
    canonical (s.engWriteSpan c va bs).1.mem := by
  unfold State.engWriteSpan
  refine foldl_fst_keeps (fun r a hr => ?_) _ hm
  grind [engWrite_canonical]

theorem engAtomic_canonical (s : State) (c : Cmd) (va : DWord) (op : AtomOp) (x : Word) (hm : canonical s.mem) :
    canonical (s.engAtomic c va op x).1.mem := by
  grind [State.engAtomic, engReach_canonical, perfAtomic_canonical, setDirty_canonical]

@[simp] theorem engLocal_mem (s : State) (c : Cmd) (lo n : Nat) (wr : Bool) : (s.engLocal c lo n wr).1.mem = s.mem := by
  grind [State.engLocal, noteAccess_mem]

theorem engStoreBits_canonical (s : State) (c : Cmd) (va : DWord) (sh v : Nat) (hm : canonical s.mem) :
    canonical (s.engStoreBits c va sh v).1.mem := by
  unfold State.engStoreBits
  refine foldl_fst_keeps (fun r i hr => ?_) _ hm
  have he := engReach_canonical r.1 c (va + BitVec.ofNat 64 i) 1 1 true hr
  grind [perfStore_canonical, setDirty_canonical]

theorem intoTile_mem (c : Cmd) (ta : Nat) (f : List Byte → List Byte) (r : State × Except EngStop (List Byte)) :
    (State.intoTile c ta f r).1.mem = r.1.mem := by
  obtain ⟨s, _ | _⟩ := r <;> rfl

theorem runOp_canonical (s : State) (c : Cmd) (o : EOp) (hm : canonical s.mem) : canonical (s.runOp c o).1.mem := by
  cases o with
  | refuse va => exact hm
  | fill ta n => exact hm
  | load va n ta => grind [State.runOp, intoTile_mem, engRead_canonical]
  | store ta n va => exact engWrite_canonical _ _ _ _ _ hm
  | loadBits row va sh ta => grind [State.runOp, intoTile_mem, engReadSpan_canonical]
  | storeBits ta row va sh => grind [State.runOp, engStoreBits_canonical]
  | block va code valid ta => grind [State.runOp, intoTile_mem, engBlock_canonical]
  | move src dst n =>
    cases src with
    | none => exact engWrite_canonical _ _ _ _ _ hm
    | some va =>
      have he := engRead_canonical s c va n n hm
      grind [State.runOp, engWrite_canonical]
  | rmw ta va op => exact engAtomic_canonical _ _ _ _ _ hm
  | put va bs => exact engWriteSpan_canonical _ _ _ _ hm

theorem runOps_canonical (s : State) (c : Cmd) (l : List EOp) (n : Nat) (hm : canonical s.mem) : canonical (s.runOps c l n).1.mem := by
  induction l generalizing s n with
  | nil => exact hm
  | cons o r ih =>
    have ho := runOp_canonical s c o hm
    grind [State.runOps]

@[simp] theorem runLocals_mem (s : State) (c : Cmd) (ls : List (Nat × Nat × Bool)) : (s.runLocals c ls).1.mem = s.mem := by
  unfold State.runLocals
  rw [foldl_fst_mem]
  intro r a
  grind [engLocal_mem]

theorem runPlan_canonical (s : State) (c : Cmd) (p : Plan) (hm : canonical s.mem) : canonical (s.runPlan c p).1.mem := by
  grind [State.runPlan, runLocals_mem, runOps_canonical]

theorem runAhead_canonical (s : State) (c : Cmd) (l : List (List (EOp × Nat))) (skip : List (Nat × Nat)) (dn : List Nat)
    (hm : canonical s.mem) : canonical (s.runAhead c l skip dn).1.mem := by
  induction l generalizing s skip dn with
  | nil => exact hm
  | cons g r ih =>
    have ho := runOps_canonical s c (g.map (·.1)) 0 hm
    grind [State.runAhead]

theorem runSome_canonical (s : State) (c : Cmd) (o : EOp) (hm : canonical s.mem) : canonical (s.runSome c o).mem := by
  have ho := runOp_canonical s c o hm
  cases o with
  | block va code valid ta => exact foldl_keeps (fun t q ht => by split <;> exact ht) _ ho
  | _ => exact ho

theorem runPart_canonical (s : State) (c : Cmd) (p : Plan) (n : Nat) (hm : canonical s.mem) : canonical (s.runPart c p n).mem :=
  foldl_keeps (fun _ _ h => runSome_canonical _ _ _ h) _ hm

@[simp] theorem modCmd_mem (s : State) (id : Nat) (f : Cmd → Cmd) : (s.modCmd id f).mem = s.mem := rfl

@[simp] theorem leaveChain_mem (s : State) (c : Cmd) : (s.leaveChain c).mem = s.mem := by
  grind [State.leaveChain, dropAgent_mem, teamFree_mem]

theorem finishCmd_canonical (s : State) (c : Cmd) (hm : canonical s.mem) {t : State} (ht : s.finishCmd c = some t) : canonical t.mem := by
  grind [State.finishCmd, completionAdd_canonical, leaveChain_mem, modCmd_mem, modTile_mem, violate_mem]

@[simp] theorem faultCmd_mem (s : State) (c : Cmd) (taddr : DWord) : (s.faultCmd c taddr).mem = s.mem := by
  grind [State.faultCmd, holdFault_mem, leaveChain_mem, modTile_mem]

@[simp] theorem failCmdAdd_mem (s : State) (c : Cmd) : (s.failCmdAdd c).mem = s.mem := by
  grind [State.failCmdAdd, failAdd_mem, leaveChain_mem]

theorem stopCmd_mem (s : State) (c : Cmd) (e : EngStop) {t : State} (ht : s.stopCmd c e = some t) : t.mem = s.mem := by
  cases e <;> grind [State.stopCmd, modCmd_mem, violate_mem]

/-! ### Functions of Machine/SealRun -/

@[simp] theorem nextSeq_mem (s : State) (h : Word) : (s.nextSeq h).1.mem = s.mem := by
  grind [State.nextSeq]

@[simp] theorem signSeal_mem (s : State) (u : Nat) (kind reason : Nat) (c : Seal) (meta64 : List Byte) :
    (s.signSeal u kind reason c meta64).1.mem = s.mem := by
  grind [State.signSeal, nextSeq_mem]

theorem writeVoid_canonical (s : State) (c : Cmd) (va : Nat) (bs : List Byte) (hm : canonical s.mem) :
    canonical (s.writeVoid c va bs).1.mem := by
  unfold State.writeVoid
  refine foldl_fst_keeps (fun r p hr => ?_) _ hm
  have he := engWrite_canonical r.1 c (BitVec.ofNat 64 p.1) 1 ((bs.drop (p.1 - va)).take p.2) hr
  grind

theorem voidSeal_canonical (s : State) (c : Cmd) (reason : Nat) (hm : canonical s.mem) : canonical (s.voidSeal c reason).1.mem := by
  grind [State.voidSeal, modUnit_mem, signSeal_mem, writeVoid_canonical]

theorem stopStep_keeps (s : State) (c : Cmd) (e : EngStop) (hm : Q s.mem) : Answers Q (stopStep s c e) := by
  grind [stopStep, stopCmd_mem, Answers]

theorem finishStep_canonical (s : State) (c : Cmd) (hm : canonical s.mem) : Answers canonical (finishStep s c) := by
  grind [finishStep, finishCmd_canonical, Answers]

theorem runSealb_canonical (s : State) (c : Cmd) (hm : canonical s.mem) : canonical (s.runSealb c).1.mem := by
  grind [State.runSealb, modUnit_mem, voidSeal_canonical]

theorem runSealu_canonical (s : State) (c : Cmd) (hm : canonical s.mem) : canonical (s.runSealu c).1.mem := by
  grind [State.runSealu, engReadSpan_canonical, modUnit_mem]

theorem signFrame_canonical (s : State) (c : Cmd) (hm : canonical s.mem) : canonical (s.signFrame c).1.mem := by
  grind [State.signFrame, engReadSpan_canonical, modCmd_mem, signSeal_mem]

theorem execSealContextVoid_canonical (u reason : Nat) (s : State) (hm : canonical s.mem) :
    Answers canonical (execSealContextVoid u reason s) := by
  grind [execSealContextVoid, bearAgent_mem, leaveChain_mem, voidSeal_canonical, stopStep_keeps, Answers]

/-! ### Functions of Machine/CollRun -/

@[simp] theorem setAssoc_mem (s : State) (sl a : Nat) (x : Assoc) : (s.setAssoc sl a x).mem = s.mem := rfl

theorem sendMessages_mem (s : State) (c : Cmd) (send : List Byte) {t : State} (ht : s.sendMessages c send = some t) : t.mem = s.mem := by
  unfold State.sendMessages at ht
  refine foldl_bind_mem (fun m x y hy => ?_) _ (fun x hx => by cases hx; rfl) ht
  grind [modSlice_mem, setAssoc_mem]

@[simp] theorem collFlit_mem (s : State) (c : Cmd) : (s.collFlit c).mem = s.mem := by
  grind [State.collFlit, active_mem]

theorem takePacket_mem (s : State) (sl a : Nat) (payload : List Byte) {t : State} (ht : s.takePacket sl a payload = some t) :
    t.mem = s.mem := by
  simp only [State.takePacket, Option.bind_eq_some_iff] at ht
  grind [setAssoc_mem]

theorem takeMsgs_mem (s : State) (c : Cmd) (l : List Msg) {t : State} (ht : s.takeMsgs c l = some t) : t.mem = s.mem := by
  induction l generalizing s with
  | nil => cases ht; rfl
  | cons m r ih =>
    simp only [State.takeMsgs] at ht
    split at ht
    · exact ih s ht
    · obtain ⟨x, hx, ht⟩ := Option.bind_eq_some_iff.mp ht
      exact (ih x ht).trans (takePacket_mem _ _ _ _ hx)

theorem collSend_canonical (s : State) (c : Cmd) (hm : canonical s.mem) : canonical (s.collSend c).1.mem := by
  grind [State.collSend, collFlit_mem, engReadSpan_canonical, sendMessages_mem]

theorem collEnd_canonical (s : State) (c : Cmd) (hm : canonical s.mem) : Answers canonical (s.collEnd c) := by
  grind [State.collEnd, runPart_canonical, runPlan_canonical, finishStep_canonical, stopStep_keeps]

theorem collStep_canonical (id opc : Nat) (inputs : List Msg) (s : State) (hm : canonical s.mem) :
    Answers canonical (collStep id opc inputs s) := by
  grind [collStep, collEnd_canonical, collSend_canonical, modCmd_mem, takeMsgs_mem, stopStep_keeps, Answers]

theorem execCollPut_canonical (cmd : Nat) (acked : Bool) (s : State) (hm : canonical s.mem) :
    Answers canonical (execCollPut cmd acked s) := by
  grind [execCollPut, collSend_canonical, modCmd_mem, takeMsgs_mem, finishStep_canonical, stopStep_keeps, Answers]

theorem farReach_canonical (s : State) (sl pn asid va n : Nat) (wr : Bool) (hm : canonical s.mem) :
    canonical (s.farReach sl pn asid va n wr).1.mem := by
  grind [State.farReach, permit_canonical]

@[simp] theorem portFire_mem (s : State) (sl : Nat) (wr : Bool) (pa : Nat) : (s.portFire sl wr pa).mem = s.mem := by
  grind [State.portFire, modSlice_mem, violate_mem]

theorem farSpan_canonical (s : State) (sl pn asid va n : Nat) (wr : Bool) {f : State → Acc1 → Xlat → Nat → State × Bool}
    (hf : ∀ x a l k, canonical x.mem → canonical (f x a l k).1.mem) (hm : canonical s.mem) :
    canonical (s.farSpan sl pn asid va n wr f).1.mem := by
  unfold State.farSpan
  refine foldl_fst_keeps (fun r p hr => ?_) _ hm
  have hc := farReach_canonical r.1 sl pn asid p.1 p.2 wr hr
  grind [portFire_mem]

theorem farCount_canonical (s : State) (sl pn asid ctr : Nat) (hm : canonical s.mem) {t : State} (ht : s.farCount sl pn asid ctr = some t) :
    canonical t.mem := by
  grind [State.farCount, counterAdd_canonical, counterAt_canonical, portFire_mem, releaseAt_mem]

theorem takeAccess_mem (s : State) (sl : Nat) (payload : List Byte) {n : Nat} {t : State} (ht : s.takeAccess sl payload = some (n, t)) :
    t.mem = s.mem := by
  simp only [State.takeAccess, Option.map_eq_some_iff] at ht
  grind [setAssoc_mem]

theorem farAnswer_mem (s : State) (sl a : Nat) (acc : RemoteAccess) {t : State} (ht : s.farAnswer sl a acc = some t) : t.mem = s.mem := by
  simp only [State.farAnswer, Option.bind_eq_some_iff] at ht
  grind [setAssoc_mem]

theorem execFabricRemoteAccess_canonical (sl : Nat) (acc : RemoteAccess) (s : State) (hm : canonical s.mem) :
    Answers canonical (execFabricRemoteAccess sl acc s) := by
  unfold execFabricRemoteAccess
  dsimp only
  split
  · trivial
  refine Answers.ite trivial ?_
  split
  · trivial
  rename_i a y hy
  have hx : canonical y.mem := (congrArg canonical (takeAccess_mem _ _ _ hy)).mpr hm
  refine Answers.ite hx ?_
  cases acc with
  | put ctx va bytes rcnt =>
    dsimp only
    split <;> rename_i e
    case h_2 => trivial
    all_goals
      have hf := fst_keeps_of_eq e (farSpan_canonical _ _ _ _ _ _ _ (fun x a l k hx => by
        have hs := perfStore_canonical x a ((bytes.drop k).take a.len) none hx
        split <;> (rename_i e; rw [e] at hs)
        · exact setDirty_canonical _ _ _ hs
        · exact hs) hx)
    · split
      · rename_i h; exact farCount_canonical _ _ _ _ _ hf h
      · trivial
    · exact hf
  | get ctx va len =>
    dsimp only
    split <;> rename_i e
    case h_2 => trivial
    all_goals
      have hf := fst_keeps_of_eq e (farSpan_canonical _ _ _ _ _ _ _ (fun x a l k hx => by
        have hl : canonical (x.perfLoad a none).1.mem := (congrArg canonical (perfLoad_mem ..)).mpr hx
        split <;> (rename_i e; rw [e] at hl; exact hl)) hx)
    · split
      · rename_i h; exact (congrArg canonical (farAnswer_mem _ _ _ _ h)).mpr hf
      · trivial
    · exact hf

/-! ### Functions of Machine/CkptRun -/

theorem setSnap_canonical (s : State) (k : Nat) (on : Bool) (hm : canonical s.mem) : canonical (s.setSnap k on).mem := by
  grind [State.setSnap, putEntry_canonical]

theorem markPages_canonical (s : State) (c : Cmd) (pages : List Nat) (hm : canonical s.mem) : canonical (s.markPages c pages).mem :=
  foldl_keeps (fun r va hr => by
    split
    · exact setSnap_canonical _ _ _ hr
    · exact hr) _ hm

theorem unmarkPage_canonical (s : State) (c : Cmd) (va : Nat) (hm : canonical s.mem) : canonical (s.unmarkPage c va).mem := by
  grind [State.unmarkPage, modCmd_mem, setSnap_canonical]

theorem unmarkAll_canonical (s : State) (c : Cmd) (hm : canonical s.mem) : canonical (s.unmarkAll c).mem :=
  foldl_keeps (fun _ _ hr => unmarkPage_canonical _ _ _ hr) _ hm

theorem engCopy_canonical (s : State) (c : Cmd) (va n : Nat) (hm : canonical s.mem) : canonical (s.engCopy c va n).1.mem := by
  unfold State.engCopy
  refine foldl_fst_keeps (fun r p hr => ?_) _ hm
  have he := engReach_canonical r.1 c (BitVec.ofNat 64 p.1) 1 p.2 false hr
  grind [reach_mem, note_mem]

theorem execCkptPageCopy_canonical (cmd va : Nat) (s : State) (hm : canonical s.mem) : Answers canonical (execCkptPageCopy cmd va s) := by
  unfold execCkptPageCopy
  split
  · trivial
  rename_i c _
  refine Answers.ite trivial ?_
  extract_lets r
  have hr : canonical r.1.mem := foldl_fst_keeps (fun x p hx => by
    split
    · exact hx
    · rename_i y acc
      have he := engCopy_canonical y c p.1 p.2 hx
      split <;> (rename_i e; rw [e] at he; exact he)) _ hm
  clear_value r
  split
  · exact stopStep_keeps _ _ _ hr
  · exact unmarkPage_canonical _ _ _ hr

theorem ckptEnd_canonical (s : State) (c : Cmd) (status : Nat) (hm : canonical s.mem) : Answers canonical (ckptEnd s c status) := by
  grind [ckptEnd, engWriteSpan_canonical, finishStep_canonical, stopStep_keeps]

theorem execCkptSave_canonical (cmd : Nat) (reach : Bool) (readback : Nat) (s : State) (hm : canonical s.mem) :
    Answers canonical (execCkptSave cmd reach readback s) := by
  grind [execCkptSave, ckptEnd_canonical, Answers]

theorem restoreWrites_canonical (s : State) (c : Cmd) (hm : canonical s.mem) : canonical (s.restoreWrites c).1.mem := by
  grind [State.restoreWrites, modCmd_mem]

theorem execCkptRestore_canonical (cmd : Nat) (reach : Bool) (s : State) (hm : canonical s.mem) :
    Answers canonical (execCkptRestore cmd reach s) := by
  grind [execCkptRestore, restoreWrites_canonical, runPart_canonical, runPlan_canonical, ckptEnd_canonical, stopStep_keeps, Answers]

theorem pagesReach_canonical (s : State) (c : Cmd) (wr : Bool) (hm : canonical s.mem) : canonical (s.pagesReach c wr).1.mem := by
  unfold State.pagesReach
  refine foldl_fst_keeps (fun r va hr => ?_) _ hm
  have he := engReach_canonical r.1 c (BitVec.ofNat 64 va) 1 1 wr hr
  grind

theorem startCkpt_canonical (s : State) (c : Cmd) (hm : canonical s.mem) : canonical (s.startCkpt c).1.mem := by
  grind [State.startCkpt, engReadSpan_canonical, markPages_canonical, pagesReach_canonical]

/-! ### Functions of Machine/EngineEvents -/

@[simp] theorem readRecord_mem (s : State) (c : Cmd) : (s.readRecord c).1.mem = s.mem := by
  grind [State.readRecord, engLocal_mem]

@[simp] theorem enterColl_mem (s : State) (c : Cmd) (r : List Byte) : (s.enterColl c r).mem = s.mem := by
  grind [State.enterColl, modPart_mem]

theorem startColl_canonical (s : State) (c : Cmd) (hm : canonical s.mem) : canonical (s.startColl c).1.mem := by
  grind [State.startColl, engReadSpan_canonical, enterColl_mem]

theorem startKind_canonical (s : State) (c : Cmd) (hm : canonical s.mem) : canonical (s.startKind c).1.mem := by
  grind [State.startKind, startCkpt_canonical, startColl_canonical]

theorem planOf_canonical (s : State) (c : Cmd) (hm : canonical s.mem) : canonical (s.planOf c).1.mem := by
  grind [State.planOf, restoreWrites_canonical, signFrame_canonical]

theorem goOn_canonical (s : State) (c : Cmd) (hm : canonical s.mem) : Answers canonical (s.goOn c) := by
  grind [State.goOn, modCmd_mem, planOf_canonical, runAhead_canonical, runLocals_mem, Answers]

theorem execEngineCommandStart_canonical (cmd : Nat) (s : State) (hm : canonical s.mem) :
    Answers canonical (execEngineCommandStart cmd s) := by
  grind [execEngineCommandStart, bearAgent_mem, goOn_canonical, modCmd_mem, readRecord_mem, startKind_canonical, stopStep_keeps, Answers]

theorem runRest_canonical (s : State) (c : Cmd) (hm : canonical s.mem) : canonical (s.runRest c).1.mem := by
  grind [State.runRest, planOf_canonical, runPart_canonical, runPlan_canonical]

theorem runCmd_canonical (s : State) (c : Cmd) (hm : canonical s.mem) : canonical (s.runCmd c).1.mem := by
  grind [State.runCmd, modUnit_mem, runRest_canonical, runSealb_canonical, runSealu_canonical]

theorem execEngineCommandComplete_canonical (cmd : Nat) (s : State) (hm : canonical s.mem) :
    Answers canonical (execEngineCommandComplete cmd s) := by
  grind [execEngineCommandComplete, runCmd_canonical, finishStep_canonical, Answers]

theorem endFault_canonical (s : State) (c : Cmd) (taddr : DWord) (hm : canonical s.mem) : canonical (s.endFault c taddr).mem := by
  grind [State.endFault, faultCmd_mem, unmarkAll_canonical]

theorem execEngineCommandFault_canonical (cmd : Nat) (s : State) (hm : canonical s.mem) :
    Answers canonical (execEngineCommandFault cmd s) := by
  unfold execEngineCommandFault
  grind [endFault_canonical, runCmd_canonical, stopStep_keeps, Answers]

/-! ### Functions of Machine/LaneFloat -/

theorem laneF1_keeps (g : BitVec 3) (d : Dest) (a : Src) (f : RM → Bool → Word → Word × Word) {s : State} (hm : Q s.mem) :
    Answers Q (laneF1 g d a f s) := issueL_keeps _ _ _ _ (fun _ act h => laneBody_keeps _ act h) hm

theorem laneF2_keeps (g : BitVec 3) (d : Dest) (a b : Src) (f : RM → Bool → Word → Word → Word × Word) {s : State} (hm : Q s.mem) :
    Answers Q (laneF2 g d a b f s) := issueL_keeps _ _ _ _ (fun _ act h => laneBody_keeps _ act h) hm

theorem laneFAcc_keeps (g : BitVec 3) (d : Fin 120) (a b : Src) (f : RM → Bool → Word → Word → Word → Word × Word) {s : State}
    (hm : Q s.mem) :
    Answers Q (laneFAcc g d a b f s) := issueL_keeps _ _ _ _ (fun _ act h => laneBody_keeps _ act h) hm

theorem laneFCmp_keeps (g : BitVec 3) (p : Fin 7) (a b : Src) (r : FRel) {s : State} (hm : Q s.mem) : Answers Q (laneFCmp g p a b r s) :=
  issueL_keeps _ _ _ _ (fun _ act h => laneBody_keeps _ act h) hm

theorem execFmal_keeps (g : BitVec 3) (d : Dest) (a b : Src) (s : State) (hm : Q s.mem) : Answers Q (execFmal g d a b s) := by
  grind [execFmal, issueL_keeps, laneBody_keeps]

/-! ### Functions of Machine/LaneConv -/

theorem execCvtn_keeps (g : BitVec 3) (d : Dest) (a : Src) (n : Fin 8) (mode : BitVec 4) (s : State) (hm : Q s.mem) :
    Answers Q (execCvtn g d a n mode s) := by
  grind [execCvtn, issueL_keeps, laneBody_keeps]

theorem execCvtw_keeps (g : BitVec 3) (d : Dest) (a : Src) (n : Fin 8) (_mode : BitVec 4) (s : State) (hm : Q s.mem) :
    Answers Q (execCvtw g d a n _mode s) := by
  grind [execCvtw, issueL_keeps, laneBody_keeps]

theorem execQscale_keeps (g : BitVec 3) (d : Dest) (a : Src) (n : Fin 8) (mode : BitVec 4) (s : State) (hm : Q s.mem) :
    Answers Q (execQscale g d a n mode s) := by
  grind [execQscale, issueL_keeps, laneBody_keeps]

theorem laneExchange_keeps (g : BitVec 3) (d : Dest) (a : Fin 120) (b : Src) (src : Cur → Warp → Word → (Nat → Word) → Nat → Word)
    {s : State}
    (hm : Q s.mem) : Answers Q (laneExchange g d a b src s) :=
  issueL_keeps _ _ _ _ (fun _ act h => Answers.ite hm (laneBody_keeps _ act h)) hm

theorem execBallot_keeps (g : BitVec 3) (d : Dest) (a : Fin 8) (s : State) (hm : Q s.mem) : Answers Q (execBallot g d a s) := by
  grind [execBallot, issueL_keeps, laneBody_keeps]

/-! ### Functions of Machine/MatrixWords -/

theorem cellCheck_keeps (s : State) (w : Warp) (m : MmaOps) (sparse : Bool) (c : MatCell) (hm : Q s.mem) :
    ∀ r ∈ s.cellCheck w m sparse c, r.Keeps Q := by
  have hs : ∀ n, (tileState s n).Keeps Q := fun n => tileState_keeps s n hm
  have hb : ∀ n, (tileBounds s n).Keeps Q := fun n => tileBounds_keeps s n hm
  have hw : ∀ n x, (trapWord s n x).Keeps Q := fun n x => trapWord_keeps s n x hm
  intro r hr
  unfold State.cellCheck at hr
  split at hr
  · dsimp only at hr
    split at hr
    · cases hr; exact hs _
    split at hr
    · cases hr; exact hs _
    split at hr
    · cases hr; exact hs _
    split at hr
    · cases hr; exact hb _
    grind
  · cases hr; exact hs _

@[simp] theorem takeA_mem (s : State) (core oct : Nat) (h : Bool) : (s.takeA core oct h).1.mem = s.mem := by
  grind [State.takeA, modCore_mem]

@[simp] theorem addReader_mem (s : State) (tm t : Nat) : (s.addReader tm t).mem = s.mem := by
  grind [State.addReader, modTile_mem]

@[simp] theorem queueCell_mem (u : Nat) (m : MmaOps) (kind : MatKind) (ccnt : DWord) (rel start : VC) (grp : Nat) (cores : List Nat)
    (s : State)
    (c : MatCell) (a sa : Tab Word) : (queueCell u m kind ccnt rel start grp cores s c a sa).mem = s.mem := rfl

@[simp] theorem issueCells_mem (s : State) (m : MmaOps) (kind : MatKind) (cells : List MatCell) :
    (issueCells s m kind cells).mem = s.mem := by
  unfold issueCells
  extract_lets
  rw [mem_foldl _ fun _ _ => addReader_mem _ _ _, mem_foldl]
  intro x src
  dsimp only
  rw [mem_foldl _ fun _ _ => queueCell_mem _ _ _ _ _ _ _ _ _ _ _ _]
  exact takeA_mem _ _ _ _

theorem matWord_keeps (s : State) (m : MmaOps) (kind : MatKind) (board : List (Option MatCell)) (hm : Q s.mem) :
    (matWord s m kind board).Keeps Q := by
  unfold matWord
  extract_lets
  split
  · exact engineTrap_keeps _ _ hm
  · split
    · rename_i r h
      obtain ⟨c, -, hc⟩ := List.exists_of_findSome?_eq_some h
      cases c with
      | none => cases hc; exact tileState_keeps _ _ hm
      | some c => exact cellCheck_keeps _ _ _ _ _ hm r hc
    · split
      · exact tileWait_keeps _
      · split
        · trivial
        · split
          · trivial
          · show Q (State.mem _)
            rwa [issueCells_mem]

theorem reckWord_keeps (q : BitVec 3) {f : State → GRes} {s : State} (hf : ∀ x : State, Q x.mem → (f x).Keeps Q) (hm : Q s.mem) :
    Answers Q (reckWord q f s) := issueG_keeps _ _ _ _ _ _ hf hm

theorem execMsel_keeps (q : BitVec 3) (core : Fin 4) (a : Fin 64) (s : State) (hm : Q s.mem) : Answers Q (execMsel q core a s) :=
  reckWord_keeps _ (fun x hx => by
    dsimp only
    split
    · exact tileState_keeps _ _ hx
    · exact GRes.ite_keeps (tileState_keeps _ _ hx) hx) hm

theorem execMma_keeps (q : BitVec 3) (m : MmaOps) (s : State) (hm : Q s.mem) : Answers Q (execMma q m s) := by
  grind [execMma, matWord_keeps, reckWord_keeps]

theorem execMmas_keeps (q : BitVec 3) (m : MmaOps) (s : State) (hm : Q s.mem) : Answers Q (execMmas q m s) := by
  grind [execMmas, matWord_keeps, reckWord_keeps]

theorem execMmag_keeps (q : BitVec 3) (m : MmaOps) (s : State) (hm : Q s.mem) : Answers Q (execMmag q m s) := by
  grind [execMmag, matWord_keeps, reckWord_keeps, tileState_keeps]

@[simp] theorem queueOne_mem (s : State) (k : Nat) (kind : MatKind) (acc : Bool) (factor : Tab Word) :
    (queueOne s k kind acc factor).mem = s.mem := rfl

theorem execMscale_keeps (q : BitVec 3) (acc : Bool) (oct : Fin 15) (core : Fin 4) (s : State) (hm : Q s.mem) :
    Answers Q (execMscale q acc oct core s) :=
  reckWord_keeps _ (fun _ hx => GRes.ite_keeps (tileState_keeps _ _ hx) (GRes.ite_keeps (tileState_keeps _ _ hx)
    (GRes.ite_keeps (trapWord_keeps _ _ _ hx) (GRes.ite_keeps trivial ((congrArg Q (queueOne_mem ..)).mpr hx))))) hm

theorem execMzero_keeps (q : BitVec 3) (acc : Bool) (core : Fin 4) (s : State) (hm : Q s.mem) : Answers Q (execMzero q acc core s) :=
  reckWord_keeps _ (fun _ hx => GRes.ite_keeps (tileState_keeps _ _ hx)
    (GRes.ite_keeps trivial ((congrArg Q (queueOne_mem ..)).mpr hx))) hm

theorem execMrel_keeps (q : BitVec 3) (core : Fin 4) (s : State) (hm : Q s.mem) : Answers Q (execMrel q core s) :=
  reckWord_keeps _ (fun _ hx => hx) hm

theorem execMwait_keeps (q : BitVec 3) (core : Option (Fin 4)) (s : State) (hm : Q s.mem) : Answers Q (execMwait q core s) :=
  reckWord_keeps _ (fun x hx => by
    dsimp only
    split
    · exact engineTrap_keeps _ _ hx
    · exact GRes.ite_keeps trivial hx) hm

/-! ### Functions of Machine/Reads -/

@[simp] theorem settleFor_mem (s : State) (i : Instr) : (s.settleFor i).mem = s.mem := by
  grind [State.settleFor, settle_mem]

theorem runSettled_keeps {run : Instr → State → Out State} (hr : RunKeeps Q run) (i : Instr) {s : State}
    (hm : Q s.mem) : Answers Q (runSettled run i s) := by
  have hs : Q (s.settleFor i).mem := (settleFor_mem s i).symm ▸ hm
  have h := hr i _ hs
  unfold runSettled
  split
  · rename_i x hx
    rw [hx] at h
    split
    · exact h
    · exact hr i _ hm
  · exact h

/-! ### Functions of Machine/LaneCtl -/

theorem groupTrap_keeps (s0 s : State) (cause : Nat) (taddr : DWord) (h0 : Q s0.mem) (hm : Q s.mem) :
    Answers Q (groupTrap s0 s cause taddr) :=
  raiseGroup_keeps _ _ _ _ h0 hm

theorem splitLanes_keeps (s0 s : State) (act bad : Word) (tpc : Word) (r : Nat → TrapRec) (f : Nat → Thread → Thread) (h0 : Q s0.mem)
    (hm : Q s.mem) : Answers Q (splitLanes s0 s act bad tpc r f) := by
  refine Answers.ite h0 ?_
  show Q (State.mem _)
  rwa [raiseLanes_mem]

theorem accBody_keeps (acc : Bool) {f : State → Nat → Word → Out State} (s0 s : State) (act : Word)
    (hf : ∀ (x : State) (q : Nat) (a : Word), Q x.mem → Answers Q (f x q a)) (h0 : Q s0.mem) (hm : Q s.mem) :
    Answers Q (accBody acc f s0 s act) := by
  unfold accBody
  dsimp only
  split
  · exact groupTrap_keeps _ _ _ _ h0 hm
  · exact Answers.ite (hf _ _ _ hm) h0

theorem execDrain_keeps (g : BitVec 3) (d : Fin 113) (acc : Bool) (cb : Fin 24) (s : State) (hm : Q s.mem) :
    Answers Q (execDrain g d acc cb s) := by
  grind [execDrain, accBody_keeps, issueL_keeps, laneBody_keeps]

theorem execAccw_keeps (g : BitVec 3) (d : Fin 113) (acc : Bool) (cb : Fin 24) (s : State) (hm : Q s.mem) :
    Answers Q (execAccw g d acc cb s) := by
  grind [execAccw, modCore_mem, accBody_keeps, issueL_keeps, Answers]

theorem leaveOverlay_keeps (s0 s : State) (act : Word) (h0 : Q s0.mem) (hm : Q s.mem) : Answers Q (leaveOverlay s0 s act) :=
  splitLanes_keeps _ _ _ _ _ _ _ h0 hm

theorem execBra_keeps (g : BitVec 3) (off : BitVec 21) (s : State) (hm : Q s.mem) : Answers Q (execBra g off s) := by
  grind [execBra, issueL_keeps, laneBody_keeps, leaveOverlay_keeps]

theorem execCall_keeps (g : BitVec 3) (off : BitVec 21) (s : State) (hm : Q s.mem) : Answers Q (execCall g off s) := by
  grind [execCall, issueL_keeps, leaveOverlay_keeps, splitLanes_keeps]

theorem execRet_keeps (g : BitVec 3) (s : State) (hm : Q s.mem) : Answers Q (execRet g s) := by
  grind [execRet, abortLanes_mem, issueL_keeps, splitLanes_keeps]

theorem execTrapl_keeps (g : BitVec 3) (a : Src) (s : State) (hm : Q s.mem) : Answers Q (execTrapl g a s) := by
  grind [execTrapl, raiseLanes_mem, issueL_keeps, Answers]

theorem execRollb_keeps (g : BitVec 3) (a : Src) (s : State) (hm : Q s.mem) : Answers Q (execRollb g a s) := by
  grind [execRollb, abortLanesBy_mem, issueL_keeps, Answers]

/-! ### Functions of Machine/System -/

@[simp] theorem jumpTo_mem (s : State) (t : Word) : (jumpTo s t).mem = s.mem := rfl

theorem execJmp_keeps (q : BitVec 3) (off : BitVec 21) (s : State) (hm : Q s.mem) : Answers Q (execJmp q off s) := by
  refine issueG_keeps _ _ _ _ _ _ (fun s hm => ?_) hm
  grind [GRes.Keeps, jumpTo_mem, trapWord_keeps]

theorem execLoop_keeps (q : BitVec 3) (d : Fin 64) (off : BitVec 15) (s : State) (hm : Q s.mem) : Answers Q (execLoop q d off s) := by
  refine issueG_keeps _ _ _ _ _ _ (fun s hm => ?_) hm
  grind [GRes.Keeps, modUni_mem, jumpTo_mem, trapWord_keeps]

theorem execScall_keeps (q : BitVec 3) (off : BitVec 21) (s : State) (hm : Q s.mem) : Answers Q (execScall q off s) := by
  refine issueG_keeps _ _ _ _ _ _ (fun s hm => ?_) hm
  grind [GRes.Keeps, modLanes_mem, trapWord_keeps]

theorem execSret_keeps (q : BitVec 3) (s : State) (hm : Q s.mem) : Answers Q (execSret q s) := by
  refine issueG_keeps _ _ _ _ _ _ (fun s hm => ?_) hm
  grind [GRes.Keeps, abortLanes_mem, modLanes_mem, trapWord_keeps]

theorem imageFail_keeps (s : State) (va : DWord) (x0 : ImgErr) (hm : Q s.mem) : (imageFail s va x0).Keeps Q := by
  unfold imageFail
  grind [frozenAt_keeps, trapWord_keeps, GRes.Keeps]

@[simp] theorem jumpSlot_mem (s : State) (off : Word) (slot : Nat) : (jumpSlot s off slot).mem = s.mem := rfl

theorem execJovl_canonical (q : BitVec 3) (bp : Fin 8) (b : Fin 64) (s : State) (hm : canonical s.mem) :
    Answers canonical (execJovl q bp b s) := by
  refine issueG_keeps _ _ _ _ _ _ (fun s hm => ?_) hm
  grind [GRes.Keeps, loadImage_canonical, setRovl_mem, imageFail_keeps, jumpSlot_mem, trapWord_keeps]

theorem execOvload_canonical (q : BitVec 3) (bp : Fin 8) (slot : Bool) (s : State) (hm : canonical s.mem) :
    Answers canonical (execOvload q bp slot s) := by
  refine issueG_keeps _ _ _ _ _ _ (fun s hm => ?_) hm
  grind [GRes.Keeps, advance_mem, loadImage_canonical, modUnit_mem, imageFail_keeps]

theorem execYield_keeps (q : BitVec 3) (s : State) (hm : Q s.mem) : Answers Q (execYield q s) := by
  refine issueG_keeps _ _ _ _ _ _ (fun s hm => ?_) hm
  grind [GRes.Keeps, yieldBy_mem, atYield_keeps]

theorem execSleep_keeps (q : BitVec 3) (a : Fin 64) (s : State) (hm : Q s.mem) : Answers Q (execSleep q a s) := by
  refine issueG_keeps _ _ _ _ _ _ (fun s hm => ?_) hm
  grind [GRes.Keeps, blockAt_mem, yieldBy_mem, atYield_keeps]

theorem execExit_keeps (q : BitVec 3) (s : State) (hm : Q s.mem) : Answers Q (execExit q s) := by
  refine issueG_keeps _ _ _ _ _ _ (fun s hm => ?_) hm
  grind [GRes.Keeps, arrive_mem, barrierCheck_mem, modLanes_mem, unitEnd_mem, yieldBy_mem]

theorem execTrap_keeps (q : BitVec 3) (a : Fin 64) (s : State) (hm : Q s.mem) : Answers Q (execTrap q a s) := by
  refine issueG_keeps _ _ _ _ _ _ (fun s hm => ?_) hm
  grind [GRes.Keeps]

@[simp] theorem holdBreak_mem (s : State) (u l : Nat) (tpc : Word) : (s.holdBreak u l tpc).mem = s.mem := rfl

theorem execSbrk_keeps (q : BitVec 3) (s : State) (hm : Q s.mem) : Answers Q (execSbrk q s) :=
  issueG_keeps _ _ _ _ _ _ (fun _ hx => GRes.ite_keeps hx (GRes.ite_keeps trivial
    (foldl_keeps (fun _ _ h => (congrArg Q (holdBreak_mem ..)).mpr h) _ hx))) hm

theorem execTmask_keeps (q : BitVec 3) (m : Bool) (s : State) (hm : Q s.mem) : Answers Q (execTmask q m s) := by
  refine issueG_keeps _ _ _ _ _ _ (fun s hm => ?_) hm
  grind [GRes.Keeps, modLanes_mem]

theorem execTret_keeps (q : BitVec 3) (s : State) (hm : Q s.mem) : Answers Q (execTret q s) := by
  refine issueG_keeps _ _ _ _ _ _ (fun s hm => ?_) hm
  grind [GRes.Keeps, modLanes_mem, modUnit_mem]

@[simp] theorem acceptUint_mem (s : State) (u t : Nat) (payload sender : Word) : (s.acceptUint u t payload sender).mem = s.mem := by
  grind [State.acceptUint, abortLanes_mem, modUni_mem]

theorem execUint_keeps (q : BitVec 3) (a b : Fin 64) (s : State) (hm : Q s.mem) : Answers Q (execUint q a b s) := by
  refine issueG_keeps _ _ _ _ _ _ (fun s hm => ?_) hm
  grind [GRes.Keeps, acceptUint_mem, modUni_mem]

theorem execUiret_keeps (q : BitVec 3) (s : State) (hm : Q s.mem) : Answers Q (execUiret q s) := by
  refine issueG_keeps _ _ _ _ _ _ (fun s hm => ?_) hm
  grind [GRes.Keeps, modUni_mem, jumpSlot_mem]

theorem execSysc_keeps (q : BitVec 3) (d a b : Fin 64) (s : State) (hm : Q s.mem) : Answers Q (execSysc q d a b s) := by
  refine issueG_keeps _ _ _ _ _ _ (fun s hm => ?_) hm
  grind [GRes.Keeps, advance_mem, modUnit_mem]

theorem launchChild_canonical (s : State) (w : Warp) (va : DWord) (hm : canonical s.mem) : (launchChild s w va).Keeps canonical := by
  grind [launchChild, modSlice_mem, modUni_mem, perfLoad_mem, uniReach_canonical, GRes.Keeps, UAcc.Keeps]

theorem execLaunch_canonical (q : BitVec 3) (bp : Fin 8) (s : State) (hm : canonical s.mem) : Answers canonical (execLaunch q bp s) := by
  refine issueG_keeps _ _ _ _ _ _ (fun s hm => ?_) hm
  grind [GRes.Keeps, modUni_mem, translate_canonical, frozenAt_keeps, launchChild_canonical, trapWord_keeps]

theorem tryQuota_mem (s : State) (u n : Nat) {t : State} (ht : s.tryQuota u n = some t) : t.mem = s.mem := by
  grind [State.tryQuota, modTeam_mem, modUnit_mem]

theorem execRegq_keeps (q : BitVec 3) (a : Fin 64) (s : State) (hm : Q s.mem) : Answers Q (execRegq q a s) := by
  refine issueG_keeps _ _ _ _ _ _ (fun s hm => ?_) hm
  grind [GRes.Keeps, modLanes_mem, modTeam_mem, tryQuota_mem, trapWord_keeps]

@[simp] theorem growWake_mem (s : State) (g : Grow) : (s.growWake g).mem = s.mem := rfl

theorem growLate_mem (s : State) (tm : Nat) {t : State} (ht : s.growLate tm = some t) : t.mem = s.mem := by
  simp only [State.growLate, Option.map_eq_some_iff] at ht
  obtain ⟨g, -, rfl⟩ := ht
  split
  · rename_i h; rw [growWake_mem, tryQuota_mem _ _ _ h]; rfl
  · rfl

theorem growStep_mem (s : State) (tm : Nat) {t : State} (ht : s.growStep tm = some t) : t.mem = s.mem := by
  grind [State.growStep, growLate_mem, growWake_mem, modTeam_mem, modUnit_mem]

theorem execRegpool_keeps (q : BitVec 3) (d : Fin 64) (s : State) (hm : Q s.mem) : Answers Q (execRegpool q d s) := by
  refine issueG_keeps _ _ _ _ _ _ (fun s hm => ?_) hm
  grind [GRes.Keeps, modUni_mem]

/-! ### Functions of Machine/Issue -/

theorem execReservedOpcodeWord_keeps (gset : Bool) (op : BitVec 7) (g : BitVec 3) (rest : BitVec 21) (s : State) (hm : Q s.mem) :
    Answers Q (execReservedOpcodeWord gset op g rest s) :=
  Answers.ite (issueG_keeps _ _ _ _ _ _ (fun _ hx => hx) hm) (issueL_keeps _ _ _ _ (fun _ _ hx => hx) hm)

theorem execFetchOutsideOverlay_keeps (s : State) (hm : Q s.mem) : Answers Q (execFetchOutsideOverlay s) := by
  grind [execFetchOutsideOverlay, issued_mem, raiseGroup_keeps, Answers]

theorem literalMissing_keeps (w : Word) (s : State) (hm : Q s.mem) : Answers Q (literalMissing w s) :=
  Answers.ite (raiseGroup_keeps _ _ _ _ hm hm) hm

theorem runWords_keeps {run : Instr → State → Out State} (hr : RunKeeps Q run) (ws : List Word) {s : State}
    (hm : Q s.mem) : Answers Q (runWords run ws s) := by
  unfold runWords
  split
  · exact hr _ _ hm
  · exact hr _ _ hm
  · exact literalMissing_keeps _ _ hm
  · exact hr _ _ hm

theorem attempt_keeps {run : Instr → State → Out State} (hr : RunKeeps Q run) (u : Nat) {s : State}
    (hm : Q s.mem) : Answers Q (attempt run s u) :=
  Answers.ite hm (Answers.ite (hr _ _ hm) (runWords_keeps (fun i _ hx => runSettled_keeps hr i hx) _ hm))

@[simp] theorem leaveSlot_mem (s : State) (key slot : Nat) : (s.leaveSlot key slot).mem = s.mem := by
  grind [State.leaveSlot, modCore_mem, modUnit_mem]

@[simp] theorem slotIssued_mem (s : State) (key slot u : Nat) (others : List Nat) : (s.slotIssued key slot u others).mem = s.mem := by
  unfold State.slotIssued
  rw [mem_foldl _ fun _ _ => modUnit_mem _ _ _]
  dsimp only [modUnit_mem, modCore_mem]
  split
  · rfl
  · exact leaveSlot_mem _ _ _

@[simp] theorem watchdogTrap_mem (s : State) (u : Nat) (m : Word) : (s.watchdogTrap u m).mem = s.mem := by
  unfold State.watchdogTrap
  rw [mem_foldl _ fun _ _ => takeTrap_mem _ _ _ _ _ _, abortLanes_mem]

theorem execWatchdog_keeps (sl core slot : Nat) {s : State} (hm : Q s.mem) : Answers Q (execWatchdog sl core slot s) := by
  unfold execWatchdog
  split
  · trivial
  · refine Answers.ite trivial ?_
    exact (congrArg Q (watchdogTrap_mem ..)).mpr hm

theorem execWarpAging_keeps (u : Nat) (s : State) (hm : Q s.mem) : Answers Q (execWarpAging u s) := by
  grind [execWarpAging, modUnit_mem, Answers]

theorem trySlot_keeps {run : Instr → State → Out State} (hr : RunKeeps Q run) (key slot : Nat) (l : List Nat)
    {s x : State} {k : SlotTook} (hm : Q s.mem) (hx : trySlot run key slot s l = .next (x, k)) : Q x.mem := by
  induction l generalizing s with
  | nil => cases hx; exact hm
  | cons u r ih =>
    have ha : Answers Q (attempt run (s.startIssue u) u) := attempt_keeps hr u hm
    have hw := execWatchdog_keeps (key / 64) (key % 64) slot hm
    unfold trySlot at hx
    split at hx
    · cases hx
    · cases hx
    · rename_i h
      rw [h] at ha
      split at hx
      · split at hx
        · split at hx
          · rename_i h; cases hx; rw [h] at hw; exact hw
          · cases hx; exact hm
          · cases hx; exact hm
        · cases hx; exact ha
      · exact @ih ((State.clearCur _).modUnit u _) ha hx

theorem issueSlot_keeps {run : Instr → State → Out State} (hr : RunKeeps Q run) (sl core slot : Nat) {s : State}
    (hm : Q s.mem) : Answers Q (issueSlot run sl core slot s) := by
  have ht : ∀ x k, trySlot run (64 * sl + core) slot s (s.slotOrder sl core slot) = .next (x, k) → Q x.mem :=
    fun x k => trySlot_keeps hr _ _ _ hm
  unfold issueSlot
  extract_lets key order
  split
  · trivial
  · trivial
  · rename_i h
    show Q (State.mem _)
    rw [leaveSlot_mem]
    exact ht _ _ h
  · rename_i h; exact ht _ _ h
  · rename_i h
    show Q (State.mem _)
    rw [slotIssued_mem]
    exact ht _ _ h

theorem issueReck_keeps {run : Instr → State → Out State} (hr : RunKeeps Q run) (sl cluster : Nat) {s : State}
    (hm : Q s.mem) : Answers Q (issueReck run sl cluster s) := by
  unfold issueReck
  split
  · exact hm
  · refine Answers.ite ?_ ?_
    · show Q (State.mem _)
      rwa [deliverUint_mem]
    · have ha := attempt_keeps hr ‹Nat› hm
      split
      · rename_i h; rw [h] at ha; exact ha
      · trivial
      · trivial

theorem issueReplay_keeps {run : Instr → State → Out State} (hr : RunKeeps Q run) (u l : Nat) {s : State}
    (hm : Q s.mem) : Answers Q (issueReplay run u l s) := by
  unfold issueReplay
  extract_lets t
  split
  · trivial
  · rename_i e r _
    refine Answers.ite hm ?_
    extract_lets len s0 s1
    have hw : Answers Q (runWords run [e.word, e.lit, 0#32] s1) := runWords_keeps hr _ hm
    split
    · trivial
    · trivial
    · rename_i h
      rw [h] at hw
      exact Answers.ite hw hm

/-! ### Functions of Machine/LaneMem -/

theorem performGlobal_canonical (s : State) (u : Nat) (f : Flight) (joined : Bool) (hm : canonical s.mem) :
    ∀ p ∈ s.performGlobal u f joined, canonical p.1.mem := by
  intro p hp
  unfold State.performGlobal at hp
  have hc := permit_canonical s (s.unit u).part (s.asid (s.unit u)) (s.unit u).slice f.va (memKind (wordOp f.word)).size
    (memKind (wordOp f.word)).writes hm
  dsimp only at hp
  split at hp
  · rename_i h; cases hp; rw [h] at hc; exact hc
  · rename_i h; cases hp; rw [h] at hc; exact hc
  · cases hp
  · rename_i x h
    rw [h] at hc
    split at hp
    · cases hp; exact hc
    · split at hp
      · cases hp
      · split at hp <;>
          grind [perfLoad_mem, perfStore_canonical, perfAtomic_canonical, setDirty_canonical]

theorem performFlight_canonical (s : State) (u l : Nat) (f : Flight) (joined : Bool) (hm : canonical s.mem) {t : State}
    (ht : s.performFlight u l f joined = some t) : canonical t.mem := by
  simp only [State.performFlight, Option.map_eq_some_iff] at ht
  obtain ⟨p, hp, rfl⟩ := ht
  have hc := performGlobal_canonical s u f joined hm p hp
  split
  · rwa [freeze_mem]
  · exact hc
  · exact hc
  · exact hc

theorem coverLine_canonical (s : State) (w : Warp) (fs : List Flight) (hm : canonical s.mem) : canonical (s.coverLine w fs).mem := by
  unfold State.coverLine
  grind [coverHalves_mem]

theorem performAll_canonical (s : State) (u seq : Nat) (whole joined : Bool) (l : List Nat) (hm : canonical s.mem) {t : State}
    (ht : s.performAll u seq whole joined l = some t) : canonical t.mem := by
  induction l generalizing s joined with
  | nil => cases ht; exact hm
  | cons a r ih =>
    simp only [State.performAll] at ht
    split at ht
    · cases ht
    · split at ht
      · cases ht
      · rename_i h; exact ih _ _ (performFlight_canonical _ _ _ _ _ hm h) ht

@[simp] theorem tryLoad_mem (s : State) (a : Acc1) (va : Nat) (buf : List BufStore) (acq : Option (BitVec 2)) :
    (s.tryLoad a va buf acq).1.mem = s.mem := by
  unfold State.tryLoad
  dsimp only
  split
  · exact perfLoad_mem _ _ _
  · split
    · rfl
    · split
      · exact reach_mem _ _ _
      · rw [foldl_fst_mem, reach_mem]
        intro p i
        grind [loadAt_mem]

theorem serialAccess_canonical (s : State) (a : Acc1) (kd : MemKind) (f : Flight) (hm : canonical s.mem) :
    canonical (s.serialAccess a kd f).1.mem := by
  unfold State.serialAccess
  grind [flit_mem, flitAtomic_mem, note_mem, putBytes_canonical, reach_mem, acquireAt_mem, orderAfter_mem, releaseAt_mem]

@[simp] theorem txRead_mem (s : State) (w : Warp) (sp : Spec) (key : Nat) (unc : Bool) (cls : Nat) :
    (s.txRead w sp key unc cls).1.mem = s.mem := by
  grind [State.txRead, reachLine_mem]

@[simp] theorem txAccess_mem (s : State) (w : Warp) (l : Nat) (a : Acc1) (kd : MemKind) (f : Flight) :
    (s.txAccess w l a kd f).1.mem = s.mem := by
  unfold State.txAccess
  grind [txRead_mem]

theorem regionAccess_canonical (s : State) (u l : Nat) (f : Flight) (hm : canonical s.mem) : canonical (s.regionAccess u l f).1.mem := by
  unfold State.regionAccess
  extract_lets w t kd o ag releases now
  have hc : canonical ((if now = true then s.permit else s.check) w.part (s.asid w) w.slice f.va kd.size kd.writes).1.mem := by
    split
    · exact permit_canonical _ _ _ _ _ _ _ hm
    · exact check_canonical _ _ _ _ _ _ _ hm
  split
  · exact hm
  · split <;> (rename_i h; rw [h] at hc)
    · exact hc
    · exact hc
    · exact hc
    · rename_i x
      split
      · exact hc
      · extract_lets a
        refine ite_fst_keeps ?_ (ite_fst_keeps ?_ ?_)
        · have hs := serialAccess_canonical _ a kd f hc
          split
          · rename_i h
            rw [h] at hs
            exact ite_keeps (setDirty_canonical _ _ _ hs) hs
          · exact hs
        · show canonical (State.mem _)
          rw [modLanes_mem, txAccess_mem]
          exact hc
        clear_value kd
        cases kd with
        | load n =>
          have hl : canonical (State.tryLoad _ a f.va.toNat t.sp.buf (if o.getLsbD 0 then some 2#2 else none)).1.mem :=
            (congrArg canonical (tryLoad_mem ..)).mpr hc
          dsimp only
          split <;> (rename_i h; rw [h] at hl; exact hl)
        | store n => exact hc
        | atomic op | reduce op =>
          have hp := perfAtomic_canonical _ a op (atomArgs f.d).1 (atomArgs f.d).2 (wordM f.word) o hc
          dsimp only
          split <;> (rename_i h; rw [h] at hp)
          · exact setDirty_canonical _ _ _ hp
          · exact hp

@[simp] theorem bufferStores_mem (s : State) (u : Nat) (new : List (Nat × BufStore)) : (s.bufferStores u new).mem = s.mem := by
  unfold State.bufferStores
  dsimp only
  split
  · rfl
  · split
    · exact abortLanes_mem _ _ _ _ _
    · exact mem_foldl _ (fun _ _ => modLanes_mem _ _ _ _) _ _

theorem GlobRun.inside_canonical (r : GlobRun) (word act : Word) (buffers : Bool) (l : Nat) (f : Flight) (hm : canonical r.s.mem) :
    canonical (r.inside word act buffers l f).s.mem := by
  have hr := regionAccess_canonical r.s r.s.cur.u l f hm
  unfold GlobRun.inside
  extract_lets
  split <;> split <;> (rename_i h; rw [h] at hr)
  · exact hr
  · exact (freeze_mem ..).symm ▸ hr
  · exact hr
  · exact hr
  · exact (freeze_mem ..).symm ▸ hr
  · exact (modLanes_mem ..).symm ▸ hr

theorem GlobRun.outside_canonical (r : GlobRun) (l : Nat) (f : Flight) (hm : canonical r.s.mem) : canonical (r.outside l f).s.mem := by
  unfold GlobRun.outside
  split
  · exact hm
  · split
    · rename_i h; exact performFlight_canonical _ _ _ _ _ hm h
    · exact hm

theorem foldl_globRun_canonical {α : Type} {f : GlobRun → α → GlobRun} (hf : ∀ r a, canonical r.s.mem → canonical (f r a).s.mem)
    (l : List α)
    {r : GlobRun} (hm : canonical r.s.mem) : canonical (l.foldl f r).s.mem := by
  induction l generalizing r with
  | nil => exact hm
  | cons a l ih => exact ih (hf r a hm)

theorem globalBody_canonical (word : Word) (a : Src) (bp : Nat) (dw : Cur → Warp → Nat → List Word) (s0 s : State) (act : Word)
    (h0 : canonical s0.mem) (hm : canonical s.mem) : Answers canonical (globalBody word a bp dw s0 s act) := by
  unfold globalBody
  extract_lets c w kd fs out inn buffers logged now joint s1 s2 bad s3 run s4
  refine Answers.ite h0 (Answers.ite h0 (Answers.ite h0 ?_))
  have h2 : canonical s2.mem := foldl_keeps (fun _ _ h => (modLanes_mem ..).symm ▸ h) _ hm
  have h3 : canonical s3.mem := by
    clear_value bad
    cases bad with
    | nil => exact h2
    | cons b r => exact (congrArg canonical (freeze_mem ..)).mpr h2
  have hr : canonical run.s.mem := foldl_globRun_canonical (fun r p hr =>
    iteInduction (motive := fun r : GlobRun => canonical r.s.mem) (fun _ => GlobRun.inside_canonical _ _ _ _ _ _ hr)
      fun _ => iteInduction (motive := fun r : GlobRun => canonical r.s.mem) (fun _ => GlobRun.outside_canonical _ _ _ hr) fun _ => hr) _ h3
  have h4 : canonical s4.mem := foldl_keeps (fun _ _ h => (abortLanes_mem ..).symm ▸ h) _ hr
  exact (congrArg canonical (bufferStores_mem ..)).mpr h4

theorem issueGlobal_canonical (i : Instr) (g : BitVec 3) (regs lat : List Nat) (a : Src) (bp : Fin 8) (dw : Cur → Warp → Nat → List Word)
    {s : State} (hm : canonical s.mem) : Answers canonical (issueGlobal i g regs lat a bp dw s) :=
  issueL_keeps _ _ _ _ (fun _ _ hx => globalBody_canonical _ _ _ _ _ _ _ hm hx) hm

@[simp] theorem localLane_mem (s : State) (u l : Nat) (la : Word) (op : Nat) (d : List Word) : (s.localLane u l la op d).1.mem = s.mem := by
  unfold State.localLane
  extract_lets w t
  split
  rename_i n st _
  split
  · rfl
  split
  · split
    · exact modLanes_mem _ _ _ _
    · rfl
  split
  · split
    · rfl
    split
    · rfl
    extract_lets own
    split
    · split <;> (rename_i h; exact (congrArg (fun r => r.1.mem) h).symm.trans (localAccess_mem ..))
    · have hf : ∀ g : State × Except TrapRec (List Byte) → Nat → State × Except TrapRec (List Byte),
          (∀ p i, (g p i).1.mem = p.1.mem) → ((List.range n).foldl g (s, .ok [])).1.mem = s.mem :=
        fun g hg => foldl_fst_mem hg _ _
      split <;>
      · rename_i h
        refine (congrArg (fun r => r.1.mem) h).symm.trans (hf _ fun p i => ?_)
        grind [localAccess_mem]
  · split <;> (rename_i h; exact (congrArg (fun r => r.1.mem) h).symm.trans (localAccess_mem ..))

theorem localBody_keeps (word : Word) (a : Src) (imm : BitVec 7) (y : Yields) (dw : Cur → Warp → Nat → List Word) (s0 s : State)
    (act : Word)
    (h0 : Q s0.mem) (hm : Q s.mem) : Answers Q (localBody word a imm y dw s0 s act) := by
  unfold localBody
  refine Answers.ite h0 ?_
  show Q (State.mem _)
  rw [bufferStores_mem, abortLanes_mem]
  refine foldl_fst_keeps (fun r l hr => ?_) _ hm
  grind [localLane_mem, modLanes_mem]

theorem issueLocal_keeps (i : Instr) (g : BitVec 3) (regs lat : List Nat) (a : Src) (imm : BitVec 7) (y : Yields)
    (dw : Cur → Warp → Nat → List Word) (s : State) (hm : Q s.mem) :
    Answers Q (issueLocal i g regs lat a imm y dw s) := by
  grind [issueLocal, issueL_keeps, localBody_keeps]

/-! ### Functions of Machine/ThreadEvents -/

theorem performLanes_canonical (u seq : Nat) (m : Word) (want : MemKind → Bool) (s : State) (hm : canonical s.mem) :
    Answers canonical (performLanes u seq m want s) := by
  refine Answers.ite trivial ?_
  split
  · rename_i h
    exact performAll_canonical _ _ _ _ _ _ (coverLine_canonical _ _ _ hm) h
  · trivial

theorem execTrapEntry_keeps (u l : Nat) (s : State) (hm : Q s.mem) : Answers Q (execTrapEntry u l s) := by
  grind [execTrapEntry, takeTrap_mem, Answers]

theorem waitRef_canonical (s : State) (w : Warp) (va : DWord) (hm : canonical s.mem) : canonical (s.waitRef w va).1.mem := by
  grind [State.waitRef, counterAt_canonical]

@[simp] theorem waitPoison_mem (s : State) (u : Nat) (m : Word) (va : DWord) : (s.waitPoison u m va).mem = s.mem :=
  mem_foldl _ (fun _ _ => (takeTrap_mem _ _ _ _ _ _).trans (modLanes_mem _ _ _ _)) _ _

theorem execWaitSatisfied_canonical (u l : Nat) (s : State) (hm : canonical s.mem) : Answers canonical (execWaitSatisfied u l s) := by
  grind [execWaitSatisfied, modLanes_mem, modUni_mem, reachCtr_mem, waitPoison_mem, waitRef_canonical, acquireCtr_mem, Answers]

theorem execWaittoTimeout_keeps (u l : Nat) (s : State) (hm : Q s.mem) : Answers Q (execWaittoTimeout u l s) := by
  grind [execWaittoTimeout, modLanes_mem, modUni_mem, Answers]

theorem execSleepWake_keeps (u l : Nat) (s : State) (hm : Q s.mem) : Answers Q (execSleepWake u l s) := by
  grind [execSleepWake, modLanes_mem, Answers]

theorem execSyscReply_keeps (u : Nat) (reply : Word) (hart : Nat) (s : State) (hm : Q s.mem) :
    Answers Q (execSyscReply u reply hart s) := by
  grind [execSyscReply, modLanes_mem, modUnit_mem, Answers]

theorem execRegqGrant_keeps (tm : Nat) (s : State) (hm : Q s.mem) : Answers Q (execRegqGrant tm s) := by
  grind [execRegqGrant, growStep_mem, Answers]

theorem execRegqRefuse_keeps (tm : Nat) (s : State) (hm : Q s.mem) : Answers Q (execRegqRefuse tm s) := by
  unfold execRegqRefuse
  extract_lets t live
  split
  · trivial
  · refine Answers.ite trivial ?_
    exact foldl_keeps (fun x g h => (congrArg Q ((modUni_mem (x.growWake g) ..).trans (growWake_mem ..))).mpr h) _ hm

theorem execOverlaySlotCopy_canonical (u : Nat) (s : State) (hm : canonical s.mem) : Answers canonical (execOverlaySlotCopy u s) := by
  grind [execOverlaySlotCopy, freeze_mem, loadImage_canonical, modUnit_mem, raiseLanes_mem, setOvl_mem, Answers]

theorem execOverlayCopyDone_keeps (u : Nat) (s : State) (hm : Q s.mem) : Answers Q (execOverlayCopyDone u s) := by
  grind [execOverlayCopyDone, modLanes_mem, modUnit_mem, setOvl_mem, Answers]

theorem execUintDelivery_keeps (u : Nat) (s : State) (hm : Q s.mem) : Answers Q (execUintDelivery u s) := by
  grind [execUintDelivery, deliverUint_mem, Answers]

/-! ### Functions of Machine/Regs -/

@[simp] theorem regPlain_mem (s : State) (sl off : Nat) (v : DWord) : (s.regPlain sl off v).mem = s.mem := by
  unfold State.regPlain
  dsimp only
  split
  · exact ite_mem rfl rfl
  · exact ite_mem rfl rfl
  · rfl
  · rfl
  · exact ite_mem rfl rfl
  · exact modOwner_mem _ _ _
  · exact modOwner_mem _ _ _
  · exact modOwner_mem _ _ _
  · exact ite_mem rfl rfl
  · exact modOwner_mem _ _ _
  · rfl

theorem execAddressRangeWrite_keeps (sl off : Nat) (value : BitVec 64) (s : State) (hm : Q s.mem) :
    Answers Q (execAddressRangeWrite sl off value s) := by
  grind [execAddressRangeWrite, modOwner_mem, Answers]

@[simp] theorem writeActctl_mem (s : State) (sl : Nat) (v : Word) : (s.writeActctl sl v).mem = s.mem := rfl

theorem execActctlWrite_keeps (sl : Nat) (value : Word) (s : State) (hm : Q s.mem) : Answers Q (execActctlWrite sl value s) := by
  grind [execActctlWrite, writeActctl_mem, Answers]

@[simp] theorem protectLane_mem (s : State) (u l : Nat) (va : DWord) : (s.protectLane u l va).mem = s.mem := by
  grind [State.protectLane, modLanes_mem, takeTrap_mem]

@[simp] theorem unfreeze_mem (s : State) (u : Nat) : (s.unfreeze u).mem = s.mem := by
  unfold State.unfreeze
  split
  · rfl
  · dsimp only
    rw [mem_foldl _ fun _ _ => protectLane_mem _ _ _ _, abortLanes_mem, modUnit_mem]

@[simp] theorem releaseCmd_mem (s : State) (sl : Nat) (c : Cmd) : (s.releaseCmd sl c).mem = s.mem := by
  grind [State.releaseCmd, failCmdAdd_mem, modCmd_mem]

@[simp] theorem releaseUnits_mem (s : State) (sl : Nat) : (s.releaseUnits sl).mem = s.mem := by
  unfold State.releaseUnits
  dsimp only
  rw [modSlice_mem, mem_foldl _ fun _ _ => releaseCmd_mem _ _ _, mem_foldl _ fun _ _ => unfreeze_mem _ _]

@[simp] theorem releaseAll_mem (s : State) (sl : Nat) : (s.releaseAll sl).mem = s.mem := by
  grind [State.releaseAll, modSlice_mem, releaseUnits_mem]

theorem execFirewallReleaseAll_keeps (sl : Nat) (s : State) (hm : Q s.mem) : Answers Q (execFirewallReleaseAll sl s) := by
  grind [execFirewallReleaseAll, releaseAll_mem, Answers]

@[simp] theorem writePmctl_mem (s : State) (sl : Nat) (v : Word) : (s.writePmctl sl v).mem = s.mem := by
  unfold State.writePmctl
  dsimp only
  split
  · rw [mem_foldl _ fun _ _ => ite_mem (releaseUnits_mem _ _) rfl, modOwner_mem, regPlain_mem]
  · exact regPlain_mem _ _ _ _

theorem execPmctlThaw_keeps (sl : Nat) (value : Word) (s : State) (hm : Q s.mem) : Answers Q (execPmctlThaw sl value s) := by
  grind [execPmctlThaw, writePmctl_mem, Answers]

@[simp] theorem physRead_mem (s : State) (pn pa n : Nat) : (s.physRead pn pa n).1.mem = s.mem := by
  unfold State.physRead
  rw [foldl_fst_mem]
  intro r c
  grind [reachLine_mem]

theorem linePut_canonical (s : State) (l : Loc) (bs : List Byte) (hm : canonical s.mem) : canonical (s.linePut l bs).mem := by
  grind [State.linePut, coverHalves_mem, reachLine_mem, setPacked_mem, writeBytes_canonical]

theorem physWrite_canonical (s : State) (pn pa : Nat) (bs : List Byte) (hm : canonical s.mem) : canonical (s.physWrite pn pa bs).mem :=
  foldl_keeps (fun _ _ h => by
    split
    · exact linePut_canonical _ _ _ h
    · exact h) _ hm

@[simp] theorem reloadCtx_mem (s : State) (pn asid : Nat) : (s.reloadCtx pn asid).mem = s.mem := by
  grind [State.reloadCtx, modCtx_mem, physRead_mem]

theorem writeTlbinv_mem (s : State) (sl : Nat) (v : DWord) {t : State} (ht : s.writeTlbinv sl v = some t) : t.mem = s.mem := by
  grind [State.writeTlbinv, modPart_mem, reloadCtx_mem]

theorem tlbinvStep_keeps (op sl : Nat) (v : DWord) (s : State) (hm : Q s.mem) : Answers Q (tlbinvStep op sl v s) := by
  grind [tlbinvStep, writeTlbinv_mem, Answers]

theorem execTlbinvDone_keeps (pn : Nat) (s : State) (hm : Q s.mem) : Answers Q (execTlbinvDone pn s) := by
  refine Answers.ite trivial ?_
  show Q (State.mem (List.foldl _ _ _))
  rw [mem_foldl _ fun _ _ => modSlice_mem _ _ _]
  exact ite_keeps ((congrArg Q (reloadCtx_mem ..)).mpr hm) hm

theorem zeroPool_canonical (s : State) (pn : Nat) (old c : Ctx) (hm : canonical s.mem) : canonical (s.zeroPool pn old c).mem := by
  unfold State.zeroPool
  refine ite_keeps hm (foldl_keeps (fun y x h => ?_) _ hm)
  rw [setPacked_mem]
  exact writeByte_canonical _ _ _ h

theorem bringCtx_canonical (s : State) (pn desc : Nat) (hm : canonical s.mem) : canonical (s.bringCtx pn desc).1.mem := by
  grind [State.bringCtx, modPart_mem, physRead_mem, zeroPool_canonical]

theorem ctlCounter_canonical (s : State) (pn asid va : Nat) (hm : canonical s.mem) : canonical (s.ctlCounter pn asid va).1.mem := by
  grind [State.ctlCounter, counterAt_canonical]

@[simp] theorem scResult_mem (s : State) (pn r : Nat) : (s.scResult pn r).mem = s.mem := rfl

theorem registerQueue_canonical (s : State) (pn block : Nat) (b : List Byte) (hm : canonical s.mem) {t : State}
    (ht : s.registerQueue pn block b = some t) :
    canonical t.mem := by
  grind [State.registerQueue, bringCtx_canonical, ctlCounter_canonical, modPart_mem, physRead_mem, physWrite_canonical, reachCtr_mem,
    scResult_mem]

@[simp] theorem removeQueue_mem (s : State) (pn : Nat) (b : List Byte) : (s.removeQueue pn b).mem = s.mem := by
  grind [State.removeQueue, modPart_mem, scResult_mem]

@[simp] theorem setRing_mem (s : State) (pn : Nat) (b : List Byte) : (s.setRing pn b).mem = s.mem := by
  grind [State.setRing, modPart_mem, scResult_mem]

@[simp] theorem writeSccmd_mem (s : State) (sl : Nat) (v : DWord) : (s.writeSccmd sl v).mem = s.mem := modOwner_mem _ _ _

@[simp] theorem scBlock_mem (s : State) (pn : Nat) : (s.scBlock pn).1.mem = s.mem := by
  grind [State.scBlock, physRead_mem]

theorem scRun_canonical (s : State) (op pn : Nat) (hm : canonical s.mem) {t : State} (ht : s.scRun op pn = some t) : canonical t.mem := by
  grind [State.scRun, registerQueue_canonical, removeQueue_mem, scBlock_mem, scResult_mem, setRing_mem]

theorem scStep_canonical (op sl : Nat) (v : DWord) (s : State) (hm : canonical s.mem) : Answers canonical (scStep op sl v s) := by
  grind [scStep, scRun_canonical, writeSccmd_mem, Answers]

@[simp] theorem clearSlice_mem (s : State) (sl : Nat) : (s.clearSlice sl).mem = s.mem := rfl

theorem endCmds_canonical (s : State) (us : List Nat) (hm : canonical s.mem) : canonical (s.endCmds us).mem :=
  foldl_keeps (fun x c h => (congrArg canonical (leaveChain_mem ..)).mpr (unmarkAll_canonical x c h)) _ hm

theorem endSlice_canonical (s : State) (sl : Nat) (hm : canonical s.mem) : canonical (s.endSlice sl).mem := by
  unfold State.endSlice
  dsimp only
  rw [mem_foldl _ fun _ _ => faultTeam_mem _ _ _ _ _ _ _ _, mem_foldl _ fun _ _ => ite_mem (stopUnit_mem _ _ _) rfl]
  exact endCmds_canonical _ _ hm

@[simp] theorem dropBinds_mem (s : State) (sl : Nat) : (s.dropBinds sl).mem = s.mem :=
  mem_foldl _ (fun _ _ => ite_mem (modGrid_mem _ _ _) rfl) _ _

theorem resetSlice_canonical (s : State) (sl : Nat) (hm : canonical s.mem) : canonical (s.resetSlice sl).mem := by
  grind [State.resetSlice, clearSlice_mem, dropBinds_mem, endSlice_canonical, modSlice_mem, sliceIrq_mem]

theorem execSliceReset_canonical (sl : Nat) (s : State) (hm : canonical s.mem) : Answers canonical (execSliceReset sl s) := by
  grind [execSliceReset, resetSlice_canonical, Answers]

theorem execFunctionReady_keeps (sl bit : Nat) (s : State) (hm : Q s.mem) : Answers Q (execFunctionReady sl bit s) := by
  grind [execFunctionReady, modSlice_mem, sliceIrq_mem, Answers]

theorem regWrite_canonical (s : State) (sl off : Nat) (v : DWord) (hm : canonical s.mem) {t : State} (ht : s.regWrite sl off v = some t) :
    canonical t.mem := by
  unfold State.regWrite at ht
  split at ht
  · cases ht; exact (congrArg canonical (modOwner_mem ..)).mpr hm
  split at ht
  · cases ht; exact ite_keeps ((congrArg canonical (releaseAll_mem ..)).mpr hm) hm
  · split at ht
    · split at ht
      · cases ht
      · cases ht; exact resetSlice_canonical _ _ hm
    · cases ht; exact hm
  · cases ht; exact (congrArg canonical (writePmctl_mem ..)).mpr hm
  · cases ht; exact (congrArg canonical (writeActctl_mem ..)).mpr hm
  · cases ht; exact (congrArg canonical (writeSccmd_mem ..)).mpr hm
  · exact (congrArg canonical (writeTlbinv_mem _ _ _ ht)).mpr hm
  · cases ht; exact (congrArg canonical (regPlain_mem ..)).mpr hm

theorem execRegisterWrite_canonical (sl off : Nat) (value : BitVec 64) (s : State) (hm : canonical s.mem) :
    Answers canonical (execRegisterWrite sl off value s) := by
  grind [execRegisterWrite, regWrite_canonical, Answers]

/-! ### Functions of Machine/Monitor -/

theorem snapshot_canonical (s : State) (pn : Nat) (hm : canonical s.mem) : canonical (s.snapshot pn).mem := by
  grind [State.snapshot, modPart_mem, physWrite_canonical]

theorem execProgressWindowEnd_canonical (pn : Nat) (s : State) (hm : canonical s.mem) : Answers canonical (execProgressWindowEnd pn s) := by
  grind [execProgressWindowEnd, modPart_mem, sliceIrq_mem, snapshot_canonical, Answers]

theorem execDebugHalt_keeps (u : Nat) (s : State) (hm : Q s.mem) : Answers Q (execDebugHalt u s) := by
  grind [execDebugHalt, abortLanes_mem, modGrid_mem, modUnit_mem, Answers]

@[simp] theorem deliverBreak_mem (s : State) (u l : Nat) (mask : Bool) : (s.deliverBreak u l mask).mem = s.mem := by
  grind [State.deliverBreak, fatal_mem, modLanes_mem, modUnit_mem]

theorem execDebugResume_keeps (u lane : Nat) (skip : Bool) (s : State) (hm : Q s.mem) : Answers Q (execDebugResume u lane skip s) := by
  grind [execDebugResume, deliverBreak_mem, modLanes_mem, modUnit_mem, Answers]

theorem execGridEndByKernel_canonical (grid : Nat) (s : State) (hm : canonical s.mem) : Answers canonical (execGridEndByKernel grid s) := by
  refine Answers.ite trivial ?_
  show canonical (State.mem (List.foldl _ _ _))
  rw [mem_foldl _ fun _ _ => stopUnit_mem _ _ _, mem_foldl _ fun _ _ => modTeam_mem _ _ _]
  exact endCmds_canonical _ _ hm

/-! ### Functions of Machine/Launch -/

theorem recImage_canonical (s : State) (pn asid : Nat) (b : List Byte) (hm : canonical s.mem) : canonical (s.recImage pn asid b).1.mem := by
  grind [State.recImage, loadImage_canonical]

theorem recCounter_canonical (s : State) (pn asid va : Nat) (hm : canonical s.mem) : canonical (s.recCounter pn asid va).1.mem := by
  grind [State.recCounter, translate_canonical]

theorem ctlBytes_canonical (s : State) (pn asid va n : Nat) (hm : canonical s.mem) : canonical (s.ctlBytes pn asid va n).1.mem := by
  unfold State.ctlBytes
  refine foldl_fst_keeps (fun r c hr => ?_) _ hm
  have hc := check_canonical r.1 pn asid (r.1.part pn).corner (BitVec.ofNat 64 c.1) 1 false hr
  grind [reachLine_mem]

theorem rangeList_canonical (s : State) (pn asid va : Nat) (hm : canonical s.mem) : canonical (s.rangeList pn asid va).1.mem := by
  grind [State.rangeList, ctlBytes_canonical]

theorem checkRecord_canonical (s : State) (pn asid primax : Nat) (b : List Byte) (hm : canonical s.mem) :
    canonical (s.checkRecord pn asid primax b).1.mem := by
  grind [State.checkRecord, rangeList_canonical, recCounter_canonical, recImage_canonical]

@[simp] theorem acceptGrid_mem (s : State) (pn asid qid ix : Nat) (parent : Option Nat) (depth prio : Nat) (b : List Byte) (v : VC)
    (ranges : List (Nat × Nat)) :
    (s.acceptGrid pn asid qid ix parent depth prio b v ranges).mem = s.mem := rfl

theorem copyRecord_canonical (s : State) (pn asid va : Nat) (hm : canonical s.mem) : canonical (s.copyRecord pn asid va).1.mem := by
  grind [State.copyRecord, check_canonical, perfLoad_mem]

theorem judge_canonical (s : State) (pn asid primax : Nat) (b : List Byte) {accept : State → List (Nat × Nat) → State}
    {refuse : State → Nat → State} (ha : ∀ x rs, canonical x.mem → canonical (accept x rs).mem)
    (hr : ∀ x r, canonical x.mem → canonical (refuse x r).mem) (hm : canonical s.mem) {t : State}
    (ht : s.judge pn asid primax b accept refuse = some t) : canonical t.mem := by
  have hc := checkRecord_canonical s pn asid primax b hm
  unfold State.judge at ht
  split at ht <;> (rename_i e; rw [e] at hc)
  · cases ht
  · cases ht; exact hr _ _ hc
  · cases ht; exact ha _ _ hc

theorem execRecordTake_canonical (pn qid : Nat) (s : State) (hm : canonical s.mem) : Answers canonical (execRecordTake pn qid s) := by
  unfold execRecordTake
  split
  · trivial
  rename_i q _
  have hc := ctlCounter_canonical s pn q.asid q.tail hm
  split
  · trivial
  rename_i x tail e
  rw [e] at hc
  have hr := fun r => (congrArg canonical (reachCtr_mem x tail r)).mpr hc
  split
  rename_i y bad e
  have hy : canonical y.mem := fst_keeps_of_eq e (hr _)
  extract_lets slot ag v y1
  have h1 : canonical y1.mem := (congrArg canonical (acquireAt_mem ..)).mpr hy
  refine Answers.ite trivial ?_
  split
  rename_i z b e
  have hz : canonical z.mem := fst_keeps_of_eq e (copyRecord_canonical _ _ _ _ h1)
  extract_lets z1 z2
  have h3 : canonical z1.mem := by
    have hh := ctlCounter_canonical z pn q.asid q.head hz
    unfold z1
    split <;> (rename_i e; rw [e] at hh)
    · exact (congrArg canonical (releaseAt_mem ..)).mpr (counterAdd_canonical _ _ _ _ _ _ hh)
    · exact hh
  split
  · exact h3
  · split
    · rename_i h
      refine judge_canonical z2 _ _ _ _ (fun x rs hx => ?_) (fun x r hx => ?_) h3 h
      · exact (congrArg canonical (acceptGrid_mem ..)).mpr hx
      · exact (congrArg canonical (raiseEvent_mem ..)).mpr hx
    · trivial

theorem execChildQueueTake_canonical (sl : Nat) (s : State) (hm : canonical s.mem) : Answers canonical (execChildQueueTake sl s) := by
  grind [execChildQueueTake, acceptGrid_mem, judge_canonical, modSlice_mem, raiseEvent_mem, Answers]

theorem setResident_canonical (s : State) (pn asid page : Nat) (on : Bool) (hm : canonical s.mem) :
    canonical (s.setResident pn asid page on).mem := by
  unfold State.setResident
  split
  · split
    · exact hm
    · dsimp only
      rw [mem_foldl _ fun _ _ => modSlice_mem _ _ _]
      exact putEntry_canonical _ _ _ hm
  · exact hm
  · exact hm

theorem makeResident_canonical (s : State) (pn asid va n : Nat) (hm : canonical s.mem) : canonical (s.makeResident pn asid va n).mem :=
  foldl_keeps (fun _ _ h => setResident_canonical _ _ _ _ _ h) _ hm

theorem execPgreqResidentAdd_canonical (pn req : Nat) (s : State) (hm : canonical s.mem) :
    Answers canonical (execPgreqResidentAdd pn req s) := by
  unfold execPgreqResidentAdd
  grind [ctlCounter_canonical, makeResident_canonical, modPart_mem, raiseEvent_mem, slotCtlAdd_canonical, Answers]

theorem zeroRange_canonical (s : State) (pn asid va n : Nat) (hm : canonical s.mem) : canonical (s.zeroRange pn asid va n).mem :=
  foldl_keeps (fun _ _ h => physWrite_canonical _ _ _ _ h) _ hm

theorem execRangeEvict_canonical (pn asid va n : Nat) (s : State) (hm : canonical s.mem) :
    Answers canonical (execRangeEvict pn asid va n s) :=
  Answers.ite trivial (foldl_keeps (fun _ _ h => setResident_canonical _ _ _ _ _ h) _ (ite_keeps (zeroRange_canonical _ _ _ _ _ hm) hm))

theorem execGridEligible_canonical (grid : Nat) (s : State) (hm : canonical s.mem) : Answers canonical (execGridEligible grid s) := by
  unfold execGridEligible
  extract_lets g pn dep met
  refine Answers.ite trivial ?_
  have hmet : canonical met.1.mem := by
    refine ite_fst_keeps hm ?_
    have hc := ctlCounter_canonical s pn g.asid dep hm
    split <;> (rename_i e; rw [e] at hc)
    · exact hc
    · have hr := fun c q => (congrArg canonical (reachCtr_mem _ c q)).mpr hc
      exact ite_fst_keeps ((congrArg canonical (acquireAt_mem ..)).mpr (hr _ _)) (hr _ _)
  clear_value met
  split
  · trivial
  · refine Answers.ite trivial ?_
    split
    · exact (congrArg canonical (raiseEvent_mem ..)).mpr hmet
    · exact foldl_keeps (fun _ _ h => makeResident_canonical _ _ _ _ _ h) _ hmet

theorem execGridRetire_canonical (grid : Nat) (s : State) (hm : canonical s.mem) : Answers canonical (execGridRetire grid s) := by
  grind [execGridRetire, active_mem, counterAdd_canonical, ctlCounter_canonical, modGrid_mem, raiseEvent_mem, releaseAt_mem,
    retireOrder_mem, Answers]

theorem execEventRecordWrite_canonical (pn : Nat) (s : State) (hm : canonical s.mem) : Answers canonical (execEventRecordWrite pn s) := by
  grind [execEventRecordWrite, modPart_mem, physWrite_canonical, sliceIrq_mem, releaseAt_mem, Answers]

/-! ### Functions of Machine/Sched -/

theorem addBind_mem (s : State) (sl : Nat) (b : Bind) {t : State} (ht : s.addBind sl b = some t) : t.mem = s.mem := by
  grind [State.addBind, modSlice_mem]

theorem addBinds_mem (s : State) (l : List (Nat × Bind)) {t : State} (ht : s.addBinds l = some t) : t.mem = s.mem := by
  unfold State.addBinds at ht
  exact foldl_bind_mem (fun _ _ _ h => addBind_mem _ _ _ h) l (fun x hx => by cases hx; rfl) ht

theorem bindCtx_canonical (s : State) (pn asid : Nat) (hm : canonical s.mem) : canonical (s.bindCtx pn asid).mem := by
  grind [State.bindCtx, modCtx_mem, physRead_mem, zeroPool_canonical]

theorem writePlan_canonical (s : State) (grid : Nat) (victims : List Nat) (p : Placing) (hm : canonical s.mem) {t : State}
    (ht : s.writePlan grid victims p = some t) : canonical t.mem := by
  simp only [State.writePlan] at ht
  split at ht
  · cases ht
  · obtain ⟨x, hx, rfl⟩ := Option.map_eq_some_iff.mp ht
    exact (congrArg canonical (addBinds_mem _ _ hx)).mpr (bindCtx_canonical _ _ _ hm)

theorem bringRanges_canonical (s : State) (grid : Nat) (hm : canonical s.mem) {t : State} {b : Bool}
    (ht : s.bringRanges grid = some (t, b)) :
    canonical t.mem := by
  simp only [State.bringRanges] at ht
  split at ht
  · cases ht
  split at ht
  · cases ht; exact (congrArg canonical (raiseEvent_mem ..)).mpr hm
  · cases ht; exact foldl_keeps (fun _ _ h => makeResident_canonical _ _ _ _ _ h) _ hm

theorem dispatch_canonical (s : State) (grid : Nat) (victims : List Nat) (p : Placing) (hm : canonical s.mem) {t : State}
    (ht : s.dispatch grid victims p = some t) : canonical t.mem := by
  unfold State.dispatch at ht
  split at ht
  · cases ht
  · rename_i h; cases ht; exact bringRanges_canonical _ _ hm h
  · rename_i h; exact writePlan_canonical _ _ _ _ (bringRanges_canonical _ _ hm h) ht

theorem chosen_canonical (s : State) (grid : Nat) (victims : List Nat) (p : Placing) (hm : canonical s.mem) {t : State}
    (ht : s.chosen grid victims p = some t) : canonical t.mem := by
  unfold State.chosen at ht
  split at ht
  · rename_i h; exact writePlan_canonical _ _ _ _ (bringRanges_canonical _ _ hm h) ht
  · cases ht
  · cases ht

theorem execGridPlace_canonical (grid : Nat) (s : State) (hm : canonical s.mem) : Answers canonical (execGridPlace grid s) := by
  grind [execGridPlace, dispatch_canonical, Answers]

theorem execTimeSliceExpiry_canonical (grid : Nat) (s : State) (hm : canonical s.mem) :
    Answers canonical (execTimeSliceExpiry grid s) := by
  unfold execTimeSliceExpiry
  extract_lets g
  split
  · trivial
  · refine Answers.ite trivial ?_
    extract_lets
    split
    · exact hm
    · rename_i t h
      obtain ⟨i, -, hi⟩ := List.exists_of_findSome?_eq_some h
      split at hi
      · cases hi
      · obtain ⟨p, -, hp⟩ := Option.bind_eq_some_iff.mp hi
        exact (chosen_canonical _ _ _ _ hm hp : canonical t.mem)

@[simp] theorem addUnit_mem (s : State) (u : Nat) (w : Warp) : (s.addUnit u w).mem = s.mem := rfl

@[simp] theorem newTeam_mem (s : State) (grid sl core idx slot : Nat) : (s.newTeam grid sl core idx slot).1.mem = s.mem :=
  mem_foldl _ (fun _ _ => addUnit_mem _ _ _) _ _

@[simp] theorem newReck_mem (s : State) (grid tm sl cl : Nat) (o : Ovl) : (s.newReck grid tm sl cl o).mem = s.mem := by
  unfold State.newReck
  dsimp only
  rw [addUnit_mem, setRovl_mem, mem_foldl _ fun _ _ => modCore_mem _ _ _]

/-- Teams started one after another on a core leave memory alone. -/
theorem foldl_newTeam_mem (s : State) (grid sl core idx slot : Nat) (l : List Nat) :
    (l.foldl (fun (acc : State × List Nat) i =>
      let (s, tm) := acc.1.newTeam grid sl core (idx + i) slot
      (s, acc.2 ++ [tm])) (s, [])).1.mem = s.mem := by
  rw [foldl_fst_mem]
  exact fun _ _ => newTeam_mem _ _ _ _ _ _

theorem placeOn_canonical (s : State) (grid sl core idx n : Nat) (hm : canonical s.mem) {t : State}
    (ht : s.placeOn grid sl core idx n = some t) : canonical t.mem := by
  unfold State.placeOn at ht
  extract_lets g va key at ht
  split at ht
  · cases ht; exact hm
  · rename_i k _
    extract_lets start at ht
    have hs : ∀ x ok, canonical x.mem → canonical (start x ok).mem := fun x ok hx => by
      have hf := (congrArg canonical (foldl_newTeam_mem x grid sl core idx k (List.range n))).mpr hx
      refine ite_keeps ?_ (ite_keeps ?_ hf)
      · rw [mem_foldl _ fun _ _ => faultTeam_mem _ _ _ _ _ _ _ _]
        exact hf
      · rw [newReck_mem]
        exact hf
    clear_value start
    have hl := loadImage_canonical s g.part g.asid sl va hm
    generalize (if k = 0 then (s.core key).ov0 else (s.core key).ov1).tag = tag at ht
    by_cases htag : tag = some va
    · rw [if_pos htag] at ht
      cases ht
      exact hs _ _ hm
    · rw [if_neg htag] at ht
      split at ht <;> (rename_i h; rw [h] at hl)
      · cases ht; exact hs _ _ ((congrArg canonical (setOvl_mem ..)).mpr hl)
      · cases ht
      · cases ht; exact hs _ _ hl
      · cases ht; exact hs _ _ hl

@[simp] theorem startSlice_mem (s : State) (grid : Nat) : (s.startSlice grid).mem = s.mem := by
  grind [State.startSlice, modGrid_mem, modPart_mem]

@[simp] theorem bindDone_mem (s : State) (sl ix : Nat) : (s.bindDone sl ix).mem = s.mem := rfl

theorem execBindPlace_canonical (sl ix : Nat) (s : State) (hm : canonical s.mem) : Answers canonical (execBindPlace sl ix s) := by
  unfold execBindPlace
  split
  · trivial
  · rename_i b _
    refine Answers.ite ((congrArg canonical (bindDone_mem ..)).mpr hm) ?_
    extract_lets l
    refine Answers.ite trivial ?_
    have h1 : canonical ((s.startSlice b.grid).bindDone sl ix).mem :=
      (congrArg canonical ((bindDone_mem ..).trans (startSlice_mem ..))).mpr hm
    split
    · rename_i h
      exact foldl_bind_keeps (fun x : State × Nat => canonical x.1.mem) (fun x a y ha h => by
        obtain ⟨z, hz, rfl⟩ := Option.map_eq_some_iff.mp h
        exact placeOn_canonical _ _ _ _ _ _ ha hz) _ (fun x hx => by cases hx; exact h1) h
    · trivial

@[simp] theorem withdraw_mem (s : State) (u : Nat) : (s.withdraw u).mem = s.mem := by
  grind [State.withdraw, abortLanes_mem, modUnit_mem]

theorem execBindWithdraw_keeps (sl ix : Nat) (s : State) (hm : Q s.mem) : Answers Q (execBindWithdraw sl ix s) := by
  unfold execBindWithdraw
  split
  · trivial
  · refine Answers.ite trivial ?_
    show Q (State.mem _)
    rw [bindDone_mem, mem_foldl _ fun _ _ => withdraw_mem _ _]
    exact hm

@[simp] theorem saveUnit_mem (s : State) (u : Nat) : (s.saveUnit u).mem = s.mem := by
  grind [State.saveUnit, abortLanes_mem, leaveSlot_mem, modUnit_mem]

@[simp] theorem saveTeam_mem (s : State) (group : Option Nat) (tm : Nat) : (s.saveTeam group tm).mem = s.mem := by
  unfold State.saveTeam
  dsimp only
  rw [modTeam_mem, modUnit_mem, mem_foldl _ fun _ _ => saveUnit_mem _ _]

theorem execTeamSave_keeps (tm : Nat) (s : State) (hm : Q s.mem) : Answers Q (execTeamSave tm s) := by
  unfold execTeamSave
  extract_lets t cl rk tms us keys s1
  have h1 : Q s1.mem := foldl_keeps (fun _ _ h => (congrArg Q (saveTeam_mem ..)).mpr h) _ hm
  refine Answers.ite trivial ?_
  clear_value rk
  cases rk with
  | none => exact h1
  | some u => exact (congrArg Q (saveUnit_mem ..)).mpr h1

theorem execGraceWindowEnd_keeps (u : Nat) (s : State) (hm : Q s.mem) : Answers Q (execGraceWindowEnd u s) := by
  grind [execGraceWindowEnd, modUnit_mem, Answers]

@[simp] theorem returnUnit_mem (s : State) (sl core u : Nat) : (s.returnUnit sl core u).mem = s.mem := rfl

@[simp] theorem returnTeam_mem (s : State) (sl core tm : Nat) : (s.returnTeam sl core tm).mem = s.mem := by
  unfold State.returnTeam
  dsimp only
  rw [modTeam_mem, mem_foldl _ fun _ _ => returnUnit_mem _ _ _ _,
    mem_foldl _ fun _ _ => ite_mem rfl (setOvl_mem _ _ _ _)]

@[simp] theorem returnTo_mem (s : State) (grid sl core : Nat) : (s.returnTo grid sl core).mem = s.mem :=
  mem_foldl _ (fun _ _ => ite_mem rfl (returnTeam_mem _ _ _ _)) _ _

@[simp] theorem returnCluster_mem (s : State) (u sl cl : Nat) : (s.returnCluster u sl cl).mem = s.mem := by
  unfold State.returnCluster
  dsimp only
  rw [returnUnit_mem, mem_foldl _ fun _ _ => returnTeam_mem _ _ _ _, setRovl_mem, mem_foldl _ fun _ _ => modCore_mem _ _ _]

theorem execBindReturn_keeps (sl ix : Nat) (s : State) (hm : Q s.mem) : Answers Q (execBindReturn sl ix s) := by
  unfold execBindReturn
  split
  · trivial
  · extract_lets cs
    split
    · refine Answers.ite trivial ?_
      show Q (State.mem _)
      rwa [bindDone_mem, returnCluster_mem, startSlice_mem]
    · refine Answers.ite trivial ?_
      show Q (State.mem _)
      rwa [bindDone_mem, mem_foldl _ fun _ _ => returnTo_mem _ _ _ _, startSlice_mem]

/-! ### Functions of Machine/Partitions -/

@[simp] theorem leaveSlice_mem (s : State) (sl : Nat) : (s.leaveSlice sl).mem = s.mem := rfl

@[simp] theorem fuseSlice_mem (s : State) (pn sl : Nat) : (s.fuseSlice pn sl).mem = s.mem := rfl

theorem execPartitionFuse_keeps (x0 x1 y0 y1 : Nat) (world : Bool) (ranges : List RangeWords) (s : State) (hm : Q s.mem) :
    Answers Q (execPartitionFuse x0 x1 y0 y1 world ranges s) :=
  Answers.ite trivial (foldl_keeps (fun _ _ h => (congrArg Q (fuseSlice_mem ..)).mpr h) _ hm)

theorem execKernelBoot_keeps (pn : Nat) (image : List Byte) (sigOk : Bool) (s : State) (hm : Q s.mem) :
    Answers Q (execKernelBoot pn image sigOk s) := by
  grind [execKernelBoot, modPart_mem, Answers]

theorem execPartitionResize_keeps (pn : Nat) (add : Bool) (edge : Edge) (s : State) (hm : Q s.mem) :
    Answers Q (execPartitionResize pn add edge s) := by
  grind [execPartitionResize, modPart_mem, Answers]

@[simp] theorem endResize_mem (s : State) (pn : Nat) (r : Resize) : (s.endResize pn r).mem = s.mem :=
  mem_foldl _ (fun _ _ => leaveSlice_mem _ _) _ _

@[simp] theorem nextResize_mem (s : State) (pn : Nat) (r : Resize) : (s.nextResize pn r).mem = s.mem := by
  grind [State.nextResize, endResize_mem, modPart_mem]

@[simp] theorem emptySlice_mem (s : State) (sl : Nat) : (s.emptySlice sl).mem = s.mem :=
  mem_foldl _ (fun _ _ => withdraw_mem _ _) _ _

@[simp] theorem handOver_mem (s : State) (sl dest : Nat) : (s.handOver sl dest).mem = s.mem := by
  grind [State.handOver, dropBinds_mem, modSlice_mem]

theorem execResizeSliceStep_canonical (pn : Nat) (s : State) (hm : canonical s.mem) : Answers canonical (execResizeSliceStep pn s) := by
  unfold execResizeSliceStep
  grind [emptySlice_mem, endResize_mem, fuseSlice_mem, handOver_mem, modPart_mem, modSlice_mem, nextResize_mem, relocate_canonical,
    Answers]

@[simp] theorem wipePart_mem (s : State) (pn : Nat) : (s.wipePart pn).mem = s.mem := rfl

theorem execPartitionDissolve_keeps (pn : Nat) (s : State) (hm : Q s.mem) : Answers Q (execPartitionDissolve pn s) :=
  Answers.ite trivial (foldl_keeps (fun _ _ h => (congrArg Q (leaveSlice_mem ..)).mpr h) _ ((congrArg Q (wipePart_mem ..)).mpr hm))

theorem execScrubChunk_canonical (sl : Nat) (s : State) (hm : canonical s.mem) : Answers canonical (execScrubChunk sl s) :=
  Answers.ite trivial (Tab.wf_filter _ _ _ hm)

theorem execPowerFail_keeps (s : State) (hm : Q s.mem) : Answers Q (execPowerFail s) := by
  grind [execPowerFail, Answers]

theorem execPowerOn_keeps (s : State) (hm : Q s.mem) : Answers Q (execPowerOn s) := by
  grind [execPowerOn, Answers]

@[simp] theorem restartSpdm_mem (s : State) : s.restartSpdm.mem = s.mem := rfl

theorem execRotReset_keeps (s : State) (hm : Q s.mem) : Answers Q (execRotReset s) := by
  grind [execRotReset, restartSpdm_mem, Answers]

theorem execRotFailover_keeps (s : State) (hm : Q s.mem) : Answers Q (execRotFailover s) := by
  grind [execRotFailover, modSlice_mem, restartSpdm_mem, Answers]

/-! ### Functions of Machine/RotEvents -/

theorem execKeyHandleIssue_keeps (pn : Nat) (cls : BitVec 2) (destroy : Option Nat) (s : State) (hm : Q s.mem) :
    Answers Q (execKeyHandleIssue pn cls destroy s) := by
  grind [execKeyHandleIssue, Answers]

theorem spdmStep_keeps (pn code : Nat) (ok : Nat → Bool) (next : Nat → Nat) (slot0 : List Byte → Bool) (req : List Byte) (s : State)
    (hm : Q s.mem) :
    Answers Q (spdmStep pn code ok next slot0 req s) := by
  grind [spdmStep, modPart_mem, modSlice_mem, Answers]

theorem execMeasurementExtend_keeps (pn ix : Nat) (value : List Byte) (s : State) (hm : Q s.mem) :
    Answers Q (execMeasurementExtend pn ix value s) := by
  grind [execMeasurementExtend, modPart_mem, Answers]

@[simp] theorem portFlit_mem (s : State) (sl : Nat) (payload : List Byte) : (s.portFlit sl payload).mem = s.mem := by
  grind [State.portFlit, active_mem]

theorem execPacketSend_keeps (sl a : Nat) (payload : List Byte) (s : State) (hm : Q s.mem) : Answers Q (execPacketSend sl a payload s) := by
  grind [execPacketSend, portFlit_mem, setAssoc_mem, Answers]

theorem execPacketRetry_keeps (sl a : Nat) (counter : BitVec 64) (s : State) (hm : Q s.mem) :
    Answers Q (execPacketRetry sl a counter s) := by
  grind [execPacketRetry, setAssoc_mem, Answers]

theorem execPacketReceive_keeps (sl a : Nat) (counter : BitVec 64) (cipher : List Byte) (s : State) (hm : Q s.mem) :
    Answers Q (execPacketReceive sl a counter cipher s) := by
  grind [execPacketReceive, modSlice_mem, portFire_mem, portFlit_mem, setAssoc_mem, Answers]

theorem execRekey_keeps (sl a : Nat) (s : State) (hm : Q s.mem) : Answers Q (execRekey sl a s) := by
  grind [execRekey, setAssoc_mem, Answers]

theorem execRekeyReopen_keeps (sl a key : Nat) (salt : Word) (s : State) (hm : Q s.mem) : Answers Q (execRekeyReopen sl a key salt s) := by
  grind [execRekeyReopen, setAssoc_mem, Answers]

@[simp] theorem failColl_mem (s : State) (c : Cmd) : (s.failColl c).mem = s.mem := by
  grind [State.failColl, enterColl_mem, modCmd_mem]

theorem execPeerUnreachable_keeps (sl a : Nat) (s : State) (hm : Q s.mem) : Answers Q (execPeerUnreachable sl a s) := by
  unfold execPeerUnreachable
  split
  · trivial
  · refine Answers.ite trivial ?_
    show Q (State.mem _)
    rw [setAssoc_mem, mem_foldl _ fun _ _ => failColl_mem _ _]
    exact hm

@[simp] theorem flashPut_mem (s : State) (world : Bool) (n off : Nat) (bs : List Byte) : (s.flashPut world n off bs).mem = s.mem := by
  grind [State.flashPut]

theorem execFlashAccess_keeps (world : Bool) (addr : Nat) (write : Option (List Byte)) (len : Nat) (s : State) (hm : Q s.mem) :
    Answers Q (execFlashAccess world addr write len s) := by
  cases write with
  | none => exact hm
  | some bs =>
    show Q (State.mem (Prod.fst (List.foldl _ _ _)))
    rw [foldl_fst_mem]
    · exact hm
    · exact fun _ _ => flashPut_mem _ _ _ _ _

/-! ### Functions of Machine/StackEvents -/

@[simp] theorem reply_mem (s : State) (p : Packet) (status : Nat) (data : List Byte) : (s.reply p status data).mem = s.mem := rfl

@[simp] theorem writeFinds_mem (s : State) (p : Packet) : (s.writeFinds p).1.mem = s.mem := by
  grind [State.writeFinds, readHalves_mem]

theorem writeSectors_canonical (s : State) (p : Packet) (data : List Byte) (hm : canonical s.mem) : canonical (s.writeSectors p data).mem :=
  foldl_keeps (fun _ _ h => writeBytes_canonical _ _ _ h) _ hm

@[simp] theorem doRead_mem (s : State) (p : Packet) : (s.doRead p).mem = s.mem := by
  unfold State.doRead
  dsimp only
  split
  · rw [reply_mem, readHalves_mem, activate_mem]
  · rw [reply_mem, foldl_fst_mem, activate_mem]
    exact fun _ _ => readHalves_mem _ _ _

theorem doWrite_canonical (s : State) (p : Packet) (hm : canonical s.mem) : canonical (s.doWrite p).mem := by
  grind [State.doWrite, activate_mem, reply_mem, setPacked_mem, writeFinds_mem, writeSectors_canonical]

theorem doAtomic_canonical (s : State) (p : Packet) (hm : canonical s.mem) : canonical (s.doAtomic p).mem := by
  grind [State.doAtomic, activate_mem, readHalves_mem, reply_mem, setPacked_mem, writeBytes_canonical]

theorem doZero_canonical (s : State) (p : Packet) (hm : canonical s.mem) : canonical (s.doZero p).mem := by
  grind [State.doZero, activate_mem, reply_mem, setPacked_mem, writeBytes_canonical, writeFinds_mem]

theorem present_canonical (s : State) (op : Nat) (p : Packet) (hm : canonical s.mem) : canonical (s.present op p).mem := by
  grind [State.present, doAtomic_canonical, doRead_mem, doWrite_canonical, doZero_canonical]

theorem arrivePkt_canonical (s : State) (op : Nat) (p : Packet) (hm : canonical s.mem) : canonical (s.arrivePkt op p).mem := by
  grind [State.arrivePkt, modStack_mem, present_canonical]

theorem stackStep_canonical (op : Nat) (p : Packet) (ok : Bool) (s : State) (hm : canonical s.mem) :
    Answers canonical (stackStep op p ok s) := by
  grind [stackStep, arrivePkt_canonical, Answers]

theorem execRefreshManagement_keeps (stk pch bank : Nat) (s : State) (hm : Q s.mem) : Answers Q (execRefreshManagement stk pch bank s) := by
  grind [execRefreshManagement, modSlice_mem, modStack_mem, sliceIrq_mem, Answers]

theorem execBankBlockEnd_canonical (stk pch bank : Nat) (s : State) (hm : canonical s.mem) :
    Answers canonical (execBankBlockEnd stk pch bank s) := by
  unfold execBankBlockEnd
  extract_lets t b
  split
  · trivial
  · refine Answers.ite trivial ?_
    exact foldl_keeps (fun _ _ h => arrivePkt_canonical _ _ _ h) _
      (foldl_keeps (fun _ _ h => (congrArg canonical (activate_mem ..)).mpr h) _ hm)

theorem execRefreshWindowEnd_keeps (stk : Nat) (s : State) (hm : Q s.mem) : Answers Q (execRefreshWindowEnd stk s) := by
  grind [execRefreshWindowEnd, modStack_mem, Answers]

theorem execPatrolRead_keeps (stk line : Nat) (s : State) (hm : Q s.mem) : Answers Q (execPatrolRead stk line s) := by
  grind [execPatrolRead, readHalves_mem, Answers]

/-! ### Functions of Machine/HostEvents -/

@[simp] theorem modHart_mem (s : State) (h : Nat) (f : Hart → Hart) : (s.modHart h f).mem = s.mem := rfl

@[simp] theorem hartFault_mem (s : State) (h : Nat) : (s.hartFault h).mem = s.mem := rfl

@[simp] theorem hartPageFault_mem (s : State) (h : Nat) : (s.hartPageFault h).mem = s.mem := rfl

@[simp] theorem hartFreeze_mem (s : State) (h : Nat) (wr : Bool) (pa : Nat) : (s.hartFreeze h wr pa).mem = s.mem := by
  grind [State.hartFreeze, modHart_mem, violate_mem]

theorem regStore_canonical (s : State) (sl off : Nat) (bs : List Byte) (hm : canonical s.mem) {t : State}
    (ht : s.regStore sl off bs = some t) :
    canonical t.mem := by
  unfold State.regStore at ht
  exact foldl_bind_keeps (fun x : State => canonical x.mem) (fun _ _ _ hx h => regWrite_canonical _ _ _ _ hx h) _
    (fun x hx => by cases hx; exact hm) ht

@[simp] theorem walk57_mem (p : Part) (va : Nat) (wr : Bool) (level table : Nat) (s : State) :
    (State.walk57 p va wr level table s).1.mem = s.mem := by
  induction level generalizing table s with
  | zero => rfl
  | succ level ih =>
    unfold State.walk57
    dsimp only
    split
    · rfl
    · rename_i l _
      split
      · rfl
      · have hr := reachLine_mem s l.key [0, 1] false l.cls Req.free
        grind

@[simp] theorem hostPlace_mem (s : State) (p : Part) (via : Option Nat) (a : Nat) (wr : Bool) : (s.hostPlace p via a wr).1.mem = s.mem := by
  unfold State.hostPlace
  grind [walk57_mem]

@[simp] theorem ctrMoved_mem (s old : State) (pn pa key n : Nat) : (s.ctrMoved old pn pa key n).mem = s.mem := by
  grind [State.ctrMoved, active_mem]

theorem hostLoad_keeps : hostLoad.Keeps Q :=
  ⟨fun _ _ _ h => (congrArg Q (perfLoad_mem ..)).mpr h, fun _ _ _ _ _ h => h⟩

theorem hostStore_canonical (bs : List Byte) : (hostStore bs).Keeps canonical where
  mem o s a h := by
    have hs := perfStore_canonical s a ((bs.drop o).take a.len) none h
    unfold hostStore
    dsimp only
    split <;> (rename_i e; rw [e] at hs; exact hs)
  reg o n sl off s h := by
    unfold hostStore
    dsimp only
    split
    · rename_i e; exact regStore_canonical _ _ _ _ h e
    · exact h

theorem hostRmw_canonical (n : Nat) (aq rl : Bool) (f : DWord → DWord) (answer : DWord → List Byte) :
    (hostRmw n aq rl f answer).Keeps canonical where
  mem o s a h := by
    have hs := perfRmw_canonical s a n false f 2#2 (hostOrder aq rl) h
    unfold hostRmw
    dsimp only
    split <;> (rename_i e; rw [e] at hs; exact hs)
  reg _ _ _ _ _ h := h

theorem hostLr_keeps (h : Nat) (aq : Bool) : (hostLr h aq).Keeps Q where
  mem o s a hm := by
    have hr : Q (s.reach a [0, 1]).1.mem := (congrArg Q (reach_mem ..)).mpr hm
    unfold hostLr
    dsimp only
    split <;> (rename_i e; rw [e] at hr)
    · exact hr
    · split
      · exact hr
      · show Q (State.mem (ite _ _ _))
        have hn : Q (State.mem (State.note _ a false (some 2#2))) := (congrArg Q (note_mem ..)).mpr hr
        exact ite_keeps ((congrArg Q (acquireAt_mem ..)).mpr hn) ((congrArg Q (seeAt_mem ..)).mpr hn)
  reg _ _ _ _ _ hm := hm

theorem hostPiece_canonical (s : State) (pn h o n : Nat) (x : HostPlace) {op : HostOp} (ho : op.Keeps canonical) (hm : canonical s.mem) :
    canonical (s.hostPiece pn h o n x op).1.mem := by
  obtain ⟨hmem, hreg⟩ := ho
  unfold State.hostPiece
  split
  · exact ite_fst_keeps hm (ite_fst_keeps hm (hreg _ _ _ _ _ hm))
  · split
    · exact hm
    · rename_i l _
      refine ite_fst_keeps hm ?_
      extract_lets ag
      have ha := hmem o s { agent := ag, clock := s.order.clock ag, loc := locOf pn x.pa, key := l.key, len := n, k := false,
                            unc := x.unc, cls := l.cls, comp := l.comp, bias := 31, req := Req.free } hm
      split <;> (rename_i h; rw [h] at ha)
      · exact ite_keeps ((congrArg canonical (ctrMoved_mem ..)).mpr ha) ha
      · exact ha

@[simp] theorem hostPlaces_mem (s : State) (p : Part) (via : Option Nat) (wr : Bool) (l : List (Nat × Nat)) :
    (s.hostPlaces p via wr l).1.mem = s.mem := by
  induction l generalizing s with
  | nil => rfl
  | cons c r ih =>
    have hp := hostPlace_mem s p via c.1 wr
    unfold State.hostPlaces
    grind

theorem hostPieces_canonical (s : State) (pn h o : Nat) (l : List (HostPlace × Nat)) {op : HostOp} (ho : op.Keeps canonical)
    (hm : canonical s.mem) : canonical (s.hostPieces pn h op o l).1.mem := by
  induction l generalizing s o with
  | nil => exact hm
  | cons x r ih =>
    have hp := hostPiece_canonical s pn h o x.2 x.1 ho hm
    unfold State.hostPieces
    split
    · rename_i t bs e
      rw [e] at hp
      have hr := ih t (o + x.2) hp
      split
      · rename_i e; rw [e] at hr; exact hr
      · exact hr
    · exact hp

theorem hostEnd_keeps (h : Nat) (wr : Bool) {r : State × HostEnd (List Byte)} (hm : Q r.1.mem) : Answers Q (hostEnd h wr r) := by
  obtain ⟨s, e⟩ := r
  cases e with
  | ok bs => exact hm
  | bad => exact (congrArg Q (hartFault_mem ..)).mpr hm
  | pageFault => exact (congrArg Q (hartPageFault_mem ..)).mpr hm
  | wait => trivial
  | fire a => exact (congrArg Q (hartFreeze_mem ..)).mpr hm

theorem hostSpan_canonical (s : State) (pn h : Nat) (via : Option Nat) (a n : Nat) {op : HostOp} (ho : op.Keeps canonical)
    (hm : canonical s.mem) : Answers canonical (s.hostSpan pn h via a n op) := by
  have hp := hostPlaces_mem s (s.part pn) via op.write (lineChunks a n)
  unfold State.hostSpan
  split <;> (rename_i e; rw [e] at hp; have hx := (congrArg canonical hp).mpr hm)
  · exact hostEnd_keeps _ _ (hostPieces_canonical _ _ _ _ _ ho hx)
  all_goals exact hostEnd_keeps _ _ hx

theorem hostAtomic_canonical (s : State) (pn h : Nat) (via : Option Nat) (a : Nat) (wide : Bool) {op : HostOp} (ho : op.Keeps canonical)
    (hm : canonical s.mem) : Answers canonical (s.hostAtomic pn h via a wide op) :=
  Answers.ite ((congrArg canonical (hartFault_mem ..)).mpr hm) (hostSpan_canonical _ _ _ _ _ _ ho hm)

@[simp] theorem unreserve_mem (s : State) (h : Nat) : (s.unreserve h).mem = s.mem := rfl

theorem execHostAccess_canonical (pn h : Nat) (acc : HostAccess) (s : State) (hm : canonical s.mem) :
    Answers canonical (execHostAccess pn h acc s) := by
  grind [execHostAccess, hostAtomic_canonical, hostSpan_canonical, modHart_mem, unreserve_mem, fenceOrder_mem, hostLoad_keeps,
    hostLr_keeps, hostRmw_canonical, hostStore_canonical, Answers]

/-! ### Functions of Machine/LaneInt -/

theorem lane1_keeps (g : BitVec 3) (d : Dest) (a : Src) (f : Word → Word) {s : State} (hm : Q s.mem) : Answers Q (lane1 g d a f s) :=
  issueL_keeps _ _ _ _ (fun _ act h => laneBody_keeps _ act h) hm

theorem lane2_keeps (g : BitVec 3) (d : Dest) (a b : Src) (f : Word → Word → Word) {s : State} (hm : Q s.mem) :
    Answers Q (lane2 g d a b f s) := issueL_keeps _ _ _ _ (fun _ act h => laneBody_keeps _ act h) hm

theorem laneAcc_keeps (g : BitVec 3) (d : Fin 120) (a b : Src) (f : Word → Word → Word → Word) {s : State} (hm : Q s.mem) :
    Answers Q (laneAcc g d a b f s) := issueL_keeps _ _ _ _ (fun _ act h => laneBody_keeps _ act h) hm

theorem laneCmp_keeps (g : BitVec 3) (p : Fin 7) (a b : Src) (r : IRel) {s : State} (hm : Q s.mem) : Answers Q (laneCmp g p a b r s) :=
  issueL_keeps _ _ _ _ (fun _ act h => laneBody_keeps _ act h) hm

theorem lanePred_keeps (g : BitVec 3) (p : Fin 7) (a b : Fin 8) (f : Bool → Bool → Bool) {s : State} (hm : Q s.mem) :
    Answers Q (lanePred g p a b f s) := issueL_keeps _ _ _ _ (fun _ act h => laneBody_keeps _ act h) hm

theorem execNop_keeps (g : BitVec 3) (s : State) (hm : Q s.mem) : Answers Q (execNop g s) := by
  grind [execNop, issueL_keeps, laneBody_keeps]

theorem execVbc_keeps (g : BitVec 3) (d : Dest) (n : Fin 64) (s : State) (hm : Q s.mem) : Answers Q (execVbc g d n s) := by
  grind [execVbc, issueL_keeps, laneBody_keeps]

theorem execSel_keeps (g : BitVec 3) (d : Dest) (a b : Src) (s : State) (hm : Q s.mem) : Answers Q (execSel g d a b s) := by
  grind [execSel, issueL_keeps, laneBody_keeps]

theorem execPtov_keeps (g : BitVec 3) (d : Dest) (a : Fin 8) (s : State) (hm : Q s.mem) : Answers Q (execPtov g d a s) := by
  grind [execPtov, issueL_keeps, laneBody_keeps]

theorem execVtop_keeps (g : BitVec 3) (p : Fin 7) (a : Src) (s : State) (hm : Q s.mem) : Answers Q (execVtop g p a s) := by
  grind [execVtop, issueL_keeps, laneBody_keeps]

/-! ### Functions of Machine/MatrixRun -/

@[simp] theorem runMma_mem (s : State) (key : Nat) (o : MatOp) : (s.runMma key o).mem = s.mem := by
  unfold State.runMma
  dsimp only
  split
  · exact mem_foldl _ (fun _ _ => modUni_mem _ _ _) _ _
  · rfl

@[simp] theorem runMscale_mem (s : State) (key : Nat) (o : MatOp) : (s.runMscale key o).mem = s.mem := rfl

@[simp] theorem runMzero_mem (s : State) (key : Nat) (o : MatOp) : (s.runMzero key o).mem = s.mem := rfl

theorem execMatrixExecuteStart_keeps (sl core : Nat) (s : State) (hm : Q s.mem) : Answers Q (execMatrixExecuteStart sl core s) := by
  grind [execMatrixExecuteStart, modCore_mem, Answers]

@[simp] theorem matReads_mem (s : State) (o : MatOp) : (s.matReads o).1.mem = s.mem := by
  unfold State.matReads
  rw [foldl_fst_mem]
  · rfl
  · intro r t
    grind [noteAccess_mem]

@[simp] theorem leaveQueue_mem (s : State) (key : Nat) (o : MatOp) : (s.leaveQueue key o).mem = s.mem := by
  unfold State.leaveQueue
  dsimp only
  split
  · rfl
  · exact mem_foldl _ (fun _ _ => modTile_mem _ _ _ _) _ _

@[simp] theorem matDone_mem (s : State) (o : MatOp) : (s.matDone o).mem = s.mem := by
  grind [State.matDone, modUnit_mem]

@[simp] theorem holdMat_mem (s : State) (key : Nat) (o : MatOp) (wr : Bool) (pa : Nat) : (s.holdMat key o wr pa).mem = s.mem := by
  grind [State.holdMat, violate_mem]

@[simp] theorem voidAdd_mem (s : State) (grp : Nat) : (s.voidAdd grp).mem = s.mem := rfl

theorem execMatrixComplete_canonical (sl core : Nat) (s : State) (hm : canonical s.mem) :
    Answers canonical (execMatrixComplete sl core s) := by
  grind [execMatrixComplete, completionAdd_canonical, dropAgent_mem, holdFault_mem, holdMat_mem, leaveQueue_mem, matDone_mem,
    matReads_mem, modTile_mem, runMma_mem, runMscale_mem, runMzero_mem, voidAdd_mem, Answers]

/-! ### Functions of Machine/SpecWords -/

theorem execTry_keeps (q : BitVec 3) (off : BitVec 21) (spm : Word) (s : State) (hm : Q s.mem) : Answers Q (execTry q off spm s) := by
  refine issueG_keeps _ _ _ _ _ _ (fun s hm => ?_) hm
  grind [GRes.Keeps, abortLanes_mem, modLanes_mem, modUni_mem]

theorem commitStore_canonical (s : State) (u : Nat) (b : BufStore) (hm : canonical s.mem) : (s.commitStore u b).Keeps canonical := by
  unfold State.commitStore
  extract_lets w va
  split
  · have hl : canonical (s.localAccess u w.team (BitVec.ofNat 32 b.addr) b.bytes.length (some b.bytes)).1.mem :=
      (localAccess_mem ..).symm ▸ hm
    split
    · rename_i h; rw [h] at hl; exact hl
    · trivial
  · have hp := permit_canonical s w.part (s.asid w) w.slice va b.bytes.length true hm
    split <;> try trivial
    rename_i h
    rw [h] at hp
    split
    · trivial
    split
    · trivial
    extract_lets a
    have hs := perfStore_canonical _ a b.bytes none hp
    split
    · rename_i h; rw [h] at hs; exact setDirty_canonical _ _ _ hs
    · trivial

theorem commitStores_canonical (s : State) (u : Nat) (l : List BufStore) (hm : canonical s.mem) : (s.commitStores u l).Keeps canonical := by
  induction l generalizing s with
  | nil => exact hm
  | cons b r ih =>
    have hc := commitStore_canonical s u b hm
    unfold State.commitStores
    split
    · rename_i h; rw [h] at hc; exact ih _ hc
    · trivial
    · trivial
    · trivial

theorem ComRun.lane_canonical (r : ComRun) (u l : Nat) (hm : canonical r.s.mem) : canonical (r.lane u l).s.mem := by
  have hc := commitStores_canonical r.s u ((r.s.unit u).lane l).sp.buf hm
  unfold ComRun.lane
  split
  · rename_i h; rw [h] at hc; exact (modLanes_mem ..).symm ▸ hc
  · exact hm
  · exact hm
  · exact hm

theorem foldl_comRun_canonical {f : ComRun → Nat → ComRun} (hf : ∀ r l, canonical r.s.mem → canonical (f r l).s.mem) (l : List Nat)
    {r : ComRun} (hm : canonical r.s.mem) : canonical (l.foldl f r).s.mem := by
  induction l generalizing r with
  | nil => exact hm
  | cons a l ih => exact ih (hf r a hm)

theorem execCommit_canonical (q : BitVec 3) (s : State) (hm : canonical s.mem) : Answers canonical (execCommit q s) :=
  issueG_keeps _ _ _ _ _ _ (fun x hx => by
    extract_lets c ls r
    have hr : canonical r.s.mem := foldl_comRun_canonical (fun r l h => ComRun.lane_canonical r c.u l h) _ hx
    clear_value r
    refine GRes.ite_keeps trivial ?_
    split
    · exact (congrArg canonical (freeze_mem ..)).mpr hx
    · exact (congrArg canonical (abortLanes_mem ..)).mpr hr) hm

@[simp] theorem openAll_mem (s : State) (m : Word) (target : Word) (ser : Option Nat) : (s.openAll m target ser).mem = s.mem := by
  grind [State.openAll, modLanes_mem, modPart_mem]

@[simp] theorem queueToken_mem (s : State) (u l : Nat) : (s.queueToken u l).mem = s.mem := rfl

theorem execTxopen_keeps (q : BitVec 3) (off : BitVec 21) (s : State) (hm : Q s.mem) : Answers Q (execTxopen q off s) := by
  refine issueG_keeps _ _ _ _ _ _ (fun s hm => ?_) hm
  grind [GRes.Keeps, abortLanes_mem, modLanes_mem, modPart_mem, openAll_mem, queueToken_mem]

@[simp] theorem txTouch_mem (s : State) (pn u key len : Nat) (write : Bool) : (s.txTouch pn u key len write).mem = s.mem := rfl

@[simp] theorem validate_mem (s : State) (pn : Nat) (uncs : List Nat) (l : List (Nat × List Byte)) :
    (s.validate pn uncs l).1.mem = s.mem := by
  induction l generalizing s with
  | nil => rfl
  | cons p r ih => grind [State.validate, reachLine_mem]

@[simp] theorem reachWrite_mem (s : State) (pn line : Nat) (unc : Bool) (wrote : Nat → Bool) :
    (s.reachWrite pn line unc wrote).mem = s.mem := by
  unfold State.reachWrite
  dsimp only
  simp

theorem applyTx_canonical (s : State) (pn u : Nat) (sp : Spec) (hm : canonical s.mem) : canonical (s.applyTx pn u sp).mem := by
  unfold State.applyTx
  extract_lets lines s1 s2 s3 s4 s5
  have h1 : canonical s1.mem := foldl_keeps (fun _ _ h => (congrArg canonical (txTouch_mem ..)).mpr h) _ hm
  have h2 : canonical s2.mem := foldl_keeps (fun _ _ h => (congrArg canonical (reachWrite_mem ..)).mpr h) _ h1
  have h3 : canonical s3.mem := foldl_keeps (fun x p h => writeByte_canonical (x.txTouch pn u p.1 1 true) p.1 p.2 h) _ h2
  have h4 : canonical s4.mem := foldl_keeps (fun _ _ h => (congrArg canonical (setPacked_mem ..)).mpr h) _ h3
  have h5 : canonical s5.mem := ite_keeps h4 h4
  clear_value s5
  split
  exact @foldl_keeps canonical _ _ (fun _ _ h => (congrArg canonical (publish_mem ..)).mpr h) _ _ h5

theorem txDirty_canonical (s : State) (w : Warp) (sp : Spec) (hm : canonical s.mem) : canonical (s.txDirty w sp).mem :=
  foldl_keeps (fun r sec hr => by
    have hc := check_canonical r w.part (r.asid w) w.slice (BitVec.ofNat 64 (32 * sec)) 1 true hr
    grind [setDirty_canonical]) _ hm

theorem txEntries_canonical (s : State) (w : Warp) (sp : Spec) (hm : canonical s.mem) : canonical (s.txEntries w sp).1.mem := by
  unfold State.txEntries
  refine foldl_fst_keeps (fun r sec hr => ?_) _ hm
  have hc := permit_canonical r.1 w.part (s.asid w) w.slice (BitVec.ofNat 64 (32 * sec)) 1 true hr
  split <;> (rename_i h; rw [h] at hc; exact hc)

theorem closeLane_canonical (u : Nat) (r : State × Word × Word) (l : Nat) (hm : canonical r.1.mem) : canonical (closeLane u r l).1.mem := by
  obtain ⟨s, differ, bad⟩ := r
  unfold closeLane
  dsimp only
  refine ite_fst_keeps ((modLanes_mem ..).symm ▸ hm) ?_
  have hv : canonical (s.validate (s.unit u).part ((s.unit u).lane l).sp.uncs ((s.unit u).lane l).sp.rlog).1.mem :=
    (validate_mem ..).symm ▸ hm
  split <;> (rename_i h; rw [h] at hv)
  · rename_i x
    have he := txEntries_canonical x (s.unit u) ((s.unit u).lane l).sp hv
    split <;> (rename_i h; rw [h] at he)
    · exact he
    · exact (modLanes_mem ..).symm ▸ txDirty_canonical _ _ _ (applyTx_canonical _ _ _ _ he)
  · exact hv
  · exact hv

theorem execTxclose_canonical (q : BitVec 3) (s : State) (hm : canonical s.mem) : Answers canonical (execTxclose q s) :=
  issueG_keeps _ _ _ _ _ _ (fun x hx => by
    extract_lets c w ls held
    refine GRes.ite_keeps trivial (GRes.ite_keeps trivial ?_)
    have hc : canonical ((lanesOf ls).foldl (closeLane c.u) (x, 0#32, 0#32)).1.mem :=
      foldl_fst_keeps (fun r l h => closeLane_canonical _ r l h) _ hx
    split
    rename_i e
    rw [e] at hc
    show canonical (State.mem _)
    rwa [yieldBy_mem, releaseToken_mem, modLanes_mem, abortLanes_mem, modLanes_mem, abortLanes_mem]) hm

theorem execTxcancel_keeps (q : BitVec 3) (a : Fin 64) (s : State) (hm : Q s.mem) : Answers Q (execTxcancel q a s) := by
  refine issueG_keeps _ _ _ _ _ _ (fun s hm => ?_) hm
  grind [GRes.Keeps, abortLanes_mem]

/-! ### Functions of Machine/Uniform -/

theorem uni2_keeps (q : BitVec 3) (d a b : Fin 64) (f : Word → Word → Word) (s : State) (hm : Q s.mem) : Answers Q (uni2 q d a b f s) := by
  unfold uni2
  grind [issueUni_keeps]

theorem uni1_keeps (q : BitVec 3) (d a : Fin 64) (f : Word → Word) (s : State) (hm : Q s.mem) : Answers Q (uni1 q d a f s) := by
  unfold uni1
  grind [issueUni_keeps]

theorem uniCmp_keeps (q : BitVec 3) (d : Fin 8) (a b : Fin 64) (r : IRel) (s : State) (hm : Q s.mem) : Answers Q (uniCmp q d a b r s) := by
  unfold uniCmp
  grind [issueUni_keeps]

theorem execQop_keeps (q : BitVec 3) (f : QFun) (d a b : Fin 8) (s : State) (hm : Q s.mem) : Answers Q (execQop q f d a b s) := by
  refine issueG_keeps _ _ _ _ _ _ (fun s hm => ?_) hm
  grind [GRes.Keeps, modUni_mem]

theorem execSfirst_keeps (q : BitVec 3) (d : Fin 64) (s : State) (hm : Q s.mem) : Answers Q (execSfirst q d s) := by
  refine issueG_keeps _ _ _ _ _ _ (fun s hm => ?_) hm
  grind [GRes.Keeps, modUni_mem]

theorem execVmask_keeps (q : BitVec 3) (d : Fin 64) (s : State) (hm : Q s.mem) : Answers Q (execVmask q d s) := by
  refine issueG_keeps _ _ _ _ _ _ (fun s hm => ?_) hm
  grind [GRes.Keeps, modUni_mem]

theorem groupPred_keeps (q : BitVec 3) (d a : Fin 8) (f : Word → Word → Bool) (s : State) (hm : Q s.mem) :
    Answers Q (groupPred q d a f s) := by
  refine issueG_keeps _ _ _ _ _ _ (fun s hm => ?_) hm
  grind [GRes.Keeps, modUni_mem]

theorem execPset_keeps (q : BitVec 3) (p : Fin 7) (a : Fin 8) (s : State) (hm : Q s.mem) : Answers Q (execPset q p a s) := by
  refine issueG_keeps _ _ _ _ _ _ (fun s hm => ?_) hm
  grind [GRes.Keeps, modLanes_mem]

theorem execSwr_keeps (q : BitVec 3) (a : Fin 64) (ix : Fin 40) (s : State) (hm : Q s.mem) : Answers Q (execSwr q a ix s) := by
  refine issueG_keeps _ _ _ _ _ _ (fun s hm => ?_) hm
  grind [GRes.Keeps, modLanes_mem, modUni_mem]

end Sys2Proof.Machine
end

section
/-!
PROOFS. What an instruction does to memory: all but the words that name main memory leave it as it was, and every one keeps its
canonical form.
-/

namespace Sys2Proof.Machine

/-- The words that name main memory: the lanes' global words, and the uniform words that load, store or wait there, copy an overlay,
take a record or commit. -/
def namesMemory : Instr → Bool
  | .ldg8 .. | .ldg16 .. | .ldg32 .. | .ldg64 .. | .ldg128 .. | .stg8 .. | .stg16 .. | .stg32 .. | .stg64 .. | .stg128 ..
  | .aadd .. | .aadd64 .. | .amin .. | .amax .. | .aand .. | .aor .. | .axchg .. | .acas .. | .radd .. | .raddf .. | .rmax ..
  | .jovl .. | .ovload .. | .launch .. | .sld .. | .sld64 .. | .sst .. | .sst64 .. | .saadd .. | .sacas .. | .pgreq .. | .cnew ..
  | .cfree .. | .cadd .. | .caddr .. | .cread .. | .waitge .. | .waitto .. | .commit .. | .txclose .. => true
  | _ => false

section
variable {Q : List Host.Cell → Prop}

/-- A word that names no memory keeps whatever holds of memory. -/
theorem exec_keeps_of_namesMemory_false {i : Instr} {s : State} (hw : encode i ≠ []) (hi : namesMemory i = false) (hm : Q s.mem) :
    Answers Q (exec i s) := by
  unfold exec
  cases i with
  | nop => exact execNop_keeps _ _ hm
  | mov | iabs | clz | popc | brev => exact lane1_keeps _ _ _ _ hm
  | vbc => exact execVbc_keeps _ _ _ _ hm
  | iadd | isub | imul | imulh | imulhu | imin | imax | umin | umax | andOp | orOp | xorOp | andn | shl | shr | sar | bfe | bfes
    => exact lane2_keeps _ _ _ _ _ hm
  | imac | bfi => exact laneAcc_keeps _ _ _ _ _ hm
  | sel => exact execSel_keeps _ _ _ _ _ hm
  | icmpeq | icmpne | icmplt | icmple | ucmplt | ucmple => exact laneCmp_keeps _ _ _ _ _ hm
  | pand | por | pxor | pnot => exact lanePred_keeps _ _ _ _ _ hm
  | ptov => exact execPtov_keeps _ _ _ _ hm
  | vtop => exact execVtop_keeps _ _ _ _ hm
  | fadd | fsub | fmul | fmin | fmax | fscale | badd2 | bmul2 | bmax2 | hadd2 | hmul2 | hmax2 | pkbf | pkhf | cvtsr
    => exact laneF2_keeps _ _ _ _ _ hm
  | fmac | bmac2 | hmac2 => exact laneFAcc_keeps _ _ _ _ _ hm
  | fmal => exact execFmal_keeps _ _ _ _ _ hm
  | fcmpeq | fcmplt | fcmple | fcmpun => exact laneFCmp_keeps _ _ _ _ _ hm
  | frcp | frsq | fsqrt | fexp2 | flog2 | fsinpi | fcospi | ftanh | cvtfi | cvtif | upklo | upkhi => exact laneF1_keeps _ _ _ _ hm
  | cvtn => exact execCvtn_keeps _ _ _ _ _ _ hm
  | cvtw => exact execCvtw_keeps _ _ _ _ _ _ hm
  | qscale => exact execQscale_keeps _ _ _ _ _ _ hm
  | shfl | lswap | hswap => exact laneExchange_keeps _ _ _ _ _ hm
  | ballot => exact execBallot_keeps _ _ _ _ hm
  | ldl32 | ldl64 | ldl128 | stl32 | stl64 | stl128 => exact issueLocal_keeps _ _ _ _ _ _ _ _ _ hm
  | drain => exact execDrain_keeps _ _ _ _ _ hm
  | accw => exact execAccw_keeps _ _ _ _ _ hm
  | bra => exact execBra_keeps _ _ _ hm
  | call => exact execCall_keeps _ _ _ hm
  | ret => exact execRet_keeps _ _ hm
  | trapl => exact execTrapl_keeps _ _ _ hm
  | rollb => exact execRollb_keeps _ _ _ hm
  | snop | slit | sadd64 | ssel | srd | hint | sfadd | sfmul | sfcmplt | scvtfi | scvtif | slit64 => exact issueUni_keeps _ _ hm
  | smov | saddi | sclz | spopc => exact uni1_keeps _ _ _ _ _ hm
  | sadd | ssub | smul | smin | smax | sand | sor | sxor | sshl | sshr | ssar | sbfe | sdivu | sremu => exact uni2_keeps _ _ _ _ _ _ hm
  | scmpeq | scmpne | scmplt | scmple | scmpltu => exact uniCmp_keeps _ _ _ _ _ _ hm
  | qop => exact execQop_keeps _ _ _ _ _ _ hm
  | sfirst => exact execSfirst_keeps _ _ _ hm
  | vmask => exact execVmask_keeps _ _ _ hm
  | swr => exact execSwr_keeps _ _ _ _ hm
  | jmp => exact execJmp_keeps _ _ _ hm
  | loop => exact execLoop_keeps _ _ _ _ hm
  | scall => exact execScall_keeps _ _ _ hm
  | sret => exact execSret_keeps _ _ hm
  | yield => exact execYield_keeps _ _ hm
  | exit => exact execExit_keeps _ _ hm
  | trap => exact execTrap_keeps _ _ _ hm
  | tret => exact execTret_keeps _ _ hm
  | tmask => exact execTmask_keeps _ _ _ hm
  | uint => exact execUint_keeps _ _ _ _ hm
  | uiret => exact execUiret_keeps _ _ hm
  | sysc => exact execSysc_keeps _ _ _ _ _ hm
  | sbrk => exact execSbrk_keeps _ _ hm
  | regq => exact execRegq_keeps _ _ _ hm
  | regpool => exact execRegpool_keeps _ _ _ hm
  | pgadv => exact execPgadv_keeps _ _ _ _ _ hm
  | palloc => exact execPalloc_keeps _ _ _ _ hm
  | pfree => exact execPfree_keeps _ _ _ hm
  | tbar => exact execTbar_keeps _ _ hm
  | fence => exact execFence_keeps _ _ _ hm
  | fencex => exact execFencex_keeps _ _ _ _ _ hm
  | tryOp => exact execTry_keeps _ _ _ _ hm
  | txopen => exact execTxopen_keeps _ _ _ hm
  | txcancel => exact execTxcancel_keeps _ _ _ hm
  | tiledef | metadef => exact defTile_keeps _ _ _ _ _ hm
  | tilerel => exact execTilerel_keeps _ _ _ hm
  | tstate => exact execTstate_keeps _ _ _ _ hm
  | cpyin | cpyout | cpygg | gather | scatter | coll | sealb | sealu | sealf | ckpt => exact engineWord_keeps _ _ _ _ _ _ hm
  | msel => exact execMsel_keeps _ _ _ _ hm
  | mma => exact execMma_keeps _ _ _ hm
  | mmas => exact execMmas_keeps _ _ _ hm
  | mmag => exact execMmag_keeps _ _ _ hm
  | mscale => exact execMscale_keeps _ _ _ _ _ hm
  | mzero => exact execMzero_keeps _ _ _ _ hm
  | mrel => exact execMrel_keeps _ _ _ hm
  | mwait => exact execMwait_keeps _ _ _ hm
  | qany | qall => exact groupPred_keeps _ _ _ _ _ hm
  | pset => exact execPset_keeps _ _ _ _ hm
  | sleep => exact execSleep_keeps _ _ _ hm
  | reservedOpcodeWord => exact execReservedOpcodeWord_keeps _ _ _ _ _ hm
  | ldg8 | ldg16 | ldg32 | ldg64 | ldg128 | stg8 | stg16 | stg32 | stg64 | stg128
  | aadd | aadd64 | amin | amax | aand | aor | axchg | acas | radd | raddf | rmax
  | jovl | ovload | launch | sld | sld64 | sst | sst64 | saadd | sacas | pgreq | cnew
  | cfree | cadd | caddr | cread | waitge | waitto | commit | txclose
    => exact Bool.noConfusion (hi : true = false)
  | _ => exact absurd rfl hw

end

/-- A step of any instruction keeps memory canonical. -/
theorem exec_canonical (i : Instr) {s : State} (hm : canonical s.mem) : Answers canonical (exec i s) := by
  by_cases h : encode i ≠ [] ∧ namesMemory i = false
  · exact exec_keeps_of_namesMemory_false h.1 h.2 hm
  unfold exec
  cases i with
  | ldg8 | ldg16 | ldg32 | ldg64 | ldg128 | stg8 | stg16 | stg32 | stg64 | stg128 | aadd | aadd64 | amin | amax | aand | aor
  | axchg | acas | radd | raddf | rmax => exact issueGlobal_canonical _ _ _ _ _ _ _ hm
  | jovl => exact execJovl_canonical _ _ _ _ hm
  | ovload => exact execOvload_canonical _ _ _ _ hm
  | launch => exact execLaunch_canonical _ _ _ hm
  | sld | sld64 => exact uniLoad_canonical _ _ _ _ _ _ _ _ hm
  | sst | sst64 => exact uniStore_canonical _ _ _ _ _ _ hm
  | saadd | sacas => exact uniAtomic_canonical _ _ _ _ _ _ _ _ hm
  | pgreq => exact execPgreq_canonical _ _ _ _ _ hm
  | cnew => exact execCnew_canonical _ _ _ _ hm
  | cfree => exact execCfree_canonical _ _ _ hm
  | cadd => exact execCadd_canonical _ _ _ _ _ hm
  | caddr => exact execCaddr_canonical _ _ _ _ _ hm
  | cread => exact execCread_canonical _ _ _ _ _ hm
  | waitge => exact execWaitge_canonical _ _ _ _ _ hm
  | waitto => exact execWaitto_canonical _ _ _ _ _ _ hm
  | commit => exact execCommit_canonical _ _ hm
  | txclose => exact execTxclose_canonical _ _ hm
  | fetchOutsideOverlay => exact execFetchOutsideOverlay_keeps _ hm
  | loadDataReturn | storePerformed => exact performLanes_canonical _ _ _ _ _ hm
  | trapEntry => exact execTrapEntry_keeps _ _ _ hm
  | waitSatisfied => exact execWaitSatisfied_canonical _ _ _ hm
  | waittoTimeout => exact execWaittoTimeout_keeps _ _ _ hm
  | sleepWake => exact execSleepWake_keeps _ _ _ hm
  | regqGrant => exact execRegqGrant_keeps _ _ hm
  | regqRefuse => exact execRegqRefuse_keeps _ _ hm
  | matrixExecuteStart => exact execMatrixExecuteStart_keeps _ _ _ hm
  | matrixComplete => exact execMatrixComplete_canonical _ _ _ hm
  | engineCommandStart => exact execEngineCommandStart_canonical _ _ hm
  | engineCommandComplete => exact execEngineCommandComplete_canonical _ _ hm
  | engineCommandFault => exact execEngineCommandFault_canonical _ _ hm
  | overlaySlotCopy => exact execOverlaySlotCopy_canonical _ _ hm
  | overlayCopyDone => exact execOverlayCopyDone_keeps _ _ hm
  | uintDelivery => exact execUintDelivery_keeps _ _ hm
  | watchdog => exact execWatchdog_keeps _ _ _ hm
  | warpAging => exact execWarpAging_keeps _ _ hm
  | syscReply => exact execSyscReply_keeps _ _ _ _ hm
  | collAllReduce | collReduceScatter | collAllGather | collBroadcast | collGet | collAllToAll => exact collStep_canonical _ _ _ _ hm
  | collPut => exact execCollPut_canonical _ _ _ hm
  | fabricRemoteAccess => exact execFabricRemoteAccess_canonical _ _ _ hm
  | ckptSave => exact execCkptSave_canonical _ _ _ _ hm
  | ckptRestore => exact execCkptRestore_canonical _ _ _ hm
  | ckptPageCopy => exact execCkptPageCopy_canonical _ _ _ hm
  | sealContextVoid => exact execSealContextVoid_canonical _ _ _ hm
  | gridRetire => exact execGridRetire_canonical _ _ hm
  | pgreqResidentAdd => exact execPgreqResidentAdd_canonical _ _ _ hm
  | rangeEvict => exact execRangeEvict_canonical _ _ _ _ _ hm
  | recordTake => exact execRecordTake_canonical _ _ _ hm
  | gridEligible => exact execGridEligible_canonical _ _ hm
  | gridPlace => exact execGridPlace_canonical _ _ hm
  | bindPlace => exact execBindPlace_canonical _ _ _ hm
  | bindWithdraw => exact execBindWithdraw_keeps _ _ _ hm
  | bindReturn => exact execBindReturn_keeps _ _ _ hm
  | teamSave => exact execTeamSave_keeps _ _ hm
  | graceWindowEnd => exact execGraceWindowEnd_keeps _ _ hm
  | timeSliceExpiry => exact execTimeSliceExpiry_canonical _ _ hm
  | eventRecordWrite => exact execEventRecordWrite_canonical _ _ hm
  | scRegisterQueue | scRemoveQueue | scSetEventRing => exact scStep_canonical _ _ _ _ hm
  | tlbinvPage | tlbinvContext | tlbinvReload | tlbinvAll => exact tlbinvStep_keeps _ _ _ _ hm
  | tlbinvDone => exact execTlbinvDone_keeps _ _ hm
  | sliceReset => exact execSliceReset_canonical _ _ hm
  | functionReady => exact execFunctionReady_keeps _ _ _ hm
  | firewallReleaseAll => exact execFirewallReleaseAll_keeps _ _ hm
  | actctlWrite => exact execActctlWrite_keeps _ _ _ hm
  | pmctlThaw => exact execPmctlThaw_keeps _ _ _ hm
  | addressRangeWrite => exact execAddressRangeWrite_keeps _ _ _ _ hm
  | registerWrite => exact execRegisterWrite_canonical _ _ _ _ hm
  | progressWindowEnd => exact execProgressWindowEnd_canonical _ _ hm
  | debugHalt => exact execDebugHalt_keeps _ _ hm
  | debugResume => exact execDebugResume_keeps _ _ _ _ hm
  | partitionFuse => exact execPartitionFuse_keeps _ _ _ _ _ _ _ hm
  | kernelBoot => exact execKernelBoot_keeps _ _ _ _ hm
  | partitionResize => exact execPartitionResize_keeps _ _ _ _ hm
  | resizeSliceStep => exact execResizeSliceStep_canonical _ _ hm
  | partitionDissolve => exact execPartitionDissolve_keeps _ _ hm
  | scrubChunk => exact execScrubChunk_canonical _ _ hm
  | powerOn => exact execPowerOn_keeps _ hm
  | powerFail => exact execPowerFail_keeps _ hm
  | getVersion | getCapabilities | negotiateAlgorithms | getDigests | getCertificate | challenge | getMeasurements
    => exact spdmStep_keeps _ _ _ _ _ _ _ hm
  | measurementExtend => exact execMeasurementExtend_keeps _ _ _ _ hm
  | rotFailover => exact execRotFailover_keeps _ hm
  | packetSend => exact execPacketSend_keeps _ _ _ _ hm
  | packetReceive => exact execPacketReceive_keeps _ _ _ _ _ hm
  | packetRetry => exact execPacketRetry_keeps _ _ _ _ hm
  | rekey => exact execRekey_keeps _ _ _ hm
  | rekeyReopen => exact execRekeyReopen_keeps _ _ _ _ _ hm
  | flashAccess => exact execFlashAccess_keeps _ _ _ _ _ hm
  | stackRead | stackWrite | stackAtomic | stackZeroLine => exact stackStep_canonical _ _ _ _ hm
  | refreshManagement => exact execRefreshManagement_keeps _ _ _ _ hm
  | bankBlockEnd => exact execBankBlockEnd_canonical _ _ _ _ hm
  | refreshWindowEnd => exact execRefreshWindowEnd_keeps _ _ hm
  | patrolRead => exact execPatrolRead_keeps _ _ _ hm
  | hostAccess => exact execHostAccess_canonical _ _ _ _ hm
  | childQueueTake => exact execChildQueueTake_canonical _ _ hm
  | peerUnreachable => exact execPeerUnreachable_keeps _ _ _ hm
  | keyHandleIssue => exact execKeyHandleIssue_keeps _ _ _ _ hm
  | rotReset => exact execRotReset_keeps _ hm
  | gridEndByKernel => exact execGridEndByKernel_canonical _ _ hm
  | _ => exact absurd ⟨List.cons_ne_nil _ _, rfl⟩ h

end Sys2Proof.Machine
end

section
/-!
PROOFS. Every step keeps the canonical form of memory (log 2), and the words that name no memory, told by their opcodes, leave it alone
(R6, R45, R46, R154).
-/

namespace Sys2Proof.Machine

/-! ### Steps -/

theorem runChoice_canonical (c : Choice) {s : State} (hm : canonical s.mem) : Answers canonical (runChoice exec c s) := by
  refine Answers.ite trivial ?_
  cases c with
  | ev i => exact exec_canonical i hm
  | issue sl core slot => exact issueSlot_keeps (fun i _ hx => exec_canonical i hx) _ _ _ hm
  | reck sl cl => exact issueReck_keeps (fun i _ hx => exec_canonical i hx) _ _ hm
  | replay u l => exact issueReplay_keeps (fun i _ hx => exec_canonical i hx) _ _ hm

/-- What the slot controllers and the stacks do of themselves keeps memory canonical. -/
theorem ripeOwn_canonical (s : State) {f : State → Out State} (hf : f ∈ s.ripeOwn) {x : State} (hm : canonical x.mem) :
    Answers canonical (f x) := by
  simp only [State.ripeOwn, List.mem_append, List.mem_flatMap] at hf
  rcases hf with ⟨pn, -, hf⟩ | ⟨k, -, hf | hf⟩
  · split at hf
    · cases hf
    · obtain ⟨op, -, rfl⟩ := List.mem_map.mp hf
      exact scStep_canonical _ _ _ _ hm
  · obtain ⟨d, -, rfl⟩ := List.mem_map.mp hf
    exact execRefreshManagement_keeps _ _ _ _ hm
  · obtain ⟨b, -, rfl⟩ := List.mem_map.mp hf
    exact execBankBlockEnd_canonical _ _ _ _ hm

theorem defaultRun_canonical {s : State} (hm : canonical s.mem) : Answers canonical (defaultRun exec s) := by
  unfold defaultRun
  dsimp only
  split
  · rename_i o ho
    split at ho
    · obtain ⟨f, hf, hg⟩ := List.exists_of_findSome?_eq_some ho
      have ha : Answers canonical (f s) := by
        rcases List.mem_append.mp hf with hf | hf
        · obtain ⟨c, -, rfl⟩ := List.mem_map.mp hf
          exact runChoice_canonical c hm
        · exact ripeOwn_canonical s hf hm
      split at hg
      · rename_i e; cases hg; rw [e] at ha; exact ha
      · cases hg
      · cases hg
    · cases ho
  · split
    · exact runChoice_canonical _ hm
    · exact hm

theorem step_canonical {s : State} (hm : canonical s.mem) : Answers canonical (step s) := by
  have hk : canonical s.tickOn.mem := hm
  unfold step stepWith
  extract_lets s1
  split
  · exact execWarpAging_keeps _ _ hk
  · split
    · exact execWaittoTimeout_keeps _ _ _ hk
    · split
      · exact runChoice_canonical _ hk
      · exact defaultRun_canonical hk

/-! ### The opcodes of the words that name memory -/

/-- The opcode and the set bit of an L-set word whose fields fit their places. -/
theorem lWord_opcode (op : Nat) (g : BitVec 3) (d a low : Nat) (hop : op < 128) (hf : d * 2 ^ 14 + a * 2 ^ 7 + low < 2 ^ 21) :
    (lWord op g d a low).toNat / 2 ^ 24 % 128 = op ∧ (lWord op g d a low).getLsbD 31 = false := by
  have hg := g.isLt
  have hw : (lWord op g d a low).toNat = op * 2 ^ 24 + g.toNat * 2 ^ 21 + d * 2 ^ 14 + a * 2 ^ 7 + low := by
    rw [lWord, BitVec.toNat_ofNat]
    omega
  refine ⟨by omega, ?_⟩
  rw [BitVec.getLsbD, hw, Nat.testBit_eq_decide_div_mod_eq, decide_eq_false_iff_not]
  omega

theorem gWord_opcode (op : Nat) (q : BitVec 3) (fields : Nat) (hop : op < 128) (hf : fields < 2 ^ 21) :
    (gWord op q fields).toNat / 2 ^ 24 % 128 = op ∧ (gWord op q fields).getLsbD 31 = true := by
  have hg := q.isLt
  have hw : (gWord op q fields).toNat = 2 ^ 31 + op * 2 ^ 24 + q.toNat * 2 ^ 21 + fields := by
    rw [gWord, BitVec.toNat_ofNat]
    omega
  refine ⟨by omega, ?_⟩
  rw [BitVec.getLsbD, hw, Nat.testBit_eq_decide_div_mod_eq, decide_eq_true_iff]
  omega

/-- A word's opcode is one of those of the words that name main memory. -/
def opcodeNamesMemory (w : Word) : Prop :=
  let op := w.toNat / 2 ^ 24 % 128
  w.getLsbD 31 = false ∧ (0x52 ≤ op ∧ op < 0x5C ∨ 0x62 ≤ op ∧ op < 0x6D) ∨
    w.getLsbD 31 = true ∧ (op = 0x22 ∨ op = 0x23 ∨ op = 0x2D ∨ 0x30 ≤ op ∧ op < 0x5F)

theorem opcodeNamesMemory_lWord {op d a low : Nat} {g : BitVec 3} (hop : 0x52 ≤ op ∧ op < 0x5C ∨ 0x62 ≤ op ∧ op < 0x6D) (hd : d < 128)
    (ha : a < 128) (hl : low < 128) : opcodeNamesMemory (lWord op g d a low) := by
  obtain ⟨ho, hb⟩ := lWord_opcode op g d a low (by omega) (by omega)
  exact .inl ⟨hb, by omega⟩

theorem opcodeNamesMemory_gWord {op f : Nat} {q : BitVec 3} (hop : op = 0x22 ∨ op = 0x23 ∨ op = 0x2D ∨ 0x30 ≤ op ∧ op < 0x5F)
    (hf : f < 2 ^ 21) : opcodeNamesMemory (gWord op q f) := by
  obtain ⟨ho, hb⟩ := gWord_opcode op q f (by omega) hf
  exact .inr ⟨hb, by omega⟩

theorem src_code_lt (a : Src) : a.code < 128 := by
  cases a <;> simp only [Src.code] <;> omega

theorem dest_code_lt (d : Dest) : d.code < 128 := by
  cases d <;> simp only [Dest.code] <;> omega

theorem data_code_lt (d : Data) : d.code < 128 := by
  cases d <;> simp only [Data.code] <;> omega

theorem csrc_code_lt (b : CSrc) : b.code < 512 := by
  cases b <;> simp only [CSrc.code] <;> omega

theorem bitOf_lt (b : Bool) : bitOf b < 2 := by
  cases b <;> decide

theorem optBit_lt (b : Option (Fin 64)) : optBit b < 2 := by
  cases b <;> simp only [optBit] <;> omega

theorem optCode_lt (b : Option (Fin 64)) : optCode b < 64 := by
  cases b <;> simp only [optCode] <;> omega

/-- The low field of a global word: the base pair, two bits and what its kind has below them. -/
theorem globalLow_lt (bp : Fin 8) (x : BitVec 2) {k : Nat} (hk : k < 4) : bp.val * 16 + x.toNat * 4 + k < 128 := by
  omega

theorem saField_lt {o : Nat} (ho : o < 2) (scope : BitVec 2) (bp : Fin 8) : saField o scope bp < 64 := by
  unfold saField
  omega

theorem grFields_lt {sd sa sb x : Nat} (hd : sd < 64) (ha : sa < 64) (hb : sb < 64) (hx : x < 8) : grFields sd sa sb x < 2 ^ 21 := by
  unfold grFields
  omega

/-- The fields of a counter word, whose `sb` and `x` fields together hold its operand. -/
theorem grFields_counter_lt {sd sa x : Nat} (hd : sd < 64) (ha : sa < 64) (hx : x < 512) : grFields sd sa 0 x < 2 ^ 21 := by
  unfold grFields
  omega

/-- The first word of an instruction that names memory has an opcode of those words. -/
theorem opcodeNamesMemory_of_namesMemory {i : Instr} (hi : namesMemory i = true) : opcodeNamesMemory ((encode i).headD 0#32) := by
  unfold encode
  cases i with
  | ldg8 g d a bp x b | ldg16 g d a bp x b | ldg32 g d a bp x b =>
    have := bitOf_lt b
    exact opcodeNamesMemory_lWord (by decide) (dest_code_lt d) (src_code_lt a) (globalLow_lt bp x (by omega))
  | stg8 g d a bp x b | stg16 g d a bp x b | stg32 g d a bp x b | radd g d a bp x b | raddf g d a bp x b | rmax g d a bp x b =>
    have := bitOf_lt b
    exact opcodeNamesMemory_lWord (by decide) (data_code_lt d) (src_code_lt a) (globalLow_lt bp x (by omega))
  | ldg64 g d a bp x b | ldg128 g d a bp x b | stg64 g d a bp x b | stg128 g d a bp x b =>
    have := bitOf_lt b
    exact opcodeNamesMemory_lWord (by decide) (by omega) (src_code_lt a) (globalLow_lt bp x (by omega))
  | aadd g d a bp x y | aadd64 g d a bp x y | amin g d a bp x y | amax g d a bp x y | aand g d a bp x y | aor g d a bp x y
  | axchg g d a bp x y | acas g d a bp x y =>
    exact opcodeNamesMemory_lWord (by decide) (by omega) (src_code_lt a) (globalLow_lt bp x y.isLt)
  | jovl q bp b => exact opcodeNamesMemory_gWord (by decide) (grFields_lt (by omega) (by omega) (by omega) (by omega))
  | ovload q bp slot =>
    have := bitOf_lt slot
    exact opcodeNamesMemory_gWord (by decide) (grFields_lt (by omega) (by omega) (by omega) (by omega))
  | launch q bp | cfree q bp => exact opcodeNamesMemory_gWord (by decide) (grFields_lt (by omega) (by omega) (by omega) (by omega))
  | sld q d scope bp b ord | sld64 q d scope bp b ord | sst q d scope bp b ord | sst64 q d scope bp b ord =>
    have := bitOf_lt ord
    exact opcodeNamesMemory_gWord (by decide) (grFields_lt (by omega) (saField_lt (optBit_lt b) _ _) (optCode_lt b) (by omega))
  | saadd q d scope bp b order | sacas q d scope bp b order =>
    exact opcodeNamesMemory_gWord (by decide) (grFields_lt (by omega) (saField_lt (by omega) _ _) (by omega) (by omega))
  | pgreq q c r b => exact opcodeNamesMemory_gWord (by decide) (grFields_lt (by omega) (by omega) (by omega) (by omega))
  | cnew q d scope => exact opcodeNamesMemory_gWord (by decide) (grFields_lt (by omega) (saField_lt (by omega) _ _) (by omega) (by omega))
  | cread q d scope bp =>
    exact opcodeNamesMemory_gWord (by decide) (grFields_lt (by omega) (saField_lt (by omega) _ _) (by omega) (by omega))
  | cadd q scope bp b | caddr q scope bp b | waitge q scope bp b | waitto q t scope bp b =>
    exact opcodeNamesMemory_gWord (by decide) (grFields_counter_lt (by omega) (saField_lt (by omega) _ _) (csrc_code_lt b))
  | commit | txclose => exact opcodeNamesMemory_gWord (by decide) (by decide)
  | _ => exact Bool.noConfusion (hi : false = true)

/-! ### The obligations -/

/-- Settles O33: whatever a step does, it reaches memory by operations that keep its canonical form. -/
theorem everyStepKeepsMemoryCanonical : Obligations.EveryStepKeepsMemoryCanonical := by
  unfold Obligations.EveryStepKeepsMemoryCanonical
  intro s t hs ht
  exact (wf_iff_canonical t).mpr ((step_canonical ((wf_iff_canonical s).mp hs)).of_next ht)

/-- Settles O30: the opcodes it names are those of words that keep whatever holds of memory, so also that it is as it was. -/
theorem wordsWithoutMemoryLeaveIt : Obligations.WordsWithoutMemoryLeaveIt := by
  unfold Obligations.WordsWithoutMemoryLeaveIt
  intro i w r s t hw op hop ht
  have hi : namesMemory i = false := by
    rw [Bool.eq_false_iff]
    intro hi
    have ho : opcodeNamesMemory w := by
      have h := opcodeNamesMemory_of_namesMemory hi
      rwa [hw] at h
    rcases ho with ⟨hb, ho⟩ | ⟨hb, ho⟩ <;> rcases hop with ⟨hc, hop⟩ | ⟨hc, hop⟩
    · exact absurd hop (by omega)
    · exact Bool.noConfusion (hb.symm.trans hc)
    · exact Bool.noConfusion (hb.symm.trans hc)
    · exact absurd hop (by omega)
  have he : encode i ≠ [] := hw ▸ List.cons_ne_nil _ _
  have hk : Answers (· = s.mem) (exec i s) := exec_keeps_of_namesMemory_false he hi rfl
  exact hk.of_next ht

end Sys2Proof.Machine
end

section
/-!
PROOFS. What a word's body finds past the word, and what it leaves where it changes, aborts or traps no lane.
-/

namespace Sys2Proof.Machine

/-! ### The state past the word -/

/-- The issuing unit past the word, as a word's body reads it. -/
theorem stands_issuer (s : State) : s.stands.unit s.stands.cur.u = s.past := stands_unit s

theorem stands_badTarget (s : State) (t : Word) : s.stands.badTarget t = (s.ovl s.issuer s.cur.slot).outside t := by
  unfold State.badTarget
  rw [stands_issuer]
  rfl

theorem stays_of_inOverlay {s : State} {t : Word} (h : s.inOverlay t = true) : ¬ s.stands.badTarget t = true := by
  rw [stands_badTarget]
  simpa [State.inOverlay] using h

theorem leaves_of_not_inOverlay {s : State} {t : Word} (h : s.inOverlay t = false) : s.stands.badTarget t = true := by
  rw [stands_badTarget]
  simpa [State.inOverlay] using h

theorem stands_retHere (s : State) :
    s.stands.retHere = { off := s.cur.next, slot := s.cur.slot, tag := (s.ovl s.issuer s.cur.slot).tag } := by
  unfold State.retHere
  rw [stands_issuer]
  rfl

/-- A word's body changes the threads of its unit. -/
theorem modLanes_stands (s : State) (m : Word) (f : Nat → Thread → Thread) :
    s.stands.modLanes s.cur.u m f = s.issued.setUnit s.cur.u (s.past.mapLanes m f) := by
  unfold State.modLanes State.modUnit
  rw [stands_unit]
  exact setUnit_setUnit _ _ _ _

/-- A word's body changes the uniform state of its unit. -/
theorem modUni_stands (s : State) (f : Uni → Uni) :
    s.stands.modUni s.cur.u f = s.issued.setUnit s.cur.u { s.past with u := f s.issuer.u } := by
  unfold State.modUni State.modUnit
  rw [stands_unit]
  exact setUnit_setUnit _ _ _ _

theorem modLanes_modUni_stands (s : State) (m : Word) (fu : Uni → Uni) (f : Nat → Thread → Thread) :
    (s.stands.modUni s.cur.u fu).modLanes s.cur.u m f =
      s.issued.setUnit s.cur.u (({ s.past with u := fu s.issuer.u } : Warp).mapLanes m f) := by
  rw [modUni_stands]
  unfold State.modLanes State.modUnit
  rw [unit_setUnit_self, setUnit_setUnit]

/-! ### Lane masks -/

theorem lanesOf_zero : lanesOf 0#32 = [] := by decide

theorem mapLanes_zero (w : Warp) (f : Nat → Thread → Thread) : w.mapLanes 0#32 f = w := by
  simp only [Warp.mapLanes, lanesOf_zero, List.foldl_nil]

theorem lanesWhere_zero (w : Warp) (f : Thread → Bool) : w.lanesWhere 0#32 f = 0#32 := by
  rw [lanesWhere_eq_zero, lanesOf_zero]
  exact fun l hl => absurd hl List.not_mem_nil

theorem and_not_zero (m : Word) : m &&& ~~~(0#32) = m := BitVec.and_allOnes

theorem lanesWhere_ne_zero (w : Warp) (m : Word) (f : Thread → Bool) :
    w.lanesWhere m f ≠ 0#32 ↔ (lanesOf m).any (fun l => f (w.lane l)) = true := by
  simp [lanesWhere_eq_zero, List.any_eq_true]

/-- The lanes of a mask that fail a test. -/
theorem lanesOf_and_not_lanesWhere (w : Warp) (m : Word) (f : Thread → Bool) :
    lanesOf (m &&& ~~~(w.lanesWhere m f)) = (lanesOf m).filter fun l => !(f (w.lane l)) := by
  simp only [lanesOf, List.filter_filter]
  refine List.filter_congr fun l hl => ?_
  have h32 : l < 32 := List.mem_range.mp hl
  simp only [BitVec.getLsbD_and, BitVec.getLsbD_not, getLsbD_lanesWhere, h32, decide_true, Bool.true_and]
  cases m.getLsbD l <;> cases f (w.lane l) <;> rfl

/-! ### Changes, aborts and traps of no lane -/

theorem modLanes_stands_zero (s : State) (f : Nat → Thread → Thread) : s.stands.modLanes s.cur.u 0#32 f = s.stands := by
  rw [modLanes_stands, mapLanes_zero]
  rfl

theorem releaseToken_zero (s : State) (u : Nat) : s.releaseToken u 0#32 = s := if_pos rfl

theorem abortLanesBy_zero (s : State) (u code : Nat) (xcode : Nat → Nat) : s.abortLanesBy u 0#32 code xcode = s := by
  simp only [State.abortLanesBy, State.abortBare, lanesWhere_zero, if_true, releaseToken_zero]

theorem abortLanes_zero (s : State) (u code xcode : Nat) : s.abortLanes u 0#32 code xcode = s :=
  abortLanesBy_zero s u code _

theorem raiseLanes_zero (s : State) (u : Nat) (tpc : Word) (q : List Entry) (r : Nat → TrapRec) :
    s.raiseLanes u 0#32 tpc q r = s := by
  simp only [State.raiseLanes, lanesWhere_zero, abortLanes_zero, and_not_zero, lanesOf_zero, List.foldl_nil]

/-! ### Older words in flight (R288) -/

/-- A change of threads that neither adds nor finishes an L-set word leaves what is in flight. -/
theorem busy_mapLanes (w : Warp) (m k : Word) (f : Nat → Thread → Thread)
    (hf : ∀ l t, (f l t).flights.isEmpty = t.flights.isEmpty) : (w.mapLanes m f).busy k = w.busy k := by
  unfold Warp.busy
  refine congrArg _ (funext fun l => ?_)
  rw [lane_mapLanes]
  split
  · rw [hf]
  · rfl

theorem busy_zero (w : Warp) : w.busy 0#32 = false := by
  simp only [Warp.busy, lanesOf_zero, List.any_nil]

theorem busy_past (s : State) (m : Word) : s.past.busy m = s.joined.busy m :=
  busy_mapLanes _ _ _ _ fun _ _ => rfl

end Sys2Proof.Machine
end

section
/-!
PROOFS. Branches, calls, returns and loops of the whole group (R13, R50, R159, R160, R287).
-/

namespace Sys2Proof.Machine

/-! ### G-set words that act in every region -/

section
variable {q : BitVec 3} {s : State}

theorem uniReady_replay (h : uniReady q s = true) : s.cur.replay = none := by
  simp only [uniReady, State.fresh, Bool.and_eq_true] at h
  exact Option.isNone_iff_eq_none.mp h.1.2

/-- A ready word that acts on both units and in every region, and does not wait for older words. -/
theorem issueG_acts_done {body : State → GRes} {t : State} (h : uniReady q s = true) (hb : body s.stands = .done t) :
    issueG q true .both .acts .acts false body s = .next t := by
  rw [issueG_ready q true .both .acts .acts false body s h rfl rfl (fun _ _ => regCode_acts _) Bool.noConfusion, hb]

/-- A trap of the whole group at the word, once its older words have finished (R287, R288). -/
theorem issueG_acts_trapWord {body : State → GRes} {cause : Nat} {taddr : DWord} (h : uniReady q s = true) (hq : s.quiet = true)
    (hb : body s.stands = trapWord s.stands cause taddr) :
    issueG q true .both .acts .acts false body s =
      .next (s.stands.raiseLanes s.cur.u s.cur.members s.cur.pc [] fun _ => trapRec cause taddr) := by
  have hbusy : s.past.busy s.cur.members = false := by
    rw [busy_past]
    simpa [State.quiet] using hq
  have hrep : s.stands.cur.replay.toList = [] := congrArg Option.toList (uniReady_replay h)
  rw [issueG_ready q true .both .acts .acts false body s h rfl rfl (fun _ _ => regCode_acts _) Bool.noConfusion, hb]
  unfold trapWord raiseGroup
  simp only [stands_unit, hbusy, hrep, Bool.false_eq_true, if_false]
  rfl

/-- How a word that changes the uniform state and every member is shown to complete. -/
theorem groupDone_of {i : Instr} {fu : Uni → Uni} {f : Nat → Thread → Thread}
    (he : exec i s = .next ((s.stands.modUni s.cur.u fu).modLanes s.cur.u s.cur.members f)) : GroupDone i s fu f := by
  refine ⟨_, he.trans (congrArg _ (modLanes_modUni_stands s _ fu f)), rfl, fun l => ?_⟩
  have hlane : ({ s.past with u := fu s.issuer.u } : Warp).lane l = s.past.lane l := rfl
  rw [lane_mapLanes, hlane]
  split
  · rfl
  · rw [lane_past, if_neg ‹_›]

/-- The same for a word that leaves the uniform state. -/
theorem groupDone_of_modLanes {i : Instr} {f : Nat → Thread → Thread}
    (he : exec i s = .next (s.stands.modLanes s.cur.u s.cur.members f)) : GroupDone i s id f := by
  refine groupDone_of (he.trans (congrArg _ ?_))
  rw [modLanes_stands, modLanes_modUni_stands]
  rfl

end

/-! ### The members that would trap -/

/-- Some member's call stack is full. -/
theorem fullStack_iff (s : State) :
    (s.stands.unit s.stands.cur.u).lanesWhere s.stands.cur.members (fun x => decide (8 ≤ x.stack.length)) ≠ 0#32 ↔
      (lanesOf s.cur.members).any (fun l => decide (8 ≤ (s.past.lane l).stack.length)) = true := by
  rw [stands_issuer]
  exact lanesWhere_ne_zero _ _ _

/-- Some member that does not pop below its region's depth has an empty call stack. -/
theorem emptyStack_iff (s : State) :
    s.past.lanesWhere (s.cur.members &&& ~~~(s.past.lanesWhere s.cur.members Thread.popsBelow)) (fun x => x.stack.isEmpty) ≠ 0#32 ↔
      (lanesOf s.cur.members).any (fun l => !((s.past.lane l).popsBelow) && (s.past.lane l).stack.isEmpty) = true := by
  rw [lanesWhere_ne_zero, lanesOf_and_not_lanesWhere, List.any_filter]

/-- The count that LOOP leaves (R13). -/
theorem loopCount_stands (s : State) (d : Fin 64) :
    (s.stands.unit s.stands.cur.u).u.getS d.val - 1#32 = s.issuer.u.getS d.val - 1#32 := by
  rw [stands_issuer, past_u]

/-! ### What the words come to when ready -/

section
variable {q : BitVec 3} {s : State} (h : uniReady q s = true)
include h

/-- JMP inside the overlay (R159). -/
theorem jmp_done {off : BitVec 21} (ht : s.inOverlay (s.cur.next + off.signExtend 32 * 4#32) = true) :
    GroupDone (.jmp q off) s id fun _ t => ({ t with pc := s.cur.next + off.signExtend 32 * 4#32 } : Thread).dropLatches := by
  refine groupDone_of_modLanes ?_
  rw [exec_jmp, execJmp]
  exact issueG_acts_done h (if_neg (stays_of_inOverlay ht))

theorem jmp_traps {off : BitVec 21} (hq : s.quiet = true) (ht : s.inOverlay (s.cur.next + off.signExtend 32 * 4#32) = false) :
    exec (.jmp q off) s = .next (s.stands.raiseLanes s.cur.u s.cur.members s.cur.pc [] fun _ => trapRec 0x10 0#64) := by
  rw [exec_jmp, execJmp]
  exact issueG_acts_trapWord h hq (if_pos (leaves_of_not_inOverlay ht))

/-- SCALL with room on every member's call stack (R160). -/
theorem scall_done {off : BitVec 21} (ht : s.inOverlay (s.cur.next + off.signExtend 32 * 4#32) = true)
    (hs : (lanesOf s.cur.members).all (fun l => decide ((s.past.lane l).stack.length < 8)) = true) :
    GroupDone (.scall q off) s id fun _ t =>
      { t with
        stack := { off := s.cur.next, slot := s.cur.slot, tag := (s.ovl s.issuer s.cur.slot).tag } :: t.stack
        pc := s.cur.next + off.signExtend 32 * 4#32 } := by
  have hroom : ¬ (lanesOf s.cur.members).any (fun l => decide (8 ≤ (s.past.lane l).stack.length)) = true := by
    simpa using hs
  refine groupDone_of_modLanes ?_
  rw [exec_scall, execScall, ← stands_retHere]
  exact issueG_acts_done h ((if_neg (stays_of_inOverlay ht)).trans (if_neg (mt (fullStack_iff s).mp hroom)))

theorem scall_traps_target {off : BitVec 21} (hq : s.quiet = true)
    (ht : s.inOverlay (s.cur.next + off.signExtend 32 * 4#32) = false) :
    exec (.scall q off) s = .next (s.stands.raiseLanes s.cur.u s.cur.members s.cur.pc [] fun _ => trapRec 0x10 0#64) := by
  rw [exec_scall, execScall]
  exact issueG_acts_trapWord h hq (if_pos (leaves_of_not_inOverlay ht))

theorem scall_traps_full {off : BitVec 21} (hq : s.quiet = true)
    (ht : s.inOverlay (s.cur.next + off.signExtend 32 * 4#32) = true)
    (hs : (lanesOf s.cur.members).any (fun l => decide (8 ≤ (s.past.lane l).stack.length)) = true) :
    exec (.scall q off) s = .next (s.stands.raiseLanes s.cur.u s.cur.members s.cur.pc [] fun _ => trapRec 0x0B 0#64) := by
  rw [exec_scall, execScall]
  exact issueG_acts_trapWord h hq ((if_neg (stays_of_inOverlay ht)).trans (if_pos ((fullStack_iff s).mpr hs)))

/-- LOOP whose count ends (R13). -/
theorem loop_done {d : Fin 64} {o : BitVec 15} (hx : s.issuer.u.getS d.val - 1#32 = 0#32) :
    UniDone (.loop q d o) s fun u => u.setS d.val 0#32 := by
  have hx' := (loopCount_stands s d).trans hx
  unfold UniDone
  rw [exec_loop, execLoop, ← modUni_stands s fun u => u.setS d.val 0#32]
  refine issueG_acts_done h ((if_pos hx').trans ?_)
  simp only [hx']
  rfl

/-- LOOP that goes on, inside the overlay (R13). -/
theorem loop_branches {d : Fin 64} {o : BitVec 15} (hx : s.issuer.u.getS d.val - 1#32 ≠ 0#32)
    (ht : s.inOverlay (s.cur.next + o.signExtend 32 * 4#32) = true) :
    GroupDone (.loop q d o) s (fun u => u.setS d.val (s.issuer.u.getS d.val - 1#32)) fun _ t =>
      ({ t with pc := s.cur.next + o.signExtend 32 * 4#32 } : Thread).dropLatches := by
  rw [← loopCount_stands] at hx ⊢
  refine groupDone_of ?_
  rw [exec_loop, execLoop]
  exact issueG_acts_done h ((if_neg hx).trans (if_neg (stays_of_inOverlay ht)))

theorem loop_traps {d : Fin 64} {o : BitVec 15} (hq : s.quiet = true) (hx : s.issuer.u.getS d.val - 1#32 ≠ 0#32)
    (ht : s.inOverlay (s.cur.next + o.signExtend 32 * 4#32) = false) :
    exec (.loop q d o) s = .next (s.stands.raiseLanes s.cur.u s.cur.members s.cur.pc [] fun _ => trapRec 0x10 0#64) := by
  rw [← loopCount_stands] at hx
  rw [exec_loop, execLoop]
  exact issueG_acts_trapWord h hq ((if_neg hx).trans (if_pos (leaves_of_not_inOverlay ht)))

/-- SRET where every member has an entry to pop and none pops below its region's depth (R160). -/
theorem sret_done
    (hs : (lanesOf s.cur.members).all (fun l => !((s.past.lane l).popsBelow) && !((s.past.lane l).stack.isEmpty)) = true) :
    GroupDone (.sret q) s id fun _ t => t.pop fun k => (s.ovl s.issuer k).tag := by
  simp only [List.all_eq_true, Bool.and_eq_true, Bool.not_eq_true'] at hs
  have hbelow : s.past.lanesWhere s.stands.cur.members Thread.popsBelow = 0#32 :=
    (lanesWhere_eq_zero _ _ _).mpr fun l hl => (hs l hl).1
  have hempty : s.past.lanesWhere s.stands.cur.members (fun x => x.stack.isEmpty) = 0#32 :=
    (lanesWhere_eq_zero _ _ _).mpr fun l hl => (hs l hl).2
  refine groupDone_of_modLanes ?_
  rw [exec_sret, execSret]
  refine issueG_acts_done h ?_
  simp only [stands_issuer, hbelow, and_not_zero, abortLanes_zero]
  exact if_neg fun hne => hne hempty

theorem sret_traps (hq : s.quiet = true)
    (hs : (lanesOf s.cur.members).any (fun l => !((s.past.lane l).popsBelow) && (s.past.lane l).stack.isEmpty) = true) :
    exec (.sret q) s = .next (s.stands.raiseLanes s.cur.u s.cur.members s.cur.pc [] fun _ => trapRec 0x0B 0#64) := by
  have hempty := (emptyStack_iff s).mpr hs
  rw [exec_sret, execSret]
  refine issueG_acts_trapWord h hq (if_pos ?_)
  rw [stands_issuer]
  exact hempty

end

/-- Settles O10, word by word. -/
theorem uniformBranchesGoOrTrap : Obligations.UniformBranchesGoOrTrap := by
  unfold Obligations.UniformBranchesGoOrTrap
  refine ⟨fun q off o d s h => ⟨fun ht => ⟨jmp_done h ht, scall_done h ht⟩, loop_done h, loop_branches h, sret_done h⟩,
    fun q off o d s h hq => ⟨fun ht => ⟨jmp_traps h hq ht, scall_traps_target h hq ht⟩, loop_traps h hq, scall_traps_full h hq,
      sret_traps h hq⟩⟩

end Sys2Proof.Machine
end

section
/-!
PROOFS. Accumulator moves, branches, calls and returns of lanes, and the per-lane trap and rollback (R11, R50, R138, R160, R204, R240,
R260 to R263, R288).
-/

namespace Sys2Proof.Machine

/-! ### Aborts keep what is issued and in flight -/

theorem foldl_setV_flights (ls : List Nat) (n : Nat → Nat) (x : Thread → Nat → Word) (t : Thread) :
    (ls.foldl (fun t i => t.setV (n i) (x t i)) t).flights = t.flights := by
  induction ls generalizing t with
  | nil => rfl
  | cons a r ih => exact ih _

/-- An abort leaves the words that a thread has in flight: they only lose their latches (R244). -/
theorem abort_flights_isEmpty (t : Thread) (code xcode : Nat) : (t.abort code xcode).flights.isEmpty = t.flights.isEmpty := by
  unfold Thread.abort
  split
  · rfl
  · exact List.isEmpty_map.trans (congrArg _ (foldl_setV_flights _ _ (fun t i => t.getV _) t))
  · exact List.isEmpty_map

theorem busy_abortBare (s : State) (u : Nat) (m k : Word) (code : Nat) (xcode : Nat → Nat) :
    ((s.abortBare u m code xcode).unit u).busy k = (s.unit u).busy k := by
  unfold State.abortBare
  dsimp only
  split
  · rfl
  · rw [unit_setUnit_self]
    exact busy_mapLanes _ _ _ _ fun l t => abort_flights_isEmpty t code (xcode l)

@[simp] theorem abortBare_cur (s : State) (u : Nat) (m : Word) (code : Nat) (xcode : Nat → Nat) :
    (s.abortBare u m code xcode).cur = s.cur := by
  unfold State.abortBare
  dsimp only
  split <;> rfl

theorem foldl_dropToken_units (ls : List Nat) (s : State) (pn u : Nat) :
    (ls.foldl (fun s l => s.dropToken pn u l) s).units = s.units := by
  induction ls generalizing s with
  | nil => rfl
  | cons a r ih => exact ih _

theorem foldl_dropToken_cur (ls : List Nat) (s : State) (pn u : Nat) :
    (ls.foldl (fun s l => s.dropToken pn u l) s).cur = s.cur := by
  induction ls generalizing s with
  | nil => rfl
  | cons a r ih => exact ih _

/-- Passing the serial token on leaves every unit, but for the abort that a waiting user interrupt then makes (R248). -/
theorem busy_releaseToken (s : State) (u : Nat) (ser k : Word) : ((s.releaseToken u ser).unit u).busy k = (s.unit u).busy k := by
  have hd : (((lanesOf ser).foldl (fun x l => x.dropToken (s.unit u).part u l) s).unit u).busy k = (s.unit u).busy k :=
    congrArg (fun us => (Tab.get Warp.init us u).busy k) (foldl_dropToken_units ..)
  unfold State.releaseToken
  split
  · rfl
  · dsimp only
    split
    · split
      · rw [busy_abortBare]
        rw [State.modUni, unit_modUnit, if_pos rfl]
        exact hd
      · exact hd
    · exact hd

theorem releaseToken_cur (s : State) (u : Nat) (ser : Word) : (s.releaseToken u ser).cur = s.cur := by
  have hd := foldl_dropToken_cur (lanesOf ser) s (s.unit u).part u
  unfold State.releaseToken
  split
  · rfl
  · dsimp only
    split
    · split
      · rw [abortBare_cur]
        exact hd
      · exact hd
    · exact hd

theorem busy_abortLanes (s : State) (u : Nat) (m k : Word) (code xcode : Nat) :
    ((s.abortLanes u m code xcode).unit u).busy k = (s.unit u).busy k :=
  (busy_releaseToken ..).trans (busy_abortBare ..)

theorem abortLanes_cur (s : State) (u : Nat) (m : Word) (code xcode : Nat) : (s.abortLanes u m code xcode).cur = s.cur :=
  (releaseToken_cur ..).trans (abortBare_cur ..)

/-! ### Lanes that split -/

/-- The lanes that trap have finished their older words: they trap, and the others go on (R288). -/
theorem splitLanes_of_quiet {s0 s : State} {bad : Word} (act tpc : Word) (r : Nat → TrapRec) (f : Nat → Thread → Thread)
    (hrep : s.cur.replay = none) (hb : (s.unit s.cur.u).busy bad = false) :
    splitLanes s0 s act bad tpc r f = .next ((s.modLanes s.cur.u (act &&& ~~~bad) f).raiseLanes s.cur.u bad tpc [] r) := by
  simp only [splitLanes, hb, hrep, Bool.false_eq_true, if_false, Option.toList_none]

/-- No lane traps. -/
theorem splitLanes_zero {s0 s : State} (act tpc : Word) (r : Nat → TrapRec) (f : Nat → Thread → Thread) (hrep : s.cur.replay = none) :
    splitLanes s0 s act 0#32 tpc r f = .next (s.modLanes s.cur.u act f) := by
  rw [splitLanes_of_quiet act tpc r f hrep (busy_zero _), and_not_zero, raiseLanes_zero]

/-! ### L-set words that are ready -/

section
variable {g : BitVec 3} {wf : Bool} {regs lat : List Nat} {s : State}

/-- A ready word issues from its place: its body runs on no queue entry. -/
theorem stands_replay (h : laneReady g wf regs lat s = true) : s.stands.cur.replay = none := laneReady_replay h

theorem getLsbD_actMask (l : Nat) : (s.actMask g).getLsbD l = s.acts g l := getLsbD_lanesWhere _ _ _ _

/-- A ready word that acts in some lane. -/
theorem issueL_acts (body : State → Word → Out State) (h : laneReady g wf regs lat s = true) (ha : s.actMask g ≠ 0#32) :
    issueL g wf regs lat body s = body s.stands (s.actMask g) := by
  rw [issueL_ready g wf regs lat body s h, if_neg ha]

/-- A word whose body, once its checks are passed, is one of the arithmetic chapter. -/
theorem laneDone_of_body {i : Instr} {body : State → Word → Out State} {f h : LaneFn} (hr : laneReady g wf regs lat s = true)
    (he : exec i s = issueL g wf regs lat body s) (hb : body s.stands (s.actMask g) = laneBody f s.stands (s.actMask g))
    (hf : ∀ l, f s.issued.cur s.past l (s.past.lane l) = h s.issued.cur s.past l (s.past.lane l)) : LaneDone i g s h := by
  refine laneDone_of hr (he.trans ?_) hf
  rw [issueL_ready g wf regs lat body s hr, issueL_ready g wf regs lat (laneBody f) s hr, hb]

/-- A word that raises no flag in any lane. -/
theorem laneFlags_of_none (f : Nat → Thread → Thread) : laneFlags g s (fun _ _ l t => (f l t, 0#32)) = 0#32 := by
  simp only [laneFlags, BitVec.or_zero]
  induction lanesOf (s.actMask g) with
  | nil => rfl
  | cons l r ih => exact ih

/-- A word that changes the threads of the lanes in which it acts, and raises no flag. -/
theorem laneDone_of_modLanes {i : Instr} {body : State → Word → Out State} {f : Nat → Thread → Thread}
    (hr : laneReady g wf regs lat s = true) (he : exec i s = issueL g wf regs lat body s)
    (hb : body s.stands (s.actMask g) = .next (s.stands.modLanes s.cur.u (s.actMask g) f)) :
    LaneDone i g s fun _ _ l t => (f l t, 0#32) := by
  have hnext : issueL g wf regs lat body s = .next (s.stands.modLanes s.cur.u (s.actMask g) f) := by
    rw [issueL_ready g wf regs lat body s hr, hb]
    split
    · rename_i h0
      rw [h0, modLanes_stands_zero]
    · rfl
  refine ⟨_, he.trans hnext, _, modLanes_stands s _ f, ?_, fun l => ?_⟩
  · simp only [laneFlags_of_none, Uni.raise, BitVec.or_zero]
    rfl
  · rw [lane_mapLanes, getLsbD_actMask]

end

/-! ### Accumulators (R138, R260) -/

/-- A place in the bound quad is one of four (R136). -/
theorem lt_of_quadPlace {s : State} {w : Warp} {q : Nat} (h : s.quadPlace w = some q) : q < 4 := by
  unfold State.quadPlace at h
  split at h
  · split at h
    · rename_i hk
      have hq := Option.some.inj h
      omega
    · exact absurd h (by simp)
  · exact absurd h (by simp)

/-- The keys of the elements of two accumulators of 128 rows and 192 columns are distinct. -/
theorem accKey_inj {n n' : Bool} {row row' col col' : Nat} (hr : row < 128) (hr' : row' < 128) (hc : col < 192) (hc' : col' < 192) :
    accKey n row col = accKey n' row' col' ↔ n = n' ∧ row = row' ∧ col = col' := by
  unfold accKey
  cases n <;> cases n' <;> simp <;> omega

/-- Writes of which no two disagree on a key. -/
theorem get_foldl_set {β : Type} [DecidableEq β] (d : β) (cells : List (Nat × β)) (t : Tab β) (k : Nat) (v : β)
    (h : ∀ p ∈ cells, p.1 = k → p.2 = v) :
    Tab.get d (cells.foldl (fun t p => Tab.set d t p.1 p.2) t) k = if k ∈ cells.map Prod.fst then v else Tab.get d t k := by
  induction cells generalizing t with
  | nil => simp
  | cons a r ih =>
    rw [List.foldl_cons, ih _ fun p hp => h p (List.mem_cons_of_mem _ hp), Tab.get_set]
    have ha := h a List.mem_cons_self
    by_cases hk : k = a.1
    · simp [hk, ha hk.symm]
    · simp only [List.map_cons, List.mem_cons, hk, false_or, if_false]

/-- The elements that an ACCW writes, with their data: in each lane eight registers from v(d) on (R260). -/
def accwCells (w : Warp) (act : Word) (d : Nat) (acc : Bool) (q cb : Nat) : List (Nat × Word) :=
  (lanesOf act).flatMap fun l => (List.range 8).map fun e => (accKey acc (32 * q + l) (8 * cb + e), (w.lane l).getV (d + e))

section
variable {w : Warp} {act : Word} {d cb q row col : Nat} {n acc : Bool} (hq : q < 4) (hcb : cb < 24) (hr : row < 128) (hc : col < 192)
include hq hcb hr hc

/-- What an ACCW writes to an element. -/
theorem of_mem_accwCells {p : Nat × Word} (hp : p ∈ accwCells w act d acc q cb) (hk : p.1 = accKey n row col) :
    (n = acc ∧ row / 32 = q ∧ act.getLsbD (row % 32) = true ∧ col / 8 = cb) ∧ p.2 = (w.lane (row % 32)).getV (d + col % 8) := by
  simp only [accwCells, List.mem_flatMap, List.mem_map, List.mem_range] at hp
  obtain ⟨l, hl, e, he, rfl⟩ := hp
  have hl32 := lanesOf_lt _ _ hl
  obtain ⟨rfl, rfl, rfl⟩ := (accKey_inj (by omega) hr (by omega) hc).mp hk
  have hrow : (32 * q + l) % 32 = l := by omega
  have hcol : (8 * cb + e) % 8 = e := by omega
  rw [hrow, hcol]
  exact ⟨⟨rfl, by omega, (mem_lanesOf _ _).mp hl, by omega⟩, rfl⟩

/-- The elements that an ACCW writes. -/
theorem accKey_mem_accwCells :
    accKey n row col ∈ (accwCells w act d acc q cb).map Prod.fst ↔
      n = acc ∧ row / 32 = q ∧ act.getLsbD (row % 32) = true ∧ col / 8 = cb := by
  constructor
  · intro h
    obtain ⟨p, hp, hk⟩ := List.mem_map.mp h
    exact (of_mem_accwCells hq hcb hr hc hp hk).1
  · rintro ⟨rfl, rfl, hl, rfl⟩
    refine List.mem_map.mpr ⟨(accKey n (32 * (row / 32) + row % 32) (8 * (col / 8) + col % 8),
      (w.lane (row % 32)).getV (d + col % 8)), ?_, ?_⟩
    · exact List.mem_flatMap.mpr ⟨row % 32, (mem_lanesOf _ _).mpr hl,
        List.mem_map.mpr ⟨col % 8, List.mem_range.mpr (by omega), rfl⟩⟩
    · rw [Nat.div_add_mod, Nat.div_add_mod]

/-- An accumulator after the writes of an ACCW (R260). -/
theorem get_accwCells (t : Tab Word) :
    Tab.get 0#32 ((accwCells w act d acc q cb).foldl (fun t p => Tab.set 0#32 t p.1 p.2) t) (accKey n row col) =
      if n = acc ∧ row / 32 = q ∧ act.getLsbD (row % 32) = true ∧ col / 8 = cb then (w.lane (row % 32)).getV (d + col % 8)
      else Tab.get 0#32 t (accKey n row col) := by
  rw [get_foldl_set _ _ _ _ _ fun p hp hk => (of_mem_accwCells hq hcb hr hc hp hk).2]
  simp only [accKey_mem_accwCells hq hcb hr hc]

end

section
variable {s : State} {q : Nat} {acc : Bool} (hq : s.quadPlace s.issuer = some q) (hi : (s.core s.issuer.coreKey).idle acc = true)
include hq hi

/-- In the bound quad, with the accumulator idle, an accumulator move does its work. -/
theorem accBody_ready (f : State → Nat → Word → Out State) (act : Word) : accBody acc f s s.stands act = f s.stands q act := by
  have hq' : s.stands.quadPlace s.past = some q := hq
  have hi' : (s.stands.core s.past.coreKey).idle acc = true := hi
  unfold accBody
  simp only [stands_issuer, hq', hi', if_true]

/-- DRAIN (R260). -/
theorem drain_done {g : BitVec 3} {d : Fin 113} {cb : Fin 24} (hr : laneReady g true (regSpan d.val 8) [] s = true) :
    LaneDone (.drain g d acc cb) g s fun _ _ l t =>
      (((List.range 8).foldl (fun t e => t.setV (d.val + e)
        (Tab.get 0#32 (s.core s.issuer.coreKey).acc (accKey acc (32 * q + l) (8 * cb.val + e)))) t).dropLatches, 0#32) := by
  refine laneDone_of_body hr ((exec_drain ..).trans (by rw [execDrain])) (accBody_ready hq hi _ _) fun l => ?_
  simp only [laneReady_replay hr, stands_issuer]
  rfl

/-- ACCW (R260): what it leaves. -/
theorem exec_accw_of {g : BitVec 3} {d : Fin 113} {cb : Fin 24} (hr : laneReady g true (regSpan d.val 8) [] s = true)
    (ha : s.actMask g ≠ 0#32) :
    exec (.accw g d acc cb) s = .next (s.stands.modCore s.issuer.coreKey fun c =>
      { c with acc := (accwCells s.past (s.actMask g) d.val acc q cb.val).foldl (fun t p => Tab.set 0#32 t p.1 p.2) c.acc }) := by
  have hrep := stands_replay hr
  rw [exec_accw, execAccw, issueL_acts _ hr ha, accBody_ready hq hi]
  simp only [stands_issuer, accwData, opD, hrep]
  rfl

/-- ACCW (R260): every element of every accumulator afterwards, and nothing else changed. -/
theorem accw_done {g : BitVec 3} {d : Fin 113} {cb : Fin 24} (hr : laneReady g true (regSpan d.val 8) [] s = true)
    (ha : s.actMask g ≠ 0#32) :
    ∃ t, exec (.accw g d acc cb) s = .next t ∧ t.mem = s.mem ∧ t.units = s.stands.units ∧
      (∀ k, k ≠ s.issuer.coreKey → t.core k = s.core k) ∧
      ∀ n row col, row < 128 → col < 192 →
        Tab.get 0#32 (t.core s.issuer.coreKey).acc (accKey n row col) =
          if n = acc ∧ row / 32 = q ∧ s.acts g (row % 32) = true ∧ col / 8 = cb.val then (s.past.lane (row % 32)).getV (d.val + col % 8)
          else Tab.get 0#32 (s.core s.issuer.coreKey).acc (accKey n row col) := by
  refine ⟨_, exec_accw_of hq hi hr ha, rfl, rfl, fun k hk => ?_, fun n row col hrow hcol => ?_⟩
  · rw [core_modCore, if_neg hk]
    rfl
  · rw [core_modCore, if_pos rfl, ← getLsbD_actMask]
    exact get_accwCells (lt_of_quadPlace hq) cb.isLt hrow hcol _

end

/-! ### Branches and calls (R261) -/

section
variable {g : BitVec 3} {s : State}

/-- No acting lane meets a test. -/
theorem lanesWhere_actMask_eq_zero {f : Thread → Bool} (h : ∀ l, s.acts g l = true → f (s.past.lane l) = false) :
    s.past.lanesWhere (s.actMask g) f = 0#32 :=
  (lanesWhere_eq_zero _ _ _).mpr fun l hl => h l ((getLsbD_actMask l).symm.trans ((mem_lanesOf _ _).mp hl))

section
variable (hr : laneReady g true [] [] s = true)
include hr

/-- BRA inside the overlay. -/
theorem bra_done {off : BitVec 21} (ht : (s.ovl s.issuer s.cur.slot).outside (s.cur.next + off.signExtend 32 * 4#32) = false) :
    LaneDone (.bra g off) g s fun _ _ _ t =>
      (({ t with pc := s.cur.next + off.signExtend 32 * 4#32 } : Thread).dropLatches, 0#32) := by
  rw [← stands_badTarget] at ht
  exact laneDone_of_body hr ((exec_bra ..).trans (by rw [execBra])) (if_neg (Bool.eq_false_iff.mp ht)) fun l => rfl

/-- CALL inside the overlay, with room on the call stack of every acting lane. -/
theorem call_done {off : BitVec 21} (ht : (s.ovl s.issuer s.cur.slot).outside (s.cur.next + off.signExtend 32 * 4#32) = false)
    (hs : ∀ l, s.acts g l = true → (s.past.lane l).stack.length < 8) :
    LaneDone (.call g off) g s fun _ _ _ t =>
      (({ t with
          stack := { off := s.cur.next, slot := s.cur.slot, tag := (s.ovl s.issuer s.cur.slot).tag } :: t.stack
          pc := s.cur.next + off.signExtend 32 * 4#32 } : Thread).dropLatches, 0#32) := by
  rw [← stands_badTarget] at ht
  have hfull : s.past.lanesWhere (s.actMask g) (fun t => decide (8 ≤ t.stack.length)) = 0#32 :=
    lanesWhere_actMask_eq_zero fun l hl => by simpa using hs l hl
  refine laneDone_of_modLanes hr ((exec_call ..).trans (by rw [execCall])) ((if_neg (Bool.eq_false_iff.mp ht)).trans ?_)
  rw [stands_issuer, hfull, ← stands_retHere]
  exact splitLanes_zero _ _ _ _ (stands_replay hr)

/-- RET where every acting lane has an entry to pop and none pops below its region's depth. -/
theorem ret_done (hs : ∀ l, s.acts g l = true → (s.past.lane l).popsBelow = false ∧ (s.past.lane l).stack ≠ []) :
    LaneDone (.ret g) g s fun _ _ _ t => ((t.pop fun k => (s.ovl s.issuer k).tag).dropLatches, 0#32) := by
  have hbelow : s.past.lanesWhere (s.actMask g) Thread.popsBelow = 0#32 := lanesWhere_actMask_eq_zero fun l hl => (hs l hl).1
  have hempty : s.past.lanesWhere (s.actMask g) (fun t => t.stack.isEmpty) = 0#32 :=
    lanesWhere_actMask_eq_zero fun l hl => List.isEmpty_eq_false_iff.mpr (hs l hl).2
  refine laneDone_of_modLanes hr ((exec_ret ..).trans (by rw [execRet])) ?_
  simp only [stands_issuer, hbelow, abortLanes_zero, and_not_zero, hempty]
  exact splitLanes_zero _ _ _ _ (stands_replay hr)

/-- A ready word that traps in lanes does so at its place (R287). -/
theorem tpc_stands : s.stands.cur.tpc = s.cur.pc := by
  unfold Cur.tpc
  rw [stands_replay hr]
  rfl

/-- A branch out of the overlay traps in every acting lane (R50, log 110). -/
theorem leaveOverlay_of_quiet (hb : s.past.busy (s.actMask g) = false) :
    leaveOverlay s s.stands (s.actMask g) =
      .next (s.stands.raiseLanes s.cur.u (s.actMask g) s.cur.pc [] fun _ => trapRec 0x10 0#64) := by
  have hb' : (s.stands.unit s.stands.cur.u).busy (s.actMask g) = false := by rw [stands_issuer, hb]
  unfold leaveOverlay
  rw [splitLanes_of_quiet _ _ _ _ (stands_replay hr) hb', tpc_stands hr, BitVec.and_not_self]
  exact congrArg (fun x : State => Host.Outcome.next (x.raiseLanes _ _ _ _ _)) (modLanes_stands_zero s _)

variable (ha : s.actMask g ≠ 0#32)
include ha

theorem bra_traps {off : BitVec 21} (ht : (s.ovl s.issuer s.cur.slot).outside (s.cur.next + off.signExtend 32 * 4#32) = true)
    (hb : s.past.busy (s.actMask g) = false) :
    exec (.bra g off) s = .next (s.stands.raiseLanes s.cur.u (s.actMask g) s.cur.pc [] fun _ => trapRec 0x10 0#64) := by
  rw [← stands_badTarget] at ht
  rw [exec_bra, execBra, issueL_acts _ hr ha]
  exact (if_pos ht).trans (leaveOverlay_of_quiet hr hb)

theorem call_traps {off : BitVec 21} (ht : (s.ovl s.issuer s.cur.slot).outside (s.cur.next + off.signExtend 32 * 4#32) = true)
    (hb : s.past.busy (s.actMask g) = false) :
    exec (.call g off) s = .next (s.stands.raiseLanes s.cur.u (s.actMask g) s.cur.pc [] fun _ => trapRec 0x10 0#64) := by
  rw [← stands_badTarget] at ht
  rw [exec_call, execCall, issueL_acts _ hr ha]
  exact (if_pos ht).trans (leaveOverlay_of_quiet hr hb)

/-- CALL inside the overlay: the lanes whose call stack is full trap, and the others go on. -/
theorem call_splits {off : BitVec 21} {full : Word}
    (hfull : s.past.lanesWhere (s.actMask g) (fun t => decide (8 ≤ t.stack.length)) = full)
    (ht : (s.ovl s.issuer s.cur.slot).outside (s.cur.next + off.signExtend 32 * 4#32) = false) (hb : s.past.busy full = false) :
    exec (.call g off) s =
      .next ((s.stands.modLanes s.cur.u (s.actMask g &&& ~~~full) fun _ t =>
        ({ t with
           stack := { off := s.cur.next, slot := s.cur.slot, tag := (s.ovl s.issuer s.cur.slot).tag } :: t.stack
           pc := s.cur.next + off.signExtend 32 * 4#32 } : Thread).dropLatches).raiseLanes s.cur.u full s.cur.pc [] fun _ =>
        trapRec 0x0B 0#64) := by
  rw [← stands_badTarget] at ht
  have hb' : (s.stands.unit s.stands.cur.u).busy full = false := by rw [stands_issuer, hb]
  rw [exec_call, execCall, issueL_acts _ hr ha]
  refine (if_neg (Bool.eq_false_iff.mp ht)).trans ?_
  rw [stands_issuer, hfull, tpc_stands hr, ← stands_retHere]
  exact splitLanes_of_quiet _ _ _ _ (stands_replay hr) hb'

/-- RET: the lanes that would pop below their region's depth abort, those whose call stack is empty trap, and the others go on. -/
theorem ret_splits {below empty : Word} (hbelow : s.past.lanesWhere (s.actMask g) Thread.popsBelow = below)
    (hempty : s.past.lanesWhere (s.actMask g &&& ~~~below) (fun t => t.stack.isEmpty) = empty) (hb : s.past.busy empty = false) :
    exec (.ret g) s =
      .next (((s.stands.abortLanes s.cur.u below 0x06 0).modLanes s.cur.u (s.actMask g &&& ~~~below &&& ~~~empty) fun _ t =>
        (t.pop fun k => (s.ovl s.issuer k).tag).dropLatches).raiseLanes s.cur.u empty s.cur.pc [] fun _ => trapRec 0x0B 0#64) := by
  have hcur : (s.stands.abortLanes s.cur.u below 0x06 0).cur = s.stands.cur := abortLanes_cur ..
  have hrep : (s.stands.abortLanes s.cur.u below 0x06 0).cur.replay = none := by rw [hcur, stands_replay hr]
  have hb' : ((s.stands.abortLanes s.cur.u below 0x06 0).unit s.cur.u).busy empty = false := by
    rw [busy_abortLanes, stands_unit, hb]
  have hsplit := splitLanes_of_quiet (s0 := s) (s.actMask g &&& ~~~below) s.cur.pc (fun _ => trapRec 0x0B 0#64)
    (fun _ t => (t.pop fun k => (s.ovl s.issuer k).tag).dropLatches) hrep (by rw [hcur]; exact hb')
  rw [hcur] at hsplit
  rw [exec_ret, execRet, issueL_acts _ hr ha]
  simp only [stands_issuer, hbelow, hempty, tpc_stands hr]
  exact hsplit

end

/-! ### The trap and the rollback of lanes (R204, R262, R263) -/

section
variable {a : Src} (hr : laneReady g true (srcRegs a) (srcLatches a) s = true)
include hr

theorem opA_stands (l : Nat) : opA s.stands.cur s.past l a = src a s.past l (s.past.lane l) := by
  simp only [opA, stands_replay hr, src]

variable (ha : s.actMask g ≠ 0#32)
include ha

/-- TRAPL, once the lanes' older words have finished (R262, R288). -/
theorem trapl_traps (hb : s.past.busy (s.actMask g) = false) :
    exec (.trapl g a) s = .next (s.stands.raiseLanes s.cur.u (s.actMask g) s.cur.next [] fun l =>
      trapRec 0x0D ((src a s.past l (s.past.lane l)).setWidth 64)) := by
  rw [exec_trapl, execTrapl, issueL_acts _ hr ha]
  simp only [stands_issuer, hb, opA_stands hr]
  rfl

/-- ROLLB (R204, R263). -/
theorem rollb_aborts :
    exec (.rollb g a) s = .next (s.stands.abortLanesBy s.cur.u (s.past.lanesWhere (s.actMask g) Thread.inTry) 0x01 fun l =>
      (src a s.past l (s.past.lane l)).toNat % 256) := by
  rw [exec_rollb, execRollb, issueL_acts _ hr ha]
  simp only [stands_issuer, opA_stands hr]
  rfl

end
end

/-- Settles O7: each word from its body, at the lanes in which it acts. -/
theorem accumulatorsAndLaneControlComplete : Obligations.AccumulatorsAndLaneControlComplete := by
  unfold Obligations.AccumulatorsAndLaneControlComplete
  refine ⟨fun g d acc cb q s hr hq hi => ⟨drain_done hq hi hr, accw_done hq hi hr⟩, fun g off a s => ⟨fun hr => ?_, fun hr ha => ?_⟩⟩
  · refine ⟨fun ht => ⟨bra_done hr ht, call_done hr ht⟩, ret_done hr, fun ha => ?_⟩
    exact ⟨fun ht hb => ⟨bra_traps hr ha ht hb, call_traps hr ha ht hb⟩, call_splits hr ha rfl, ret_splits hr ha rfl rfl⟩
  · exact ⟨trapl_traps hr ha, rollb_aborts hr ha⟩

end Sys2Proof.Machine
end

section
/-!
PROOFS. FP32 arithmetic, the function words and the packed 16-bit words (R79, R82, R98 to R104).
-/

namespace Sys2Proof.Machine

/-! ### The shapes of the float words: a lane's operands, FCR as it stands at issue, and the flags (R62, R82) -/

section
variable {i : Instr} {g : BitVec 3} {d : Dest} {d' : Fin 120} {a b : Src} {s : State}

/-- Past a ready word's issue its operands are read in the lane, and its result goes to its destination: no queue entry supplies the
one or takes the other. -/
theorem operands_of_ready {wf : Bool} {regs lat : List Nat} (hr : laneReady g wf regs lat s = true) (w : Warp) (l : Nat) :
    (∀ x, opA s.issued.cur w l x = src x w l (w.lane l)) ∧ (∀ x, opB s.issued.cur w l x = src x w l (w.lane l)) ∧
    (∀ n k, opD s.issued.cur w l n k = (w.lane l).getV (n + k)) ∧
    ∀ (t : Thread) (e : Dest) (x : Word), t.deliver s.issued.cur e x = t.result e x := by
  simp only [opA, opB, opD, Thread.deliver, laneReady_replay hr, src, implies_true, and_self]

/-- A float word with one source. -/
theorem laneDone_float1 {f : RM → Bool → Word → Word × Word} (hr : oneReady g d a s = true) (he : exec i s = laneF1 g d a f s) :
    LaneDone i g s (float1 d a f) :=
  laneDone_of hr he fun l => by
    obtain ⟨ha, -, -, hd⟩ := operands_of_ready hr s.past l
    simp only [ha, hd]
    rfl

/-- A float word with two sources. -/
theorem laneDone_float2 {f : RM → Bool → Word → Word → Word × Word} (hr : twoReady g d a b s = true)
    (he : exec i s = laneF2 g d a b f s) : LaneDone i g s (float2 d a b f) :=
  laneDone_of hr he fun l => by
    obtain ⟨ha, hb, -, hd⟩ := operands_of_ready hr s.past l
    simp only [ha, hb, hd]
    rfl

/-- A float word that reads v[d] as its addend. -/
theorem laneDone_float3 {f : RM → Bool → Word → Word → Word → Word × Word} (hr : accReady g d' a b s = true)
    (he : exec i s = laneFAcc g d' a b f s) : LaneDone i g s (float3 d' a b f) :=
  laneDone_of hr he fun l => by
    obtain ⟨ha, hb, hc, hd⟩ := operands_of_ready hr s.past l
    simp only [ha, hb, hc, hd]
    rfl

/-- An FP32 compare, which leaves the latches (R102). -/
theorem laneDone_fcmp {p : Fin 7} {r : FRel} (hr : cmpReady g a b s = true) (he : exec i s = laneFCmp g p a b r s) :
    LaneDone i g s fun _ w l t =>
      (t.setP p.val (f32.fcmp r (fzOf w) (src a w l t).toNat (src b w l t).toNat).1,
        (f32.fcmp r (fzOf w) (src a w l t).toNat (src b w l t).toNat).2) :=
  laneDone_of hr he fun l => by
    obtain ⟨ha, hb, -, -⟩ := operands_of_ready hr s.past l
    simp only [ha, hb]
    rfl

/-- FMAL, whose addend is L0 (R99). -/
theorem fmal_done
    (hr : laneReady g (oneLit a b) (destRegs d ++ srcRegs a ++ srcRegs b) ([implicitL0] ++ srcLatches a ++ srcLatches b) s = true) :
    LaneDone (.fmal g d a b) g s (floatOf d fun w l t =>
      (f32.ffma (rmOf w) (fzOf w) (src a w l t).toNat (src b w l t).toNat (t.l0.getD 0#32).toNat).word) :=
  laneDone_of hr (exec_fmal ..) fun l => by
    obtain ⟨ha, hb, -, hd⟩ := operands_of_ready hr s.past l
    simp only [ha, hb, hd]
    rfl

end

/-- Settles O3, each word by the shape of its operands. -/
theorem floatWordsComplete : Obligations.FloatWordsComplete := by
  unfold Obligations.FloatWordsComplete
  refine ⟨fun g d d' p a b s => ⟨fun hr => ?_, fun hr => laneDone_float3 hr (exec_fmac ..), fmal_done, fun hr x hx => ?_⟩,
    fun g d d' a b s => ⟨fun hr => ?_, fun hr => ?_, fun hr => ?_⟩⟩
  · exact ⟨laneDone_float2 hr (exec_fadd ..), laneDone_float2 hr (exec_fsub ..), laneDone_float2 hr (exec_fmul ..),
      laneDone_float2 hr (exec_fmin ..), laneDone_float2 hr (exec_fmax ..), laneDone_float2 hr (exec_fscale ..)⟩
  · simp only [List.mem_cons, List.not_mem_nil, or_false] at hx
    rcases hx with rfl | rfl | rfl | rfl
    · exact laneDone_fcmp hr (exec_fcmpeq ..)
    · exact laneDone_fcmp hr (exec_fcmplt ..)
    · exact laneDone_fcmp hr (exec_fcmple ..)
    · exact laneDone_fcmp hr (exec_fcmpun ..)
  · exact ⟨laneDone_float1 hr (exec_frcp ..), laneDone_float1 hr (exec_frsq ..), laneDone_float1 hr (exec_fsqrt ..),
      laneDone_float1 hr (exec_fexp2 ..), laneDone_float1 hr (exec_flog2 ..), laneDone_float1 hr (exec_fsinpi ..),
      laneDone_float1 hr (exec_fcospi ..), laneDone_float1 hr (exec_ftanh ..)⟩
  · exact ⟨laneDone_float2 hr (exec_badd2 ..), laneDone_float2 hr (exec_bmul2 ..), laneDone_float2 hr (exec_bmax2 ..),
      laneDone_float2 hr (exec_hadd2 ..), laneDone_float2 hr (exec_hmul2 ..), laneDone_float2 hr (exec_hmax2 ..)⟩
  · exact ⟨laneDone_float3 hr (exec_bmac2 ..), laneDone_float3 hr (exec_hmac2 ..)⟩

end Sys2Proof.Machine
end

section
/-!
PROOFS. The words over the issue group, and SRD and SWR of every special register (R62, R64, R154 to R157, R287 to R289).
-/

namespace Sys2Proof.Machine

/-! ### Masks of the members that meet a test -/

theorem lanesWhere_bne_zero (w : Warp) (m : Word) (f : Thread → Bool) :
    (!(w.lanesWhere m f == 0#32)) = (lanesOf m).any fun l => f (w.lane l) := by
  rw [Bool.eq_iff_iff, ← lanesWhere_ne_zero]
  simp

theorem lanesWhere_beq_self (w : Warp) (m : Word) (f : Thread → Bool) :
    (w.lanesWhere m f == m) = (lanesOf m).all fun l => f (w.lane l) := by
  rw [Bool.eq_iff_iff, beq_iff_eq, List.all_eq_true]
  constructor
  · intro h l hl
    have hbit := getLsbD_lanesWhere w m f l
    rw [h, (mem_lanesOf m l).mp hl, Bool.true_and] at hbit
    exact hbit.symm
  · intro h
    refine BitVec.eq_of_getLsbD_eq fun l _ => ?_
    rw [getLsbD_lanesWhere]
    cases hm : m.getLsbD l with
    | false => rfl
    | true => exact h l ((mem_lanesOf m l).mpr hm)

/-! ### What a ready word comes to -/

section
variable {q : BitVec 3} {s : State}

/-- How a word that changes the uniform state alone is shown to complete. -/
theorem uniDone_of_modUni {i : Instr} {f : Uni → Uni} (he : exec i s = .next (s.stands.modUni s.cur.u f)) : UniDone i s f :=
  he.trans (congrArg _ (modUni_stands s f))

section
variable (h : uniReady q s = true)
include h

/-- A ready word that acts on a SIMT warp alone. -/
theorem issueG_simt_done {body : State → GRes} {t : State} (hk : s.issuer.reck = false) (hb : body s.stands = .done t) :
    issueG q true .simtOnly .acts .acts false body s = .next t := by
  rw [issueG_ready q true .simtOnly .acts .acts false body s h (by rw [hk]; rfl) rfl (fun _ _ => regCode_acts _) Bool.noConfusion, hb]

/-- A word that is not legal traps in every member at its place, once their older words have finished (R59, R287, R288). -/
theorem issueG_reserved {body : State → GRes} (hq : s.quiet = true) :
    issueG q false .both .acts .acts false body s =
      .next ((s.issued.setUnit s.cur.u s.joined).raiseLanes s.cur.u s.cur.members s.cur.pc [] fun _ => trapRec 0x01 0#64) := by
  have hrep := uniReady_replay h
  simp only [uniReady, State.fresh, Bool.and_eq_true] at h
  obtain ⟨⟨hact, -⟩, hguard⟩ := h
  have hjoin : (s.unit s.cur.u).joinGroup s.cur.members = s.joined := rfl
  have hbusy : s.joined.busy s.cur.members = false := by simpa [State.quiet] using hq
  have hreplay : (s.issued.setUnit s.cur.u s.joined).cur.replay.toList = [] := congrArg Option.toList hrep
  unfold issueG
  simp only [hact, hrep, hjoin, joined_u, hguard, raiseGroup, unit_setUnit_self, hbusy, hreplay]
  rfl

/-! ### The words over the issue group (R154) -/

section
variable (hk : s.issuer.reck = false)
include hk

theorem sfirst_done (d : Fin 64) :
    UniDone (.sfirst q d) s fun u => u.setS d.val (BitVec.ofNat 32 ((lanesOf s.cur.members).headD 0)) :=
  uniDone_of_modUni (by rw [exec_sfirst, execSfirst]; exact issueG_simt_done h hk rfl)

theorem vmask_done (d : Fin 64) : UniDone (.vmask q d) s fun u => u.setS d.val s.cur.members :=
  uniDone_of_modUni (by rw [exec_vmask, execVmask]; exact issueG_simt_done h hk rfl)

theorem pset_done (p : Fin 7) (m : Fin 8) : GroupDone (.pset q p m) s id fun _ t => t.setP p.val (s.issuer.u.getQ m.val) := by
  refine groupDone_of_modLanes ?_
  rw [exec_pset, execPset, ← past_u s, ← stands_issuer s]
  exact issueG_simt_done h hk rfl

/-- QANY and QALL, once no member awaits the predicate they read (R97). -/
theorem groupPred_done {i : Instr} {m n : Fin 8} {f : Word → Word → Bool} (he : exec i s = groupPred q m n f s)
    (ha : (lanesOf s.cur.members).all (fun l => !((s.past.lane l).awaits (predRegs n.val) [])) = true) :
    UniDone i s fun u => u.setQ m.val (f (s.past.lanesWhere s.cur.members fun t => t.getP n.val) s.cur.members) := by
  have hnone : ¬ ((lanesOf s.cur.members).any fun l => (s.past.lane l).awaits (predRegs n.val) []) = true := by
    simpa using ha
  refine uniDone_of_modUni (he.trans ?_)
  rw [groupPred]
  refine issueG_simt_done h hk ?_
  simp only [stands_issuer]
  exact if_neg hnone

end

/-! ### Special registers (R155 to R157) -/

/-- SRD, as its register says. -/
theorem srd_done (d : Fin 64) (ix : Fin 40) :
    UniDone (.srd q d ix) s fun u =>
      if ix.val = 0x00E then { u.setS d.val (s.clk s.issuer).lo with shadow := some (s.clk s.issuer).hi }
      else if ix.val = 0x00F then { u.setS d.val (u.shadow.getD (s.clk s.issuer).hi) with shadow := none }
      else u.setS d.val (s.stands.special s.past ix.val) :=
  (exec_srd ..).trans (issueUni_ready q _ s h)

/-- SRD of a register other than CLK. -/
theorem srd_gives {d : Fin 64} {ix : Fin 40} {v : Word} (hv : s.stands.special s.past ix.val = v)
    (h0 : ix.val ≠ 0x0E := by decide) (h1 : ix.val ≠ 0x0F := by decide) : UniDone (.srd q d ix) s fun u => u.setS d.val v := by
  have hd := srd_done h d ix
  simp only [h0, h1, if_false, hv] at hd
  exact hd

/-- SRD of a trap register reads the frame of the lowest member (R155). -/
theorem srd_frame {d : Fin 64} {ix : Fin 40} (k : Nat) (hv : s.stands.special s.past ix.val = s.stands.firstMember.frameWord k)
    (h0 : ix.val ≠ 0x0E := by decide) (h1 : ix.val ≠ 0x0F := by decide) :
    UniDone (.srd q d ix) s fun u => u.setS d.val ((s.past.lane ((lanesOf s.cur.members).headD 0)).frameWord k) := by
  have hfirst : s.stands.firstMember = s.past.lane ((lanesOf s.cur.members).headD 0) := by
    rw [State.firstMember, stands_issuer]
    rfl
  rw [hfirst] at hv
  exact srd_gives h hv h0 h1

/-- A word that SWR may name is written after its guard holds. -/
theorem issueG_swr {ix : Fin 40} {body : State → GRes} {t : State} (hw : swrWritable ix = true) (hb : body s.stands = .done t) :
    issueG q (swrWritable ix) .both .acts .acts false body s = .next t := by
  rw [hw]
  exact issueG_acts_done h hb

/-- SWR of a register of the uniform state. -/
theorem swr_done {a : Fin 64} {ix : Fin 40} (hw : swrWritable ix = true) (hi : frameIx ix.val = none) :
    UniDone (.swr q a ix) s fun u => u.swr ix.val (s.issuer.u.getS a.val) := by
  refine uniDone_of_modUni ?_
  rw [exec_swr, execSwr]
  refine issueG_swr h hw ?_
  simp only [hi, stands_issuer]
  rfl

/-- SWR of a trap register, in the frame of every member. -/
theorem swr_frame {a : Fin 64} {ix : Fin 40} {k : Nat} (hw : swrWritable ix = true) (hi : frameIx ix.val = some k) :
    GroupDone (.swr q a ix) s id fun _ t => { t with frame := frameWrite t.frame k (s.issuer.u.getS a.val) } := by
  refine groupDone_of_modLanes ?_
  rw [exec_swr, execSwr]
  refine issueG_swr h hw ?_
  simp only [hi, stands_issuer]
  rfl

theorem swr_traps {a : Fin 64} {ix : Fin 40} (hw : swrWritable ix = false) (hq : s.quiet = true) :
    exec (.swr q a ix) s =
      .next ((s.issued.setUnit s.cur.u s.joined).raiseLanes s.cur.u s.cur.members s.cur.pc [] fun _ => trapRec 0x01 0#64) := by
  rw [exec_swr, execSwr, hw]
  exact issueG_reserved h hq

end
end

/-- Settles O9: the group's words from their bodies, and each special register by its number. -/
theorem groupDataAndSpecialRegistersComplete : Obligations.GroupDataAndSpecialRegistersComplete := by
  unfold Obligations.GroupDataAndSpecialRegistersComplete
  refine ⟨fun q d m n p s h hk => ⟨sfirst_done h hk d, vmask_done h hk d, pset_done h hk p m, fun ha => ⟨?_, ?_⟩⟩,
    fun q d ix s h => ?_, fun q a ix s h => ?_⟩
  · have hd := groupPred_done h hk (i := .qany q m n) (exec_qany ..) ha
    rwa [lanesWhere_bne_zero] at hd
  · have hd := groupPred_done h hk (i := .qall q m n) (exec_qall ..) ha
    rwa [lanesWhere_beq_self] at hd
  · refine ⟨srd_done h d 0x0E, srd_done h d 0x0F, fun h0 h1 => srd_gives h rfl h0 h1, ?_⟩
    exact ⟨srd_gives h rfl, srd_gives h rfl, srd_gives h rfl, srd_gives h rfl, srd_gives h rfl, srd_gives h rfl, srd_gives h rfl,
      srd_gives h rfl, srd_gives h rfl, srd_gives h rfl, srd_gives h rfl, srd_frame h 0 rfl, srd_frame h 2 rfl, srd_frame h 3 rfl,
      srd_frame h 4 rfl, srd_frame h 6 rfl, srd_frame h 1 rfl, srd_gives h rfl, srd_gives h rfl, srd_gives h rfl⟩
  · refine ⟨swr_done h rfl rfl, swr_done h rfl rfl, swr_done h rfl rfl, swr_done h rfl rfl, swr_done h rfl rfl, swr_done h rfl rfl,
      fun p hp => ?_, fun hx hq => swr_traps h ?_ hq⟩
    · simp only [List.mem_cons, List.not_mem_nil, or_false] at hp
      rcases hp with rfl | rfl | rfl | rfl <;> exact swr_frame h rfl rfl
    · simpa [swrWritable] using hx

end Sys2Proof.Machine
end

section
/-!
PROOFS. Matrix instructions as they start and complete: every element of both accumulators afterwards (R77, R122, R195, R198, R199,
R306).
-/

namespace Sys2Proof.Machine

/-! ### Every element of an accumulator -/

/-- A table that lists one value for each of some keys. -/
theorem get_indexed {β : Type} (d : β) (f : Nat → β) (ks : List Nat) (k : Nat) :
    Tab.get d (ks.map fun i => (i, f i)) k = if k ∈ ks then f k else d := by
  induction ks with
  | nil => rfl
  | cons a r ih =>
    simp only [List.map_cons, Tab.get, ih, List.mem_cons]
    by_cases h : a = k
    · simp [h]
    · simp [h, Ne.symm h]

/-- The table of both accumulators reads as the words it was made from: those it leaves out are zero. -/
theorem get_accTab (ws : Array Word) {k : Nat} (hk : k < 49152) : Tab.get 0#32 (accTab ws) k = ws.getD k 0#32 := by
  unfold accTab
  rw [List.filter_map, get_indexed]
  simp only [List.mem_filter, List.mem_range, hk, true_and, Function.comp, bne_iff_ne, ite_not]
  split
  · exact Eq.symm ‹_›
  · rfl

theorem accKey_lt (n : Bool) {row col : Nat} (hr : row < 128) (hc : col < 192) : accKey n row col < 49152 := by
  unfold accKey
  split <;> omega

/-- A change of every element of one accumulator leaves the other. -/
theorem get_mapAcc (c : Core) (n m : Bool) (f : Nat → Nat → Word → Word) {row col : Nat} (hr : row < 128) (hc : col < 192) :
    Tab.get 0#32 (c.mapAcc n f).acc (accKey m row col) =
      if m = n then f row col ((tabArray c.acc 49152).getD (accKey m row col) 0#32)
      else (tabArray c.acc 49152).getD (accKey m row col) 0#32 := by
  have hk := accKey_lt m hr hc
  have hin : ((if n then 24576 else 0) ≤ accKey m row col ∧ accKey m row col < (if n then 24576 else 0) + 24576) ↔ m = n := by
    unfold accKey
    cases m <;> cases n <;> simp <;> omega
  unfold Core.mapAcc
  dsimp only
  rw [get_accTab _ hk, Array.getD_eq_getD_getElem?, Array.getElem?_map, Array.getElem?_range, if_pos hk]
  simp only [Option.map_some, Option.getD_some, hin]
  split
  · rename_i h
    subst h
    have hrow : (accKey m row col - if m then 24576 else 0) / 192 = row := by
      unfold accKey
      omega
    have hcol : (accKey m row col - if m then 24576 else 0) % 192 = col := by
      unfold accKey
      omega
    rw [hrow, hcol]
  · rfl

/-! ### What leaves the cores as they were -/

theorem foldl_cores {α : Type} {f : State → α → State} (hf : ∀ s a, (f s a).cores = s.cores) (l : List α) (s : State) :
    (l.foldl f s).cores = s.cores :=
  List.foldlRecOn (motive := fun t : State => t.cores = s.cores) l f rfl fun t ht a _ => (hf t a).trans ht

theorem modTile_cores (s : State) (tm t : Nat) (f : TileEnt → TileEnt) : (s.modTile tm t f).cores = s.cores := by
  unfold State.modTile
  dsimp only
  rw [foldl_cores, modTeam_cores]
  intro s u
  split
  · split <;> rfl
  · rfl

theorem core_congr {s t : State} (h : s.cores = t.cores) (k : Nat) : s.core k = t.core k := congrArg (fun x => Tab.get Core.init x k) h

theorem dropAgent_core (s : State) (a : Agent) (k : Nat) : (s.dropAgent a).core k = s.core k := rfl

theorem mapAcc_mq (c : Core) (n : Bool) (f : Nat → Nat → Word → Word) : (c.mapAcc n f).mq = c.mq := by
  rw [Core.mapAcc]

/-- An instruction that leaves its core's queue changes no more of the core. -/
theorem core_leaveQueue (s : State) (key : Nat) (o : MatOp) :
    (s.leaveQueue key o).core key = { s.core key with mq := (s.core key).mq.drop 1 } := by
  have hmod : (s.modCore key fun c => { c with mq := c.mq.drop 1 }).core key = { s.core key with mq := (s.core key).mq.drop 1 } := by
    rw [core_modCore, if_pos rfl]
  refine (core_congr ?_ key).trans hmod
  unfold State.leaveQueue
  dsimp only
  split
  · rfl
  · exact foldl_cores (fun _ _ => modTile_cores _ _ _ _) _ _

/-- The reads of the B tiles change the agents' orders alone. -/
theorem matReads_order (s : State) (o : MatOp) : ∃ ord, (s.matReads o).1 = { s with order := ord } := by
  unfold State.matReads
  dsimp only
  refine List.foldlRecOn (motive := fun r : State × Option (Nat × Nat) => ∃ ord, r.1 = { s with order := ord }) _ _ ⟨_, rfl⟩ ?_
  rintro ⟨_, _ | a⟩ ⟨ord, rfl⟩ n -
  · dsimp only
    split <;> exact ⟨_, rfl⟩
  · exact ⟨ord, rfl⟩

/-! ### What each kind does -/

/-- What an instruction makes of an element of its accumulator (R77, R121, R199). -/
def State.matElement (s : State) (o : MatOp) (row col : Nat) (old : Word) : Word :=
  match o.kind with
  | .mma | .mmas => (s.matIn o).element row col (if o.z then 0#32 else old)
  | .mscale => BitVec.ofNat 32 (f32.fmul 0#2 false old.toNat (Tab.get 0#32 o.factor (8 * row)).toNat).code
  | .mzero => 0#32

/-- The effect of an instruction, of whichever kind. -/
def State.runMat (s : State) (key : Nat) (o : MatOp) : State :=
  match o.kind with
  | .mma | .mmas => s.runMma key o
  | .mscale => s.runMscale key o
  | .mzero => s.runMzero key o

theorem runMat_mem (s : State) (key : Nat) (o : MatOp) : (s.runMat key o).mem = s.mem := by
  unfold State.runMat
  split
  · exact runMma_mem s key o
  · exact runMma_mem s key o
  · rfl
  · rfl

/-- Raising VOID in the quad's warps leaves the cores. -/
theorem runMma_cores (s : State) (key : Nat) (o : MatOp) :
    (s.runMma key o).cores =
      (s.modCore key fun c => c.mapAcc o.acc fun row col w => (s.matIn o).element row col (if o.z then 0#32 else w)).cores := by
  unfold State.runMma
  dsimp only
  split
  · exact foldl_cores (f := fun s u => s.modUni u fun y => y.raise Config.flVOID) (fun _ _ => rfl) _ _
  · rfl

/-- An instruction changes every element of its accumulator, and nothing else of its core. -/
theorem core_runMat (s : State) (key : Nat) (o : MatOp) :
    (s.runMat key o).core key = (s.core key).mapAcc o.acc (s.matElement o) := by
  have hmod (f : Nat → Nat → Word → Word) :
      (s.modCore key fun c => c.mapAcc o.acc f).core key = (s.core key).mapAcc o.acc f := by
    rw [core_modCore, if_pos rfl]
  unfold State.runMat
  cases hk : o.kind with
  | mma | mmas =>
    refine (core_congr (runMma_cores s key o) key).trans ((hmod _).trans (congrArg _ ?_))
    funext row col old
    simp only [State.matElement, hk]
  | mscale | mzero =>
    refine (hmod _).trans (congrArg _ ?_)
    funext row col old
    simp only [State.matElement, hk]

/-! ### Start and completion -/

section
variable {sl core : Nat} {o : MatOp} {q : List MatOp} {s : State} (hq : (s.core (64 * sl + core)).mq = o :: q)
include hq

/-- The first instruction of the queue starts (R195, R299, R306). -/
theorem exec_matrixExecuteStart_of (hn : o.started = false) (hp : (s.part (s.unit o.u).part).stalled = false)
    (hf : ∀ c ∈ s.cmds, c.cls = 3 → 64 * sl + core ∉ c.done) :
    exec (.matrixExecuteStart sl core) s =
      .next (s.modCore (64 * sl + core) fun c => { c with mq := { o with started := true } :: q }) := by
  have hm : s.mayStart o.u = true := by simp only [State.mayStart, hp, Bool.not_false]
  have hz : s.matFrozen (64 * sl + core) = false := by
    simpa [State.matFrozen, List.any_eq_false] using hf
  rw [exec_matrixExecuteStart, execMatrixExecuteStart]
  simp only [hq, hn, hm, hz, Bool.not_true, Bool.or_self, Bool.false_eq_true, if_false]

/-- A running instruction without a completion add takes effect and leaves the queue (R122). -/
theorem exec_matrixComplete_of (hs : o.started = true) (hc : o.ccnt = 0#64) (hr : (s.matReads o).2 = none) :
    exec (.matrixComplete sl core) s =
      .next ((((s.matReads o).1.runMat (64 * sl + core) o).leaveQueue (64 * sl + core) o).dropAgent o.agent) := by
  have hreads : s.matReads o = ((s.matReads o).1, none) := Prod.ext rfl hr
  rw [exec_matrixComplete, execMatrixComplete]
  simp only [hq, hs, Bool.not_true, Bool.false_eq_true, if_false]
  rw [hreads]
  simp only [State.completionAdd, hc, if_true, State.matDone, ite_self]
  rfl

end

/-- A completed instruction: its core has taken its effect and its queue is the rest (R122). -/
theorem matrixComplete_core {sl core : Nat} {o : MatOp} {q : List MatOp} {s : State} (hq : (s.core (64 * sl + core)).mq = o :: q)
    (hs : o.started = true) (hc : o.ccnt = 0#64) (hr : (s.matReads o).2 = none) :
    ∃ t, exec (.matrixComplete sl core) s = .next t ∧ t.mem = s.mem ∧ (t.core (64 * sl + core)).mq = q ∧
      (t.core (64 * sl + core)).acc = ((s.core (64 * sl + core)).mapAcc o.acc (s.matElement o)).acc := by
  obtain ⟨ord, hord⟩ := matReads_order s o
  have hcore : (s.matReads o).1.core (64 * sl + core) = s.core (64 * sl + core) := by rw [hord]; rfl
  have helem : (s.matReads o).1.matElement o = s.matElement o := by rw [hord]; rfl
  have hleft := core_leaveQueue ((s.matReads o).1.runMat (64 * sl + core) o) (64 * sl + core) o
  rw [core_runMat, hcore, helem] at hleft
  refine ⟨_, exec_matrixComplete_of hq hs hc hr, ?_, ?_, ?_⟩
  · rw [dropAgent_mem, leaveQueue_mem, runMat_mem, matReads_mem]
  · rw [dropAgent_core, hleft, mapAcc_mq, hq, List.drop_one, List.tail_cons]
  · rw [dropAgent_core, hleft]

/-- Settles O41: what starts changes its queue alone, and what completes changes every element of its accumulator. -/
theorem matrixInstructionsRun : Obligations.MatrixInstructionsRun := by
  unfold Obligations.MatrixInstructionsRun
  intro sl core o q s hq
  refine ⟨fun hn hp hf => ?_, fun hs hc hr => ?_⟩
  · refine ⟨_, exec_matrixExecuteStart_of hq hn hp hf, rfl, ?_, ?_⟩ <;> rw [core_modCore, if_pos rfl]
  · obtain ⟨t, ht, hm, hmq, hacc⟩ := matrixComplete_core hq hs hc hr
    refine ⟨t, ht, hm, hmq, fun n row col hrow hcol => ?_⟩
    rw [hacc, get_mapAcc _ o.acc n _ hrow hcol]
    cases hk : o.kind <;> simp only [State.matElement, hk]

end Sys2Proof.Machine
end

section
/-!
PROOFS. Lane moves, integer arithmetic, bit operations, compares and predicate logic (R84 to R97).
-/

namespace Sys2Proof.Machine

/-! ### The model's operations on words are the arithmetic of the rules (R87 to R90) -/

theorem sub_eq_ofInt (x y : Word) : x - y = BitVec.ofInt 32 (x.toInt - y.toInt) := by
  rw [BitVec.sub_eq_add_neg, Int.sub_eq_add_neg, BitVec.ofInt_add, BitVec.ofInt_neg, BitVec.ofInt_toInt, BitVec.ofInt_toInt]

theorem mul_eq_ofNat (x y : Word) : x * y = BitVec.ofNat 32 (x.toNat * y.toNat) := by
  rw [BitVec.ofNat_mul, BitVec.ofNat_toNat, BitVec.ofNat_toNat, BitVec.setWidth_eq, BitVec.setWidth_eq]

theorem mul_add_eq_ofNat (x y z : Word) : x * y + z = BitVec.ofNat 32 (x.toNat * y.toNat + z.toNat) := by
  rw [BitVec.ofNat_add, ← mul_eq_ofNat, BitVec.ofNat_toNat, BitVec.setWidth_eq]

theorem ite_sle {α : Type} (x y : Word) (p q : α) : (if x.sle y then p else q) = if x.toInt ≤ y.toInt then p else q := by
  simp only [BitVec.sle_iff_toInt_le]

theorem ite_ule {α : Type} (x y : Word) (p q : α) : (if x.ule y then p else q) = if x.toNat ≤ y.toNat then p else q := by
  simp only [BitVec.ule_iff_toNat_le]

/-- The sign bit tells whether a word is negative. -/
theorem getLsbD_sign (x : Word) : x.getLsbD 31 = decide (x.toInt < 0) :=
  (BitVec.msb_eq_getLsbD_last x).symm.trans BitVec.msb_eq_toInt

/-- The size of a negative word is that of its negation (R88). -/
theorem iabs32_eq_natAbs (x : Word) : iabs32 x = BitVec.ofNat 32 x.toInt.natAbs := by
  rw [← BitVec.ofInt_natCast 32 x.toInt.natAbs, iabs32, getLsbD_sign]
  by_cases h : x.toInt < 0
  · rw [if_pos (decide_eq_true h), Int.ofNat_natAbs_of_nonpos (Int.le_of_lt h), BitVec.ofInt_neg, BitVec.ofInt_toInt, BitVec.zero_sub]
  · rw [if_neg (by simpa using h), Int.natAbs_of_nonneg (Int.not_lt.mp h), BitVec.ofInt_toInt]

/-- A count of 32 or more leaves nothing below 2^32 (R90). -/
theorem shl32_eq_mul_pow (x y : Word) : shl32 x y = BitVec.ofNat 32 (x.toNat * 2 ^ y.toNat) := by
  unfold shl32
  split
  · refine BitVec.eq_of_toNat_eq ?_
    rw [BitVec.toNat_shiftLeft, Nat.shiftLeft_eq, BitVec.toNat_ofNat]
  next h =>
    obtain ⟨k, hk⟩ := Nat.exists_eq_add_of_le (Nat.not_lt.mp h)
    rw [hk, Nat.pow_add, Nat.mul_left_comm]
    exact (BitVec.eq_of_toNat_eq (by rw [BitVec.toNat_ofNat, Nat.mul_mod_right]; rfl)).symm

/-- A word is below 2^32, so a count of 32 or more shifts every bit out (R90). -/
theorem shr32_eq_div_pow (x y : Word) : shr32 x y = BitVec.ofNat 32 (x.toNat / 2 ^ y.toNat) := by
  unfold shr32
  split
  · refine BitVec.eq_of_toNat_eq ?_
    rw [BitVec.toNat_ushiftRight, Nat.shiftRight_eq_div_pow, BitVec.toNat_ofNat]
    exact (Nat.mod_eq_of_lt (Nat.lt_of_le_of_lt (Nat.div_le_self _ _) x.isLt)).symm
  next h =>
    rw [Nat.div_eq_of_lt (Nat.lt_of_lt_of_le x.isLt (Nat.pow_le_pow_right (by decide) (Nat.not_lt.mp h)))]

/-- A signed word divided, rounding down, by a power of two above its size gives its sign. -/
theorem toInt_div_pow_of_le (x : Word) {n : Nat} (hn : 32 ≤ n) : x.toInt / 2 ^ n = if x.toInt < 0 then -1 else 0 := by
  have hpow : (2 : Int) ^ 32 ≤ 2 ^ n := by exact_mod_cast Nat.pow_le_pow_right (n := 2) (by decide) hn
  have hlt := BitVec.toInt_lt (x := x)
  have hle := BitVec.le_toInt x
  split
  next h => exact Int.ediv_eq_neg_one_of_neg_of_le h (by omega)
  next h => exact Int.ediv_eq_zero_of_lt (Int.not_lt.mp h) (by omega)

/-- A count of 32 or more gives the sign bit in every place (R90). -/
theorem sar32_eq_div_pow (x y : Word) : sar32 x y = BitVec.ofInt 32 (x.toInt / 2 ^ y.toNat) := by
  unfold sar32
  split
  · rw [BitVec.sshiftRight_eq, Int.shiftRight_eq_div_pow]
    rfl
  next h =>
    rw [toInt_div_pow_of_le x (Nat.not_lt.mp h), getLsbD_sign]
    by_cases hneg : x.toInt < 0 <;> simp only [hneg, decide_true, decide_false, if_true, if_false, Bool.false_eq_true] <;> rfl

/-! ### The shapes of the words -/

section
variable {i : Instr} {g : BitVec 3} {d : Dest} {d' : Fin 120} {p : Fin 7} {a b : Src} {x y : Fin 8} {s : State}

/-- A word whose one result is made of no source field. -/
theorem laneDone_deliver {wf : Bool} {regs lat : List Nat} {v : Warp → Nat → Thread → Word} (hr : laneReady g wf regs lat s = true)
    (he : exec i s = issueL g wf regs lat (laneBody fun c w l t => (t.deliver c d (v w l t), 0#32)) s) :
    LaneDone i g s (resultOf d v) :=
  laneDone_of hr he fun l => by
    obtain ⟨-, -, -, hd⟩ := operands_of_ready hr s.past l
    simp only [hd]
    rfl

/-- A word that reads v[d] as well (R82). -/
theorem laneDone_acc {f h : Word → Word → Word → Word} (hr : accReady g d' a b s = true) (he : exec i s = laneAcc g d' a b f s)
    (hf : ∀ x y z, f x y z = h x y z) : LaneDone i g s (accOf d' a b h) :=
  laneDone_of hr he fun l => by
    obtain ⟨ha, hb, hc, hd⟩ := operands_of_ready hr s.past l
    simp only [ha, hb, hc, hd, hf]
    rfl

/-- An integer compare, which leaves the latches (R95). -/
theorem laneDone_cmp {r : IRel} {h : Word → Word → Bool} (hr : cmpReady g a b s = true) (he : exec i s = laneCmp g p a b r s)
    (hf : ∀ x y, r.test x y = h x y) : LaneDone i g s (cmpOf p a b h) :=
  laneDone_of hr he fun l => by
    obtain ⟨ha, hb, -, -⟩ := operands_of_ready hr s.past l
    simp only [ha, hb, hf]
    rfl

/-- Predicate logic, which reads both predicates before it writes (R96). -/
theorem laneDone_pred {f : Bool → Bool → Bool} (hr : laneReady g true (predRegs x.val ++ predRegs y.val) [] s = true)
    (he : exec i s = lanePred g p x y f s) :
    LaneDone i g s fun _ _ _ t => (t.setP p.val (f (t.getP x.val) (t.getP y.val)), 0#32) :=
  laneDone_of hr he fun _ => rfl

/-- NOP (R84). -/
theorem nop_done (hr : laneReady g true [] [] s = true) : LaneDone (.nop g) g s fun _ _ _ t => (t, 0#32) :=
  laneDone_of hr (exec_nop ..) fun _ => rfl

/-- VBC (R86). -/
theorem vbc_done {n : Fin 64} (hr : laneReady g true (destRegs d) [] s = true) :
    LaneDone (.vbc g d n) g s (resultOf d fun w _ _ => w.u.getS n.val) :=
  laneDone_deliver hr (exec_vbc ..)

/-- SEL (R94). -/
theorem sel_done (hr : twoReady g d a b s = true) :
    LaneDone (.sel g d a b) g s (resultOf d fun w l t => if t.getP 0 then src a w l t else src b w l t) :=
  laneDone_of hr (exec_sel ..) fun l => by
    obtain ⟨ha, hb, -, hd⟩ := operands_of_ready hr s.past l
    simp only [ha, hb, hd]
    rfl

/-- Naming a register twice asks no more than naming it once. -/
theorem laneReady_append_self (g : BitVec 3) (wf : Bool) (regs lat : List Nat) (s : State) :
    laneReady g wf (regs ++ regs) lat s = laneReady g wf regs lat s := by
  simp only [laneReady, regsAbove, Warp.namesHeld, Thread.stalls, Thread.awaits, List.any_append, List.contains_append, Bool.or_self]

/-- PNOT, which the model runs as predicate logic of its one source with itself (R96). -/
theorem pnot_done (hr : laneReady g true (predRegs x.val) [] s = true) :
    LaneDone (.pnot g p x) g s fun _ _ _ t => (t.setP p.val (!(t.getP x.val)), 0#32) :=
  laneDone_pred (f := fun v _ => !v) (by rwa [laneReady_append_self]) (exec_pnot ..)

/-- PTOV (R97). -/
theorem ptov_done (hr : laneReady g true (destRegs d ++ predRegs x.val) [] s = true) :
    LaneDone (.ptov g d x) g s (resultOf d fun _ _ t => if t.getP x.val then 1#32 else 0#32) :=
  laneDone_deliver hr (exec_ptov ..)

/-- VTOP, which leaves the latches (R97). -/
theorem vtop_done (hr : laneReady g true (srcRegs a) (srcLatches a) s = true) :
    LaneDone (.vtop g p a) g s fun _ w l t => (t.setP p.val (src a w l t != 0#32), 0#32) :=
  laneDone_of hr (exec_vtop ..) fun l => by
    obtain ⟨ha, -, -, -⟩ := operands_of_ready hr s.past l
    simp only [ha]

end

/-! ### The obligations -/

/-- Settles O1, each word by the shape of its operands and the arithmetic of its rule. -/
theorem integerAndBitWordsComplete : Obligations.IntegerAndBitWordsComplete := by
  unfold Obligations.IntegerAndBitWordsComplete
  refine ⟨fun g d a b s hr => ?_, fun g d d' a b n s => ⟨nop_done, vbc_done, fun hr => ?_, fun hr => ?_, sel_done⟩⟩
  · exact ⟨laneDone_two hr (exec_iadd ..) BitVec.add_def, laneDone_two hr (exec_isub ..) sub_eq_ofInt,
      laneDone_two hr (exec_imul ..) mul_eq_ofNat, laneDone_two hr (exec_imulh ..) fun _ _ => rfl,
      laneDone_two hr (exec_imulhu ..) fun _ _ => rfl, laneDone_two hr (exec_imin ..) fun x y => ite_sle x y x y,
      laneDone_two hr (exec_imax ..) fun x y => ite_sle x y y x, laneDone_two hr (exec_umin ..) fun x y => ite_ule x y x y,
      laneDone_two hr (exec_umax ..) fun x y => ite_ule x y y x, laneDone_two hr (exec_andOp ..) fun _ _ => rfl,
      laneDone_two hr (exec_orOp ..) fun _ _ => rfl, laneDone_two hr (exec_xorOp ..) fun _ _ => rfl,
      laneDone_two hr (exec_andn ..) fun _ _ => rfl, laneDone_two hr (exec_shl ..) shl32_eq_mul_pow,
      laneDone_two hr (exec_shr ..) shr32_eq_div_pow, laneDone_two hr (exec_sar ..) sar32_eq_div_pow,
      laneDone_two hr (exec_bfe ..) fun _ _ => rfl, laneDone_two hr (exec_bfes ..) fun _ _ => rfl⟩
  · exact ⟨laneDone_one hr (exec_mov ..) fun _ => rfl, laneDone_one hr (exec_iabs ..) iabs32_eq_natAbs,
      laneDone_one hr (exec_clz ..) fun _ => rfl, laneDone_one hr (exec_popc ..) fun _ => rfl,
      laneDone_one hr (exec_brev ..) fun _ => rfl⟩
  · exact ⟨laneDone_acc hr (exec_imac ..) mul_add_eq_ofNat, laneDone_acc hr (exec_bfi ..) fun _ _ _ => rfl⟩

/-- Settles O2, each word by the shape of its operands and its relation. -/
theorem comparesAndPredicatesComplete : Obligations.ComparesAndPredicatesComplete := by
  unfold Obligations.ComparesAndPredicatesComplete
  refine fun g p a b x y d s => ⟨fun hr => ?_, fun hr => ?_, pnot_done, ptov_done, vtop_done⟩
  · exact ⟨laneDone_cmp hr (exec_icmpeq ..) fun _ _ => rfl, laneDone_cmp hr (exec_icmpne ..) fun _ _ => rfl,
      laneDone_cmp hr (exec_icmplt ..) fun _ _ => BitVec.slt_eq_decide, laneDone_cmp hr (exec_icmple ..) fun _ _ => BitVec.sle_eq_decide,
      laneDone_cmp hr (exec_ucmplt ..) fun _ _ => BitVec.ult_eq_decide, laneDone_cmp hr (exec_ucmple ..) fun _ _ => BitVec.ule_eq_decide⟩
  · exact ⟨laneDone_pred hr (exec_pand ..), laneDone_pred hr (exec_por ..), laneDone_pred hr (exec_pxor ..)⟩

end Sys2Proof.Machine
end

section
/-!
PROOFS. Conversions, QSCALE and the lane exchanges (R16, R105 to R119).
-/

namespace Sys2Proof.Machine

/-! ### The warp at issue and past the word (R82) -/

/-- Passing a word leaves every register of every lane. -/
theorem getV_past (s : State) (l n : Nat) : (s.past.lane l).getV n = (s.issuer.lane l).getV n := by
  rw [lane_past, State.joined, Warp.joinGroup, lane_mapLanes]
  split
  · dsimp only
    split <;> rfl
  · rfl

/-- Losing its latches leaves a thread waiting for the same registers: only where its results go has changed. -/
theorem awaits_dropLatches (t : Thread) (regs : List Nat) : t.dropLatches.awaits regs [] = t.awaits regs [] := by
  have hnone : ∀ k, readsLatch [] k = false := fun k => by simp [readsLatch]
  simp only [Thread.awaits, Thread.dropLatches, List.any_map, hnone]
  rfl

/-- Passing a word leaves what every lane's loads have yet to deliver to registers. -/
theorem awaits_past (s : State) (l : Nat) (regs : List Nat) :
    (s.past.lane l).awaits regs [] = (s.issuer.lane l).awaits regs [] := by
  rw [lane_past, State.joined, Warp.joinGroup, lane_mapLanes]
  split
  · dsimp only
    split
    · rfl
    · exact awaits_dropLatches _ _
  · rfl

/-- The format slots are those of the warp's grid, which passing a word leaves (R71). -/
theorem fslot_past (s : State) (n : Nat) : s.fslot s.past n = s.fslot s.issuer n := rfl

/-! ### Conversions (R105 to R112) -/

section
variable {g : BitVec 3} {d : Dest} {a b : Src} {n : Fin 8} {mode : BitVec 4} {s : State}

section
variable (hr : laneReady g true (destRegs d ++ srcRegs a) (lcLatches (s.fslot s.issuer n.val) ++ srcLatches a) s = true)
include hr

/-- CVTN (R110, R111). -/
theorem cvtn_done :
    LaneDone (.cvtn g d a n mode) g s (floatOf d fun w l t =>
      cvtn (s.fslot s.issuer n.val) ((t.l0.getD 0#32).setWidth 8) mode w.u.fcr (src a w l t)) :=
  laneDone_of hr (exec_cvtn ..) fun l => by
    obtain ⟨ha, -, -, hd⟩ := operands_of_ready hr s.past l
    simp only [ha, hd]
    rfl

/-- CVTW (R110, R112). -/
theorem cvtw_done :
    LaneDone (.cvtw g d a n mode) g s (floatOf d fun w l t =>
      cvtw (s.fslot s.issuer n.val) ((t.l0.getD 0#32).setWidth 8) w.u.fcr (src a w l t)) :=
  laneDone_of hr (exec_cvtw ..) fun l => by
    obtain ⟨ha, -, -, hd⟩ := operands_of_ready hr s.past l
    simp only [ha, hd]
    rfl

end

/-! ### QSCALE (R76, R113) -/

/-- What QSCALE chooses a byte for: x of the lanes in which it acts, and +0 of the others. -/
def State.qscaleInputs (s : State) (g : BitVec 3) (a : Src) : List FVal :=
  (List.range 32).map fun l =>
    if s.acts g l then f32.flush (fzOf s.issuer) (f32.decode (src a s.past l (s.past.lane l)).toNat) else FVal.zero

/-- QSCALE gives every lane in which it acts the byte chosen over the warp. -/
theorem qscale_done {byte : Byte} {nv : Bool} (hr : oneReady g d a s = true)
    (hq : qscale (s.fslot s.past n.val) (lcMode mode s.issuer.u.fcr) (s.qscaleInputs g a) = (byte, nv)) :
    LaneDone (.qscale g d a n mode) g s fun _ _ _ t => (t.result d (byte.setWidth 32), nvIf nv) := by
  have hop : ∀ l, opA s.stands.cur s.past l a = src a s.past l (s.past.lane l) := fun l => (operands_of_ready hr s.past l).1 a
  refine laneDone_of_body (f := fun c _ _ t => (t.deliver c d (byte.setWidth 32), nvIf nv)) hr
    ((exec_qscale ..).trans (by rw [execQscale])) ?_ fun l => ?_
  · rw [State.qscaleInputs, fzOf, fslot_past] at hq
    simp only [stands_issuer, getLsbD_actMask, hop, past_u, State.issuer] at hq ⊢
    rw [hq]
  · obtain ⟨-, -, -, hd⟩ := operands_of_ready hr s.past l
    simp only [hd]

end

/-! ### Lane exchanges (R115 to R119) -/

section
variable {i : Instr} {g : BitVec 3} {d : Dest} {a : Fin 120} {b : Src} {x : Fin 8} {s : State}

/-- The k of LSWAP and HSWAP in a warp whose lanes of a mask act (R117). -/
def swapDist (m : Word) (b : Src) (w : Warp) : Nat :=
  (src b w ((lanesOf m).headD 0) (w.lane ((lanesOf m).headD 0))).toNat % 32

section
variable (hr : laneReady g true (destRegs d ++ [a.val] ++ srcRegs b) (srcLatches b) s = true)
include hr

/-- The lane that every lane exchanges with lies at the distance that the lowest acting lane gives (R117). -/
theorem swapK_issued : swapK s.issued.cur s.past (s.actMask g) b = swapDist (s.actMask g) b s.past := by
  obtain ⟨-, hb, -, -⟩ := operands_of_ready hr s.past ((lanesOf (s.actMask g)).headD 0)
  rw [swapK, hb]
  rfl

variable (hl : ((lanesOf allLanes).any fun l => (s.past.lane l).awaits [a.val] []) = false)
include hl

/-- An exchange gives each lane a value made of the register of the warp's lanes as it stood at issue. -/
theorem laneDone_exchange {f : Cur → Warp → Word → (Nat → Word) → Nat → Word} {h : Warp → Nat → Thread → Word}
    (he : exec i s = laneExchange g d a b f s)
    (hf : ∀ l, f s.issued.cur s.past (s.actMask g) (fun m => (s.past.lane m).getV a.val) l = h s.past l (s.past.lane l)) :
    LaneDone i g s (resultOf d h) := by
  have hno : ((lanesOf allLanes).any fun l => (s.issuer.lane l).awaits [a.val] []) = false := by
    simpa only [awaits_past] using hl
  have hrep := laneReady_replay hr
  refine laneDone_of_body (f := fun c w l t => (t.deliver c d (f c w (s.actMask g) (fun m => peer c s.issuer m a.val) l), 0#32)) hr
    (he.trans (by rw [laneExchange])) (if_neg (Bool.eq_false_iff.mp hno)) fun l => ?_
  obtain ⟨-, -, -, hd⟩ := operands_of_ready hr s.past l
  simp only [hd, peer, hrep, ← getV_past, hf]
  rfl

/-- SHFL (R116). -/
theorem shfl_done :
    LaneDone (.shfl g d a b) g s (resultOf d fun w l t => (w.lane ((src b w l t).toNat % 32)).getV a.val) :=
  laneDone_exchange hr hl (exec_shfl ..) fun l => by
    obtain ⟨-, hb, -, -⟩ := operands_of_ready hr s.past l
    simp only [hb]

/-- LSWAP (R117). -/
theorem lswap_done :
    LaneDone (.lswap g d a b) g s (resultOf d fun w l _ => (w.lane (l ^^^ swapDist (s.actMask g) b w)).getV a.val) :=
  laneDone_exchange hr hl (exec_lswap ..) fun l => by
    simp only [swapK_issued hr]

/-- HSWAP (R118). -/
theorem hswap_done :
    LaneDone (.hswap g d a b) g s (resultOf d fun w l t =>
      hswapWord (t.getV a.val) ((w.lane (l ^^^ swapDist (s.actMask g) b w)).getV a.val) l (l ^^^ swapDist (s.actMask g) b w)) :=
  laneDone_exchange hr hl (exec_hswap ..) fun l => by
    simp only [swapK_issued hr]

end

/-- BALLOT (R119). -/
theorem ballot_done (hr : laneReady g true (destRegs d ++ predRegs x.val) [] s = true) :
    LaneDone (.ballot g d x) g s (resultOf d fun w _ _ => maskOf fun l => s.acts g l && (w.lane l).getP x.val) := by
  refine laneDone_of_body (f := fun c _ _ t => (t.deliver c d (maskOf fun l => s.acts g l && (s.past.lane l).getP x.val), 0#32)) hr
    ((exec_ballot ..).trans (by rw [execBallot])) ?_ fun l => ?_
  · simp only [stands_issuer, Warp.lanesWhere, getLsbD_actMask]
  · obtain ⟨-, -, -, hd⟩ := operands_of_ready hr s.past l
    simp only [hd]
    rfl

end

/-- Settles O4, each word by the shape of its operands or by what its lanes read of each other at issue. -/
theorem conversionsAndExchangesComplete : Obligations.ConversionsAndExchangesComplete := by
  unfold Obligations.ConversionsAndExchangesComplete
  refine ⟨fun g d a b n mode s => ⟨fun hr => ?_, fun hr => ?_, fun hr => ⟨cvtn_done hr, cvtw_done hr⟩⟩,
    fun g d a b x s => ⟨fun hr hl => ⟨shfl_done hr hl, lswap_done hr hl, hswap_done hr hl⟩, ballot_done⟩⟩
  · exact ⟨laneDone_float1 hr (exec_cvtfi ..), laneDone_float1 hr (exec_cvtif ..), laneDone_float1 hr (exec_upklo ..),
      laneDone_float1 hr (exec_upkhi ..), _, _, qscale_done hr rfl, fun _ => rfl⟩
  · exact ⟨laneDone_float2 hr (exec_pkbf ..), laneDone_float2 hr (exec_pkhf ..), laneDone_float2 hr (exec_cvtsr ..)⟩

end Sys2Proof.Machine
end

section
/-!
PROOFS. G-set words that end the regions of their members, where no member is in one; what a change of a tile leaves (R131, R177).
-/

namespace Sys2Proof.Machine

/-! ### Words of any kind that are ready, by what their bodies come to (R143) -/

section
variable {q : BitVec 3} {on : Where} {it ix : InReg} {s : State} {body : State → GRes} (h : uniReady q s = true)
  (hon : (on == .simtOnly && s.issuer.reck || on == .reckOnly && !s.issuer.reck) = false)
  (hreg : ∀ l ∈ lanesOf s.cur.members, regCode (s.joined.lane l) it ix = none)
include h hon hreg

theorem issueG_done {t : State} (hb : body s.stands = .done t) : issueG q true on it ix false body s = .next t := by
  rw [issueG_ready q true on it ix false body s h hon rfl hreg Bool.noConfusion, hb]

/-- A word that waits changes the state before it alone. -/
theorem issueG_queued {f : State → State} (hb : body s.stands = .queued f) : issueG q true on it ix false body s = .next (f s) := by
  rw [issueG_ready q true on it ix false body s h hon rfl hreg Bool.noConfusion, hb]

/-- A trap of the whole group at the word, once its older words have finished (R287, R288). -/
theorem issueG_trapWord {cause : Nat} {taddr : DWord} (hq : s.quiet = true) (hb : body s.stands = trapWord s.stands cause taddr) :
    issueG q true on it ix false body s =
      .next (s.stands.raiseLanes s.cur.u s.cur.members s.cur.pc [] fun _ => trapRec cause taddr) := by
  have hbusy : s.past.busy s.cur.members = false := by
    rw [busy_past]
    simpa [State.quiet] using hq
  have hrep : s.stands.cur.replay.toList = [] := congrArg Option.toList (uniReady_replay h)
  rw [issueG_ready q true on it ix false body s h hon rfl hreg Bool.noConfusion, hb]
  unfold trapWord raiseGroup
  simp only [stands_unit, hbusy, hrep, Bool.false_eq_true, if_false]
  rfl

end

/-- Outside regions a word ends none. -/
theorem regCode_of_noRegion {s : State} (hr : s.noRegion = true) (it ix : InReg) :
    ∀ l ∈ lanesOf s.cur.members, regCode (s.joined.lane l) it ix = none := by
  intro l hl
  simp only [State.noRegion, List.all_eq_true, Bool.not_eq_true'] at hr
  exact regCode_out _ it ix (hr l hl)

/-- A fault that the issuer does not hold is none that its word reports (R142). -/
theorem pendingFault_past {s : State} {hit : Held → Bool} (h : s.issuer.held.all (fun x => !(hit x)) = true) :
    s.past.pendingFault hit = none := by
  rw [Warp.pendingFault, List.find?_eq_none]
  intro x hx
  simpa using List.all_eq_true.mp h x hx

/-- A word that leaves its unit past the word has done nothing to the uniform state. -/
theorem went_of_unit {s t : State} (ht : t.unit s.cur.u = s.past) : Went s t id := by
  rw [Went, ht]
  exact ⟨rfl, fun _ => rfl⟩

/-- A word that changes the uniform state of its unit alone. -/
theorem went_modUni {s t : State} (ht : t.unit s.cur.u = s.past) (f : Uni → Uni) : Went s (t.modUni s.cur.u f) f := by
  rw [Went, State.modUni, unit_modUnit, if_pos rfl, ht]
  exact ⟨rfl, fun _ => rfl⟩

/-! ### A change of a tile (R131) -/

section
variable (s : State) (tm t : Nat) (f : TileEnt → TileEnt)

/-- A change of a tile is one of its team, after which lanes go on that waited for the tile. -/
theorem modTile_induction {P : State → Prop} (hteam : P (s.modTeam tm fun x => { x with tiles := Tab.mod TileEnt.init x.tiles t f }))
    (hwake : ∀ (x : State) (u : Nat) (m : Word), P x → P (x.modLanes u m fun _ y => { y with wait := .none })) :
    P (s.modTile tm t f) := by
  unfold State.modTile
  refine List.foldlRecOn _ _ hteam fun x hx u _ => ?_
  dsimp only
  split
  · split
    · exact hx
    · exact hwake x u _ hx
  · exact hx

theorem modTile_teams : (s.modTile tm t f).teams = (s.modTeam tm fun x => { x with tiles := Tab.mod TileEnt.init x.tiles t f }).teams :=
  modTile_induction s tm t f (P := fun x => x.teams = _) rfl fun _ _ _ hx => hx

@[simp] theorem modTile_cmds : (s.modTile tm t f).cmds = s.cmds :=
  modTile_induction s tm t f (P := fun x => x.cmds = s.cmds) rfl fun _ _ _ hx => hx

/-- A change of a tile changes no more of a unit than its threads. -/
theorem unit_modTile (v : Nat) : ∃ th, (s.modTile tm t f).unit v = { s.unit v with th } := by
  refine modTile_induction s tm t f (P := fun x => ∃ th, x.unit v = { s.unit v with th }) ⟨_, rfl⟩ ?_
  rintro x u m ⟨th, hx⟩
  rw [State.modLanes, unit_modUnit]
  split
  · rename_i huv
    subst huv
    rw [hx]
    exact ⟨_, rfl⟩
  · exact ⟨th, hx⟩

theorem team_modTile (n : Nat) :
    (s.modTile tm t f).team n = if n = tm then { s.team tm with tiles := Tab.mod TileEnt.init (s.team tm).tiles t f } else s.team n :=
  (congrArg (fun x => Tab.get Team.init x n) (modTile_teams s tm t f)).trans (team_modTeam _ _ _ _)

theorem tile_modTile (n : Nat) : (s.modTile tm t f).tile tm n = if n = t then f (s.tile tm t) else s.tile tm n := by
  rw [State.tile, team_modTile, if_pos rfl]
  exact Tab.get_mod _ _ _ _ _

theorem modTile_team_st (n : Nat) : ((s.modTile tm t f).team n).st = (s.team n).st := by
  rw [team_modTile]
  split
  · rename_i hn
    rw [hn]
  · rfl

end

end Sys2Proof.Machine
end

section
/-!
PROOFS. Tile words, and what engine words queue, raise or wait for (R129 to R132, R140, R142, R176 to R182).
-/

namespace Sys2Proof.Machine

/-! ### The checks that tile words share (R142, R177) -/

/-- A tile that no held fault of the issuer names is not reported (R142). -/
theorem naming_of_free {s : State} {tm t : Nat} (hf : s.issuer.held.all (fun h => !(h.team == tm && h.tile == some t)) = true) (k : GRes) :
    naming s.stands tm t k = k := by
  simp only [naming, stands_issuer, pendingFault_past hf]

section
variable {q : BitVec 3} {r : InReg} {s : State} {tm : Nat} {f : State → Nat → GRes} (h : uniReady q s = true)
  (hreg : ∀ l ∈ lanesOf s.cur.members, regCode (s.joined.lane l) r r = none) (ht : s.stands.tileTeam s.past = some tm)
include h hreg ht

theorem tileWord_done {t : State} (hb : f s.stands tm = .done t) : tileWord q r f s = .next t :=
  issueG_done h rfl hreg (by simp only [stands_issuer, ht, hb])

theorem tileWord_waits {t : Nat} (hb : f s.stands tm = tileWait t) :
    tileWord q r f s = .next (s.modLanes s.cur.u s.cur.members fun _ x => { x with wait := .tile t }) :=
  issueG_queued (on := .both) (f := fun s => s.modLanes s.cur.u s.cur.members fun _ x => { x with wait := .tile t }) h rfl hreg
    (by simp only [stands_issuer, ht, hb, tileWait])

theorem tileWord_traps {cause : Nat} {taddr : DWord} (hq : s.quiet = true) (hb : f s.stands tm = trapWord s.stands cause taddr) :
    tileWord q r f s = .next (s.stands.raiseLanes s.cur.u s.cur.members s.cur.pc [] fun _ => trapRec cause taddr) :=
  issueG_trapWord h rfl hreg hq (by simp only [stands_issuer, ht, hb])

end

/-! ### Tile words (R130, R179 to R181) -/

section
variable {q : BitVec 3} {d t a b : Fin 64} {s : State} {tm : Nat} (h : uniReady q s = true) (ht : s.stands.tileTeam s.past = some tm)
  (hf : s.issuer.held.all (fun h => !(h.team == tm && h.tile == some t.val)) = true)
include h ht hf

/-- TILEDEF and METADEF (R179). -/
theorem defTile_done (kind : Bool) (hr : s.noRegion = true) (hF : (s.tile tm t.val).f = false) (he : (s.tile tm t.val).st = .empty)
    (hbase : (s.issuer.u.getS a.val).toNat % 256 = 0) (hext : 0 < (s.issuer.u.getS b.val).toNat)
    (hwin : (s.issuer.u.getS a.val).toNat + (s.issuer.u.getS b.val).toNat ≤ (s.team tm).win) :
    defTile q kind t a b s = .next (s.stands.modTile tm t.val fun e =>
      { e with base := (s.issuer.u.getS a.val).toNat, extent := (s.issuer.u.getS b.val).toNat, kind, f := false }) := by
  have hplace : ¬ ((s.issuer.u.getS a.val).toNat % 256 ≠ 0 ∨ (s.issuer.u.getS b.val).toNat = 0 ∨
      (s.team tm).win < (s.issuer.u.getS a.val).toNat + (s.issuer.u.getS b.val).toNat) := by
    omega
  refine tileWord_done h (regCode_of_noRegion hr _ _) ht ((naming_of_free hf _).trans ?_)
  simp only [stands_issuer, past_u]
  refine (if_neg (Bool.eq_false_iff.mp hF)).trans ((if_neg ?_).trans (if_neg hplace))
  exact not_not_intro he

/-- TILEREL of a READY tile without readers (R180). -/
theorem tilerel_done (hr : s.noRegion = true) (he : (s.tile tm t.val).st = .ready ∧ (s.tile tm t.val).readers = 0) :
    exec (.tilerel q t) s = .next (s.stands.modTile tm t.val fun e => { e with st := .empty }) := by
  rw [exec_tilerel, execTilerel]
  exact tileWord_done h (regCode_of_noRegion hr _ _) ht ((naming_of_free hf _).trans (if_pos he))

theorem tilerel_waits (hr : s.noRegion = true) (he : ¬ ((s.tile tm t.val).st = .ready ∧ (s.tile tm t.val).readers = 0)) :
    exec (.tilerel q t) s = .next (s.modLanes s.cur.u s.cur.members fun _ x => { x with wait := .tile t.val }) := by
  rw [exec_tilerel, execTilerel]
  exact tileWord_waits h (regCode_of_noRegion hr _ _) ht ((naming_of_free hf _).trans (if_neg he))

/-- TSTATE, which at a READY tile acquires what its completion released: the agents' orders change, and the uniform state (R132, R181). -/
theorem tstate_done : ∃ r, exec (.tstate q d t) s = .next r ∧ ∃ ord,
    r = ({ s.stands with order := ord } : State).modUni s.cur.u fun u => u.setS d.val (tstateWord (s.tile tm t.val)) := by
  rw [exec_tstate, execTstate]
  refine ⟨_, tileWord_done h (fun _ _ => regCode_acts _) ht ((naming_of_free hf _).trans rfl), ?_⟩
  split
  · split <;> exact ⟨_, rfl⟩
  all_goals exact ⟨_, rfl⟩

end

/-- The fields of TSTATE's word, from its lowest on (R181). -/
theorem tstateWord_eq (e : TileEnt) :
    tstateWord e = BitVec.ofNat 32 (e.st.num + (if e.kind then 4 else 0) + 8 * (e.readers % 256) + 2048 * (e.base / 256)) := by
  unfold tstateWord
  congr 1
  omega

/-- Settles O22, word by word. -/
theorem tileWordsComplete : Obligations.TileWordsComplete := by
  unfold Obligations.TileWordsComplete
  intro q d t a b tm s h ht hf
  refine ⟨fun hr hF he hbase hext hwin => ⟨?_, ?_⟩, tilerel_done h ht hf, tilerel_waits h ht hf, ?_⟩
  · exact (exec_tiledef ..).trans (defTile_done h ht hf false hr hF he hbase hext hwin)
  · exact (exec_metadef ..).trans (defTile_done h ht hf true hr hF he hbase hext hwin)
  · obtain ⟨r, hexec, ord, rfl⟩ := tstate_done (d := d) h ht hf
    refine ⟨_, hexec, rfl, rfl, ?_⟩
    rw [tstateWord_eq]
    exact went_modUni (t := { s.stands with order := ord }) (stands_unit s) _

/-! ### Engine words at issue (R140, R176, R182) -/

/-- A register pair of the issuer, 0 where the word names none. -/
def Uni.pairAt (u : Uni) : Option (Fin 8) → DWord
  | some n => u.getPair n.val
  | none => 0#64

/-- A scalar register of the issuer, 0 where the word names none. -/
def Uni.wordAt (u : Uni) : Option (Fin 64) → Word
  | some r => u.getS r.val
  | none => 0#32

/-- An engine word past the checks of its tile: those of its record and of its chain (R182), and then its command. -/
def queueCmd (s : State) (tm : Nat) (op : CmdOp) (tile : Option Nat) (p p2 : DWord) (v : Word) : GRes :=
  recordRule s tm op v
    (if s.chainFull tm op.cls || (s.unit s.cur.u).busy allLanes then .wait else .done (s.addCmd tm op tile p p2 v))

section
variable (q : BitVec 3) (op : CmdOp) (bp bp2 : Option (Fin 8)) (b : Option (Fin 64))

theorem engineWord_tiled (t : Fin 64) :
    engineWord q op (some t) bp bp2 b = tileWord q (.ends Config.abDisallowed) fun s tm =>
      naming s tm t.val (tileRule s tm op t.val (queueCmd s tm op (some t.val) ((s.unit s.cur.u).u.pairAt bp)
        ((s.unit s.cur.u).u.pairAt bp2) ((s.unit s.cur.u).u.wordAt b))) := by
  cases bp <;> cases bp2 <;> cases b <;> rfl

theorem engineWord_untiled :
    engineWord q op none bp bp2 b = tileWord q (.ends Config.abDisallowed) fun s tm =>
      queueCmd s tm op none ((s.unit s.cur.u).u.pairAt bp) ((s.unit s.cur.u).u.pairAt bp2) ((s.unit s.cur.u).u.wordAt b) := by
  cases bp <;> cases bp2 <;> cases b <;> rfl

end

/-! ### The checks of an engine word, one by one (R131, R140, R182) -/

/-- CPYIN and GATHER, which fill their tile. -/
def CmdOp.fills : CmdOp → Bool
  | .cpyin | .gather => true
  | _ => false

/-- CPYOUT and SCATTER, which drain their tile. -/
def CmdOp.drains : CmdOp → Bool
  | .cpyout | .scatter => true
  | _ => false

section
variable {s : State} {tm t : Nat} {op : CmdOp}

/-- A word that fills its tile asks for an EMPTY one with an extent (R131). -/
theorem tileRule_fills (ho : op.fills = true) (k : GRes) :
    tileRule s tm op t k =
      if (s.tile tm t).st ≠ .empty then tileState s 7 else if (s.tile tm t).extent = 0 then tileBounds s t else k := by
  cases op with
  | cpyin | gather => rfl
  | _ => exact Bool.noConfusion (ho : false = true)

/-- A word that drains its tile asks for a READY one, and waits for it (R131). -/
theorem tileRule_drains (ho : op.drains = true) (k : GRes) :
    tileRule s tm op t k = if (s.tile tm t).st = .ready then k else tileWait t := by
  cases op with
  | cpyout | scatter => rfl
  | _ => exact Bool.noConfusion (ho : false = true)

/-- The tile is as a word asks that fills or drains it (R131). -/
def TileEnt.suits (e : TileEnt) (op : CmdOp) : Prop :=
  (op.fills = true → e.st = .empty ∧ 0 < e.extent) ∧ (op.drains = true → e.st = .ready)

theorem tileRule_of_suits (h : (s.tile tm t).suits op) (k : GRes) : tileRule s tm op t k = k := by
  obtain ⟨hfill, hdrain⟩ := h
  cases op with
  | cpyin | gather =>
    obtain ⟨he, hext⟩ := hfill rfl
    rw [tileRule_fills rfl, if_neg (not_not_intro he), if_neg (Nat.ne_of_gt hext)]
  | cpyout | scatter => rw [tileRule_drains rfl, if_pos (hdrain rfl)]
  | _ => rfl

/-- The record is aligned and inside the window, if the word has one there (R182). -/
def State.recordFits (s : State) (tm : Nat) (op : CmdOp) (v : Word) : Prop :=
  op.recordLen = 0 ∨ v.toNat % 64 = 0 ∧ v.toNat + op.recordLen ≤ (s.team tm).win

variable {v : Word} (k : GRes)

theorem recordRule_of_fits (h : s.recordFits tm op v) : recordRule s tm op v k = k := by
  unfold recordRule
  split
  · rfl
  · rename_i hlen
    obtain ⟨hal, hwin⟩ := h.resolve_left hlen
    rw [if_neg (not_not_intro hal), if_neg (Nat.not_lt.mpr hwin)]

theorem recordRule_misaligned (hlen : op.recordLen ≠ 0) (hal : v.toNat % 64 ≠ 0) :
    recordRule s tm op v k = trapWord s Config.causeMisaligned (v.setWidth 64) := by
  rw [recordRule, if_neg hlen, if_pos hal]

theorem recordRule_outside (hlen : op.recordLen ≠ 0) (hal : v.toNat % 64 = 0) (hwin : (s.team tm).win < v.toNat + op.recordLen) :
    recordRule s tm op v k = trapWord s Config.causeProtection (v.setWidth 64) := by
  rw [recordRule, if_neg hlen, if_neg (not_not_intro hal), if_pos hwin]

end

/-! ### The command that is queued (R140, R182) -/

section
variable {s : State} {tm : Nat} {op : CmdOp} {tile : Option Nat} {p p2 : DWord} {v : Word}

/-- A command is appended with what it captures, and its tile moves (R131, R140): `r` is the state past the word with it. -/
def QueuesCmd (s r : State) (tm : Nat) (op : CmdOp) (tile : Option Nat) (p p2 : DWord) (v : Word) (c : Cmd) : Prop :=
  r.mem = s.mem ∧ r.cmds = s.cmds ++ [c] ∧ c.id = s.nextId ∧ c.u = s.cur.u ∧ c.team = tm ∧
    c.cls = op.cls ∧ c.op = op ∧ c.tile = tile ∧ c.bp = p ∧ c.bp2 = p2 ∧ c.sval = v ∧ c.ccnt = s.issuer.u.ccnt ∧ c.st = .queued ∧
    (r.unit s.cur.u).u = s.issuer.u ∧
    ∀ n, r.tile tm n = if tile = some n then op.accept (s.tile tm n) else s.tile tm n

theorem addCmd_queues (s : State) (tm : Nat) (op : CmdOp) (tile : Option Nat) (p p2 : DWord) (v : Word) :
    ∃ c, QueuesCmd s (s.stands.addCmd tm op tile p p2 v) tm op tile p p2 v c := by
  have hu : (s.stands.unit s.stands.cur.u).u = s.issuer.u := by rw [stands_issuer, past_u]
  cases tile with
  | none => exact ⟨_, rfl, rfl, rfl, rfl, rfl, rfl, rfl, rfl, rfl, rfl, rfl, congrArg Uni.ccnt hu, rfl, hu, fun n => rfl⟩
  | some t =>
    refine ⟨_, addCmd_mem .., modTile_cmds .., rfl, rfl, rfl, rfl, rfl, rfl, rfl, rfl, rfl, congrArg Uni.ccnt hu, rfl, ?_, fun n => ?_⟩
    · obtain ⟨th, hth⟩ := unit_modTile _ tm t op.accept s.cur.u
      exact (congrArg Warp.u hth).trans hu
    · refine (tile_modTile _ tm t op.accept n).trans ?_
      by_cases hn : n = t
      · subst hn
        rw [if_pos rfl, if_pos rfl]
        rfl
      · rw [if_neg hn, if_neg fun h => hn (Option.some.inj h).symm]
        rfl

/-- A word whose record fits and whose chain has room, and whose unit's older words have finished, queues its command. -/
theorem queueCmd_done (hc : s.calm = true) (hr : s.recordFits tm op v)
    (hroom : (s.cmds.filter fun c => c.team == tm && c.cls == op.cls).length < 16) :
    queueCmd s.stands tm op tile p p2 v = .done (s.stands.addCmd tm op tile p p2 v) := by
  have hbusy : s.past.busy allLanes = false := by
    rw [busy_past]
    simpa [State.calm] using hc
  have hchain : s.stands.chainFull tm op.cls = false := decide_eq_false (Nat.not_le.mpr hroom)
  refine (recordRule_of_fits (s := s.stands) _ hr).trans ?_
  simp only [stands_issuer, hbusy, hchain, Bool.or_self, Bool.false_eq_true, if_false]

end

/-! ### The tile that an engine word names, if it names one (R131, R142) -/

/-- The tile of a word is as it asks, and no held fault of the issuer names it. -/
def State.tileSuits (s : State) (tm : Nat) (op : CmdOp) (t : Option (Fin 64)) : Prop :=
  ∀ x ∈ t, s.issuer.held.all (fun h => !(h.team == tm && h.tile == some x.val)) = true ∧ (s.tile tm x.val).suits op

theorem tileSuits_none {s : State} {tm : Nat} {op : CmdOp} : s.tileSuits tm op none := by
  rintro _ ⟨⟩

section
variable {s : State} {tm : Nat} {op : CmdOp} {t : Fin 64}
  (hf : s.issuer.held.all (fun h => !(h.team == tm && h.tile == some t.val)) = true)
include hf

theorem tileSuits_of_empty (ho : op.drains = false) (he : (s.tile tm t.val).st = .empty) (hext : 0 < (s.tile tm t.val).extent) :
    s.tileSuits tm op (some t) := by
  rintro _ ⟨⟩
  exact ⟨hf, fun _ => ⟨he, hext⟩, fun hd => absurd hd (Bool.eq_false_iff.mp ho)⟩

theorem tileSuits_of_ready (ho : op.fills = false) (he : (s.tile tm t.val).st = .ready) : s.tileSuits tm op (some t) := by
  rintro _ ⟨⟩
  exact ⟨hf, fun hd => absurd hd (Bool.eq_false_iff.mp ho), fun _ => he⟩

end

/-! ### Engine words that queue, trap or wait (R131, R142, R182) -/

section
variable {q : BitVec 3} {op : CmdOp} {bp bp2 : Option (Fin 8)} {b : Option (Fin 64)} {s : State} {tm : Nat} {i : Instr}
  (h : uniReady q s = true) (hn : s.noRegion = true) (ht : s.stands.tileTeam s.past = some tm)
include h hn ht

section
variable {t : Option (Fin 64)} (he : exec i s = engineWord q op t bp bp2 b s)
  (htile : s.tileSuits tm op t)
include he htile

omit h hn ht in
/-- Past the checks of its tile, if it names one, an engine word is one that queues its command. -/
theorem engineWord_suited : ∃ f, exec i s = tileWord q (.ends Config.abDisallowed) f s ∧
    f s.stands tm = queueCmd s.stands tm op (t.map (·.val)) (s.issuer.u.pairAt bp) (s.issuer.u.pairAt bp2) (s.issuer.u.wordAt b) := by
  cases t with
  | none =>
    refine ⟨_, he.trans (congrFun (engineWord_untiled ..) s), ?_⟩
    simp only [stands_issuer, past_u]
    rfl
  | some t =>
    obtain ⟨hfree, hsuits⟩ := htile t rfl
    refine ⟨_, he.trans (congrFun (engineWord_tiled ..) s),
      (naming_of_free hfree _).trans ((tileRule_of_suits (s := s.stands) hsuits _).trans ?_)⟩
    simp only [stands_issuer, past_u]
    rfl

theorem engineWord_queues (hc : s.calm = true) (hrec : s.recordFits tm op (s.issuer.u.wordAt b))
    (hroom : (s.cmds.filter fun c => c.team == tm && c.cls == op.cls).length < 16) :
    ∃ r c, exec i s = .next r ∧
      QueuesCmd s r tm op (t.map (·.val)) (s.issuer.u.pairAt bp) (s.issuer.u.pairAt bp2) (s.issuer.u.wordAt b) c := by
  obtain ⟨f, hexec, hbody⟩ := engineWord_suited he htile
  obtain ⟨c, hqueues⟩ := addCmd_queues s tm op (t.map (·.val)) (s.issuer.u.pairAt bp) (s.issuer.u.pairAt bp2) (s.issuer.u.wordAt b)
  refine ⟨_, c, hexec.trans (tileWord_done h (regCode_of_noRegion hn _ _) ht (hbody.trans (queueCmd_done hc hrec hroom))), hqueues⟩

/-- The traps of a word whose record is not as it must be (R182). -/
theorem engineWord_placed (hq : s.quiet = true) (hlen : op.recordLen ≠ 0) :
    let v := s.issuer.u.wordAt b
    let traps := fun (cause : Nat) =>
      exec i s = .next (s.stands.raiseLanes s.cur.u s.cur.members s.cur.pc [] fun _ => trapRec cause (v.setWidth 64))
    (v.toNat % 64 ≠ 0 → traps 0x04) ∧ (v.toNat % 64 = 0 → (s.team tm).win < v.toNat + op.recordLen → traps 0x06) := by
  obtain ⟨f, hexec, hbody⟩ := engineWord_suited he htile
  have hreg := regCode_of_noRegion hn (.ends Config.abDisallowed) (.ends Config.abDisallowed)
  exact ⟨fun hal => hexec.trans (tileWord_traps h hreg ht hq (hbody.trans (recordRule_misaligned _ hlen hal))),
    fun hal hwin => hexec.trans (tileWord_traps h hreg ht hq (hbody.trans (recordRule_outside (s := s.stands) _ hlen hal hwin)))⟩

end

section
variable {t : Fin 64} (he : exec i s = engineWord q op (some t) bp bp2 b s)
  (hf : s.issuer.held.all (fun h => !(h.team == tm && h.tile == some t.val)) = true)
include he hf

/-- A word that fills a tile which is not EMPTY (R131, R178). -/
theorem fills_traps_state (ho : op.fills = true) (hq : s.quiet = true) (hst : (s.tile tm t.val).st ≠ .empty) :
    exec i s = .next (s.stands.raiseLanes s.cur.u s.cur.members s.cur.pc [] fun _ => trapRec 0x0A 7#64) := by
  rw [he, engineWord_tiled]
  exact tileWord_traps h (regCode_of_noRegion hn _ _) ht hq
    ((naming_of_free hf _).trans ((tileRule_fills (s := s.stands) ho _).trans (if_pos hst)))

/-- A word that fills a tile without extent (R131, R287). -/
theorem fills_traps_bounds (ho : op.fills = true) (hq : s.quiet = true) (hst : (s.tile tm t.val).st = .empty)
    (hext : (s.tile tm t.val).extent = 0) :
    exec i s = .next (s.stands.raiseLanes s.cur.u s.cur.members s.cur.pc [] fun _ => trapRec 0x09 (BitVec.ofNat 64 t.val)) := by
  rw [he, engineWord_tiled]
  exact tileWord_traps h (regCode_of_noRegion hn _ _) ht hq
    ((naming_of_free hf _).trans ((tileRule_fills (s := s.stands) ho _).trans ((if_neg (not_not_intro hst)).trans (if_pos hext))))

/-- A word that drains a tile waits until it is READY (R131). -/
theorem drains_waits (ho : op.drains = true) (hst : (s.tile tm t.val).st ≠ .ready) :
    exec i s = .next (s.modLanes s.cur.u s.cur.members fun _ x => { x with wait := .tile t.val }) := by
  rw [he, engineWord_tiled]
  exact tileWord_waits h (regCode_of_noRegion hn _ _) ht
    ((naming_of_free hf _).trans ((tileRule_drains (s := s.stands) ho _).trans (if_neg hst)))

end
end

/-- Settles O23: each word by the checks it passes, and by the one it fails. -/
theorem engineWordsQueueOrTrap : Obligations.EngineWordsQueueOrTrap := by
  unfold Obligations.EngineWordsQueueOrTrap
  refine ⟨fun q t bp dp b tm s h hn hc ht => ?_, fun q t bp dp b tm s h hn hq ht hf => ?_⟩
  · refine ⟨fun hf he hext => ⟨fun hfit => ?_, fun hfit => ?_⟩, fun hf he => ⟨fun hfit => ?_, fun hfit => ?_⟩, fun hfit => ?_,
      fun hfit => ?_, ?_, ?_, ?_, ?_⟩
    · exact engineWord_queues h hn ht (exec_cpyin ..) (tileSuits_of_empty hf rfl he hext) hc (.inr hfit)
    · exact engineWord_queues h hn ht (exec_gather ..) (tileSuits_of_empty hf rfl he hext) hc (.inr hfit)
    · exact engineWord_queues h hn ht (exec_cpyout ..) (tileSuits_of_ready hf rfl he) hc (.inr hfit)
    · exact engineWord_queues h hn ht (exec_scatter ..) (tileSuits_of_ready hf rfl he) hc (.inr hfit)
    · exact engineWord_queues h hn ht (exec_cpygg ..) tileSuits_none hc (.inr hfit)
    · exact engineWord_queues h hn ht (exec_coll ..) tileSuits_none hc (.inr hfit)
    · exact engineWord_queues h hn ht (exec_sealb ..) tileSuits_none hc (.inl rfl)
    · exact engineWord_queues h hn ht (exec_sealu ..) tileSuits_none hc (.inl rfl)
    · exact engineWord_queues h hn ht (exec_sealf ..) tileSuits_none hc (.inl rfl)
    · exact engineWord_queues h hn ht (exec_ckpt ..) tileSuits_none hc (.inl rfl)
  · refine ⟨fun he => ⟨?_, ?_⟩, fun he hext => ⟨?_, ?_⟩, fun he => ⟨?_, ?_⟩, fun he hext => ⟨?_, ?_⟩, fun he => ⟨?_, ?_⟩, ?_, ?_⟩
    · exact fills_traps_state h hn ht (exec_cpyin ..) hf rfl hq he
    · exact fills_traps_state h hn ht (exec_gather ..) hf rfl hq he
    · exact fills_traps_bounds h hn ht (exec_cpyin ..) hf rfl hq he hext
    · exact fills_traps_bounds h hn ht (exec_gather ..) hf rfl hq he hext
    · exact drains_waits h hn ht (exec_cpyout ..) hf rfl he
    · exact drains_waits h hn ht (exec_scatter ..) hf rfl he
    · exact engineWord_placed h hn ht (exec_cpyin ..) (tileSuits_of_empty hf rfl he hext) hq (by decide)
    · exact engineWord_placed h hn ht (exec_gather ..) (tileSuits_of_empty hf rfl he hext) hq (by decide)
    · exact engineWord_placed h hn ht (exec_cpyout ..) (tileSuits_of_ready hf rfl he) hq (by decide)
    · exact engineWord_placed h hn ht (exec_scatter ..) (tileSuits_of_ready hf rfl he) hq (by decide)
    · exact engineWord_placed h hn ht (exec_cpygg ..) tileSuits_none hq (by decide)
    · exact engineWord_placed h hn ht (exec_coll ..) tileSuits_none hq (by decide)

end Sys2Proof.Machine
end

section
/-!
PROOFS. Matrix control words of a Reckoner (R136, R142, R199 to R201).
-/

namespace Sys2Proof.Machine

/-! ### Words that act at once -/

theorem past_coreKey (s : State) : s.past.coreKey = s.issuer.coreKey := rfl
theorem past_grid (s : State) : s.past.grid = s.issuer.grid := rfl

section
variable {q : BitVec 3} {c : Fin 4} {s : State} (h : uniReady q s = true) (hn : s.noRegion = true) (hk : s.issuer.reck = true)

section
include h hn hk

/-- A matrix word of a Reckoner outside regions (R56, R177). -/
theorem reckWord_done {f : State → GRes} {t : State} (hb : f s.stands = .done t) : reckWord q f s = .next t :=
  issueG_done h (by rw [hk]; rfl) (regCode_of_noRegion hn _ _) hb

/-- MSEL of a quad of the launch's team (R200). -/
theorem msel_done {a : Fin 64} {tm : Nat} (ht : s.stands.teamOn s.issuer.grid (s.issuer.coreKey + c.val) = some tm)
    (hquad : (s.issuer.u.getS a.val).toNat + 3 < (s.team tm).warps.length) :
    exec (.msel q c a) s = .next (s.stands.modCore (s.issuer.coreKey + c.val) fun x =>
      { x with bind := some (tm, (s.issuer.u.getS a.val).toNat), hold := none }) := by
  rw [exec_msel, execMsel]
  refine reckWord_done h hn hk ?_
  simp only [stands_issuer, past_u, past_grid, past_coreKey, ht]
  exact if_neg (Nat.not_le.mpr hquad)

/-- MREL (R200). -/
theorem mrel_done :
    exec (.mrel q c) s = .next (s.stands.modCore (s.issuer.coreKey + c.val) fun x => { x with hold := none }) := by
  rw [exec_mrel, execMrel]
  refine reckWord_done h hn hk ?_
  rw [stands_issuer]
  rfl

/-- MWAIT, when no matrix instruction is open and none has faulted (R142, R201). -/
theorem mwait_done {co : Option (Fin 4)} (hheld : s.issuer.held.all (fun h => !h.failedAdd && h.cls != 3) = true)
    (hopen : s.matOpen s.cur.u (co.map fun c => s.issuer.coreKey + c.val) = false) :
    exec (.mwait q co) s = .next { s.stands with
      order := ((s.order.acquirePath (.unit s.cur.u) (s.past.mdoneClock (co.map fun c => s.issuer.coreKey + c.val))).endRegion
        (.unit s.cur.u)).1 } := by
  have hnone : s.past.pendingFault (fun h => h.failedAdd || h.cls == 3) = none :=
    pendingFault_past (by simpa only [Bool.not_or, bne] using hheld)
  rw [exec_mwait, execMwait]
  refine reckWord_done h hn hk ?_
  simp only [stands_issuer, hnone]
  exact if_neg (Bool.eq_false_iff.mp hopen)

end

/-! ### Words that queue themselves on a core (R199) -/

/-- What MZERO and MSCALE leave (R199): themselves, last in the queue of core `k`, not started, with their factors. -/
def QueuesOne (s t : State) (k : Nat) (kind : MatKind) (acc : Bool) (factor : Tab Word) (o : MatOp) : Prop :=
  t.mem = s.mem ∧ Went s t id ∧ (t.core k).mq = (s.core k).mq ++ [o] ∧ o.u = s.cur.u ∧ o.kind = kind ∧ o.acc = acc ∧
    o.factor = factor ∧ o.ccnt = s.issuer.u.ccnt ∧ o.started = false

theorem queueOne_queues (s : State) (k : Nat) (kind : MatKind) (acc : Bool) (factor : Tab Word) :
    ∃ o, QueuesOne s (queueOne s.stands k kind acc factor) k kind acc factor o := by
  have hccnt : (s.stands.unit s.stands.cur.u).u.ccnt = s.issuer.u.ccnt := by rw [stands_issuer, past_u]
  exact ⟨_, rfl, went_of_unit (stands_unit s), congrArg Core.mq ((core_modCore _ k k _).trans (if_pos rfl)), rfl, rfl, rfl, rfl, hccnt,
    rfl⟩

/-- The queue of a core has room for one more instruction of a unit (R195). -/
theorem matFull_of_room {s : State} {u k : Nat} (hroom : ((s.core k).mq.filter fun o => o.u == u).length < 8) : s.matFull u k = false :=
  decide_eq_false (Nat.not_le.mpr hroom)

section
variable {acc : Bool} {tm : Nat} (ht : s.stands.teamOn s.issuer.grid (s.issuer.coreKey + c.val) = some tm)
  (hroom : ((s.core (s.issuer.coreKey + c.val)).mq.filter fun o => o.u == s.cur.u).length < 8)
include h hn hk ht hroom

/-- MZERO, with room in the queue of its core. -/
theorem mzero_queues :
    ∃ t o, exec (.mzero q acc c) s = .next t ∧ QueuesOne s t (s.issuer.coreKey + c.val) .mzero acc [] o := by
  obtain ⟨o, ho⟩ := queueOne_queues s (s.issuer.coreKey + c.val) .mzero acc []
  have hfull : s.stands.matFull s.stands.cur.u (s.issuer.coreKey + c.val) = false := matFull_of_room hroom
  refine ⟨_, o, ?_, ho⟩
  rw [exec_mzero, execMzero]
  refine reckWord_done h hn hk ?_
  simp only [stands_issuer, past_grid, past_coreKey, ht, hfull, Option.isNone_some, Bool.false_eq_true, if_false]

/-- MSCALE, whose factors the bound quad holds and is not still to receive (R199). -/
theorem mscale_queues {oct : Fin 15} (hbind : (s.core (s.issuer.coreKey + c.val)).bind.isSome = true)
    (hshort : s.stands.quadShort (s.issuer.coreKey + c.val) (8 * oct.val) (8 * oct.val) = false)
    (hwaits : s.stands.quadWaits (s.issuer.coreKey + c.val) [8 * oct.val] = false) :
    ∃ t o, exec (.mscale q acc oct c) s = .next t ∧
      QueuesOne s t (s.issuer.coreKey + c.val) .mscale acc (s.stands.readRows (s.issuer.coreKey + c.val) oct.val 1) o := by
  obtain ⟨o, ho⟩ := queueOne_queues s (s.issuer.coreKey + c.val) .mscale acc (s.stands.readRows (s.issuer.coreKey + c.val) oct.val 1)
  have hfull : s.stands.matFull s.stands.cur.u (s.issuer.coreKey + c.val) = false := matFull_of_room hroom
  have hbound : (s.stands.core (s.issuer.coreKey + c.val)).bind.isNone = false := by
    rw [← Option.not_isSome]
    exact congrArg not hbind
  refine ⟨_, o, ?_, ho⟩
  rw [exec_mscale, execMscale]
  refine reckWord_done h hn hk ?_
  simp only [stands_issuer, past_grid, past_coreKey, ht, hfull, hbound, hshort, hwaits, Option.isNone_some, Bool.or_self,
    Bool.false_eq_true, if_false]

end
end

/-- Settles O24, word by word. -/
theorem matrixControlCompletes : Obligations.MatrixControlCompletes := by
  unfold Obligations.MatrixControlCompletes
  intro q c co a acc oct tm s h hn hk
  refine ⟨fun ht => ⟨msel_done h hn hk ht, mzero_queues h hn hk ht, ?_⟩, mrel_done h hn hk, fun hheld hopen => ?_⟩
  · exact fun hroom hbind hshort hwaits => mscale_queues h hn hk ht hroom hbind hshort hwaits
  · exact ⟨_, mwait_done h hn hk hheld hopen, rfl, rfl, went_of_unit (stands_unit s)⟩

end Sys2Proof.Machine
end

section
/-!
PROOFS. Engine commands as they start, complete and fault (R131, R140 to R142, R158, R183).
-/

namespace Sys2Proof.Machine

/-! ### What leaves the teams as they were: the way to a counter, and an add to it (R270, R272) -/

theorem sliceIrq_teams (s : State) (sl : Nat) (i : Irq) : (s.sliceIrq sl i).teams = s.teams := by
  grind [State.sliceIrq, modPart_teams]

theorem poisonLine_teams (s : State) (line : Nat) : (s.poisonLine line).teams = s.teams := by
  grind [State.poisonLine, sliceIrq_teams, modSlice_teams]

theorem readHalves_teams (s : State) (line : Nat) (hs : List Nat) : (s.readHalves line hs).1.teams = s.teams := by
  grind [State.readHalves, poisonLine_teams, modSlice_teams]

theorem reachLine_teams (s : State) (key : Nat) (hs : List Nat) (unc : Bool) (cls : Nat) (r : Req) :
    (s.reachLine key hs unc cls r).1.teams = s.teams :=
  (readHalves_teams _ _ _).trans rfl

theorem readWalk_teams (s : State) (ls : List Loc) : (s.readWalk ls).1.teams = s.teams :=
  List.foldlRecOn (motive := fun r : State × Bool => r.1.teams = s.teams) _ _ rfl fun _ hr _ _ => (reachLine_teams _ _ _ _ _ _).trans hr

theorem writeByte_teams (s : State) (k : Nat) (b : Byte) : (s.writeByte k b).teams = s.teams := by
  grind [State.writeByte]

theorem writeBytes_teams (bs : List Byte) (s : State) (k : Nat) : (s.writeBytes k bs).teams = s.teams := by
  induction bs generalizing s k with
  | nil => rfl
  | cons b r ih => exact (ih _ _).trans (writeByte_teams s k b)

theorem setPacked_teams (s : State) (line : Nat) (comp : Bool) : (s.setPacked line comp).teams = s.teams := rfl

theorem setEntryBit_teams (s : State) (sl k bit : Nat) : (s.setEntryBit sl k bit).teams = s.teams := by
  grind [State.setEntryBit, State.putEntry, State.crossing, setPacked_teams, writeBytes_teams, modPart_teams]

theorem translate_teams (s : State) (pn asid sl : Nat) (va : DWord) : (s.translate pn asid sl va).1.teams = s.teams := by
  grind [State.translate, State.translateTable, readWalk_teams, setEntryBit_teams, modSlice_teams]

theorem counterAt_teams (s : State) (pn asid sl : Nat) (va : DWord) : (s.counterAt pn asid sl va).1.teams = s.teams := by
  grind [State.counterAt, translate_teams]

theorem counterAdd_teams (s : State) (pn sl : Nat) (c : CtrRef) (n : DWord) (r : Req) : (s.counterAdd pn sl c n r).teams = s.teams := by
  grind [State.counterAdd, State.counterPut, State.reachCtr, reachLine_teams, writeBytes_teams, setPacked_teams, modPart_teams]

theorem publish_teams (s : State) (a : Agent) (scope : BitVec 2) (loc len : Nat) (v : VC) :
    (publish s a scope loc len v).teams = s.teams := rfl

/-! ### Finding a command, and changing it -/

theorem id_of_cmd {s : State} {id : Nat} {c : Cmd} (h : s.cmd id = some c) : c.id = id :=
  beq_iff_eq.mp (List.find?_some (p := fun k : Cmd => k.id == id) h)

/-- A change of a command that keeps its number is found under it. -/
theorem cmd_modCmd {s : State} {id : Nat} {c : Cmd} {f : Cmd → Cmd} (h : s.cmd id = some c) (hf : ∀ y, y.id = id → (f y).id = id) :
    (s.modCmd id f).cmd id = some (f c) := by
  unfold State.modCmd
  unfold State.cmd at h ⊢
  dsimp only
  revert h
  induction s.cmds with
  | nil => exact fun h => absurd h (by simp)
  | cons a r ih =>
    intro h
    rw [List.find?_cons] at h
    rw [List.map_cons, List.find?_cons]
    by_cases ha : a.id = id
    · simp only [ha, beq_self_eq_true, Option.some.injEq] at h
      simp only [← h, ha, if_true, hf a ha, beq_self_eq_true]
    · simp only [ha, if_false, beq_eq_false_iff_ne.mpr ha] at h ⊢
      exact ih h

/-- Reading its record leaves the commands as they are. -/
theorem readRecord_cmds (s : State) (c : Cmd) : (s.readRecord c).1.cmds = s.cmds := by
  grind [State.readRecord, State.engLocal, noteAccess]

/-! ### Start (R141) -/

/-- A copy or gather command whose record is bad is stopped (R141). -/
theorem startKind_bad {s : State} {c : Cmd} (hop : c.op ∈ [.cpyin, .cpyout, .cpygg, .gather, .scatter]) (hbad : s.copyRecordOk c = false) :
    s.startKind c = (s, .error (.bad (c.sval.setWidth 64))) := by
  unfold State.startKind
  cases ho : c.op with
  | cpyin | cpyout | cpygg | gather | scatter => exact if_pos (congrArg not hbad)
  | coll | ckpt | sealb | sealu | sealf => exact absurd (ho ▸ hop) (by decide)

/-- Only a queued command starts (R140). -/
theorem queued_of_canStart {s : State} {c : Cmd} (h : s.canStart c = true) : (c.st == .running) = false := by
  simp only [State.canStart, Bool.and_eq_true, beq_iff_eq] at h
  obtain ⟨⟨⟨⟨⟨hq, -⟩, -⟩, -⟩, -⟩, -⟩ := h
  rw [hq]
  rfl

/-- The state in which the engine has taken a command from its chain (R141). -/
def State.takeCmd (s : State) (c : Cmd) (id : Nat) : State :=
  (s.bearAgent c.agent c.start).modCmd id fun y => { y with st := .running }

section
variable {id : Nat} {c : Cmd} {s r q : State} {b : List Byte} (hc : s.cmd id = some c) (hcan : s.canStart c = true)
  (hread : (s.takeCmd c id).readRecord c = (r, .ok b))
include hc hcan hread

/-- A command whose turn it is and whose record has been read starts as its kind does, or is stopped by it. -/
theorem engineCommandStart_startKind :
    let c' := { c with recb := b, st := .running }
    (∀ k, (r.modCmd id fun _ => c').startKind c' = (q, .ok k) → exec (.engineCommandStart id) s = .next (q.modCmd id fun _ => k)) ∧
    ∀ e, (r.modCmd id fun _ => c').startKind c' = (q, .error e) → exec (.engineCommandStart id) s = stopStep q c' e := by
  have hst := queued_of_canStart hcan
  rw [State.takeCmd] at hread
  rw [exec_engineCommandStart, execEngineCommandStart]
  refine ⟨fun k hkind => ?_, fun e hkind => ?_⟩ <;>
    simp only [hc, hst, hcan, hread, hkind, Bool.false_and, Bool.false_eq_true, Bool.not_true, if_false]

omit hcan in
/-- The command whose record has been read is found under its number. -/
theorem cmd_readRecord : r.cmd id = some { c with st := .running } := by
  have hr : r.cmds = (s.takeCmd c id).cmds := (congrArg (fun x => x.1.cmds) hread).symm.trans (readRecord_cmds _ _)
  rw [State.cmd, hr]
  exact cmd_modCmd (s := s.bearAgent c.agent c.start) hc fun _ hy => hy

/-- A copy or gather command with a bad record will fault, at the address of its record (R141, R142). -/
theorem engineCommandStart_bad (hop : c.op ∈ [.cpyin, .cpyout, .cpygg, .gather, .scatter])
    (hbad : (r.modCmd id fun _ => { c with recb := b, st := .running }).copyRecordOk { c with recb := b, st := .running } = false) :
    ∃ t, exec (.engineCommandStart id) s = .next t ∧ t.mem = s.mem ∧
      t.cmd id = some { c with recb := b, st := .failing (c.sval.setWidth 64) } := by
  have hmem : r.mem = s.mem := (congrArg (fun x => x.1.mem) hread).symm.trans (readRecord_mem _ _)
  have hcmd := cmd_readRecord hc hread
  obtain rfl := id_of_cmd hc
  refine ⟨_, (engineCommandStart_startKind hc hcan hread).2 _ (startKind_bad hop hbad), hmem, ?_⟩
  have hstarted := cmd_modCmd (f := fun _ => { c with recb := b, st := .running }) hcmd fun _ _ => rfl
  exact cmd_modCmd (f := fun k => { k with st := .failing (c.sval.setWidth 64) }) hstarted fun _ hy => hy

end

/-! ### A command leaves its chain (R133, R140) -/

section
variable {s : State} {c : Cmd}

theorem cmd_leaveChain : (s.leaveChain c).cmd c.id = none := by
  have hcmds : (s.leaveChain c).cmds = s.cmds.filter fun k => !(k.id == c.id) := by
    unfold State.leaveChain State.teamFree
    split <;> rfl
  rw [State.cmd, hcmds, List.find?_eq_none]
  intro k hk
  simpa using (List.mem_filter.mp hk).2

/-- The team goes on: nothing of it or of the units changes as a command of it leaves. -/
theorem leaveChain_of_placed (h : (s.team c.team).st = .placed) : (s.leaveChain c).teams = s.teams ∧ (s.leaveChain c).units = s.units := by
  have hst : ¬ ((({ s with cmds := s.cmds.filter fun k => !(k.id == c.id) } : State).dropAgent c.agent).team c.team).st = .ended := by
    intro he
    exact TeamSt.noConfusion (h.symm.trans he)
  unfold State.leaveChain State.teamFree
  simp only [hst, decide_false, Bool.false_and, Bool.false_eq_true, if_false]
  exact ⟨rfl, rfl⟩

end

/-! ### The tile of a command (R131) -/

/-- A change of a command's tile, if it has one. -/
def State.moveTile (s : State) (c : Cmd) (f : TileEnt → TileEnt) : State :=
  match c.tile with
  | some t => s.modTile c.team t f
  | none => s

section
variable {s : State} {c : Cmd} {f : TileEnt → TileEnt}

theorem moveTile_mem : (s.moveTile c f).mem = s.mem := by
  unfold State.moveTile
  split
  · exact modTile_mem ..
  · rfl

theorem moveTile_team_st (n : Nat) : ((s.moveTile c f).team n).st = (s.team n).st := by
  unfold State.moveTile
  split
  · exact modTile_team_st ..
  · rfl

theorem unit_moveTile (v : Nat) : ∃ th, (s.moveTile c f).unit v = { s.unit v with th } := by
  unfold State.moveTile
  split
  · exact unit_modTile ..
  · exact ⟨_, rfl⟩

theorem tile_moveTile {t : Nat} (ht : c.tile = some t) : (s.moveTile c f).tile c.team t = f (s.tile c.team t) := by
  unfold State.moveTile
  rw [ht]
  dsimp only
  rw [tile_modTile, if_pos rfl]

end

/-! ### Completion (R140, R158) -/

section
variable {s q : State} {c : Cmd}

/-- The add is made to a counter that is ready, if the command names one (R140, R158): `q` is the state that its way to the counter
leaves. -/
def AddsOnce (s q : State) (c : Cmd) (x : CtrRef) : Prop :=
  c.ccnt = 0#64 ∧ q = s ∨ c.ccnt ≠ 0#64 ∧ x.ready = true ∧
    s.counterAt (s.unit c.u).part (s.grid c.grid).asid (s.unit c.u).slice c.ccnt = (q, .ok (.ok x))

theorem completionAdd_of {x : CtrRef} (h : AddsOnce s q c x) (a : Agent) (v : VC) :
    ∃ t, s.completionAdd c.u c.grid c.team c.cls a c.ccnt v = (t, none) ∧ t.teams = s.teams ∧
      t.mem = if c.ccnt = 0#64 then s.mem else (q.counterAdd (s.unit c.u).part (s.unit c.u).slice x 1#64).mem := by
  unfold State.completionAdd
  rcases h with ⟨h0, -⟩ | ⟨h0, hx, hat⟩
  · rw [if_pos h0, if_pos h0]
    exact ⟨s, rfl, rfl, rfl⟩
  · have hteams : q.teams = s.teams := (congrArg (fun r => r.1.teams) hat).symm.trans (counterAt_teams ..)
    simp only [h0, if_false, hat, hx, Bool.not_true, Bool.false_eq_true]
    refine ⟨_, rfl, ?_, publish_mem ..⟩
    rw [publish_teams, counterAdd_teams, hteams]

/-- Once nothing stops its add, a command leaves its chain (R140). -/
theorem finishCmd_of {t : State}
    (h : (s.moveTile c c.tileDone).completionAdd c.u c.grid c.team c.cls c.agent c.ccnt (VC.join c.rel (ownClock c.agent c.start)) =
      (t, none)) :
    s.finishCmd c = some (t.leaveChain c) := by
  unfold State.moveTile at h
  unfold State.finishCmd
  cases htile : c.tile with
  | none =>
    simp only [htile] at h
    simp only [h]
  | some tl =>
    simp only [htile] at h
    simp only [h]

/-- A command that runs, and whose effect and completion add nothing stops, completes (R140): it leaves its chain, its tile is READY. -/
theorem engineCommandComplete_done {id : Nat} {r : State} {x : CtrRef} (hc : s.cmd id = some c) (hst : c.st = .running)
    (hrun : s.runCmd c = (r, none)) (hteam : (r.team c.team).st = .placed) (hadd : AddsOnce (r.moveTile c c.tileDone) q c x) :
    ∃ t, exec (.engineCommandComplete id) s = .next t ∧ t.cmd id = none ∧ (∀ tl, c.tile = some tl → (t.tile c.team tl).st = .ready) ∧
      t.mem = if c.ccnt = 0#64 then r.mem
        else (q.counterAdd ((r.moveTile c c.tileDone).unit c.u).part ((r.moveTile c c.tileDone).unit c.u).slice x 1#64).mem := by
  obtain rfl := id_of_cmd hc
  obtain ⟨t, hcomp, hteams, hmem⟩ := completionAdd_of hadd c.agent (VC.join c.rel (ownClock c.agent c.start))
  have hfinish := finishCmd_of hcomp
  have hplaced : (t.team c.team).st = .placed := by
    rw [State.team, hteams]
    exact (moveTile_team_st _).trans hteam
  obtain ⟨hleft, -⟩ := leaveChain_of_placed hplaced
  refine ⟨t.leaveChain c, ?_, cmd_leaveChain, fun tl htl => ?_, ?_⟩
  · rw [exec_engineCommandComplete, execEngineCommandComplete]
    simp only [hc, hst, hrun, finishStep, hfinish, beq_self_eq_true, Bool.not_true, Bool.false_eq_true, if_false]
  · rw [State.tile, State.team, hleft, hteams]
    exact congrArg TileEnt.st (tile_moveTile htl)
  · rw [leaveChain_mem, hmem, moveTile_mem]

end

/-! ### Fault (R131, R142) -/

/-- The fault of a command, as it is held for its issuer. -/
def Cmd.fault (c : Cmd) (va : DWord) : Held :=
  { team := c.team, tile := c.tile, ctr := c.ccnt, failedAdd := false, sealu := c.op == .sealu, cls := c.cls, taddr := va }

section
variable {s : State} {c : Cmd}

theorem faultCmd_eq (va : DWord) : s.faultCmd c va = ((s.moveTile c c.tileFault).holdFault c.u c.grid (c.fault va)).leaveChain c := rfl

/-- A failing command of a live issuer faults (R142): the issuer holds its fault, and its tile has F. -/
theorem engineCommandFault_done {id : Nat} {va : DWord} (hc : s.cmd id = some c) (hst : c.st = .failing va) (hmark : c.marked = [])
    (hlive : (s.unit c.u).live = true) (hteam : (s.team c.team).st = .placed) :
    ∃ t, exec (.engineCommandFault id) s = .next t ∧ t.cmd id = none ∧ t.mem = s.mem ∧
      (t.unit c.u).held = (s.unit c.u).held ++ [c.fault va] ∧
      ∀ tl, c.tile = some tl → t.tile c.team tl = c.tileFault (s.tile c.team tl) := by
  obtain rfl := id_of_cmd hc
  obtain ⟨th, hth⟩ := unit_moveTile (s := s) (c := c) (f := c.tileFault) c.u
  have hlive' : ((s.moveTile c c.tileFault).unit c.u).live = true := by rw [hth]; exact hlive
  have hheld : (s.moveTile c c.tileFault).holdFault c.u c.grid (c.fault va) =
      (s.moveTile c c.tileFault).modUnit c.u fun w => { w with held := w.held ++ [c.fault va] } := by
    rw [State.holdFault]
    exact if_pos hlive'
  have hplaced : (((s.moveTile c c.tileFault).holdFault c.u c.grid (c.fault va)).team c.team).st = .placed := by
    rw [hheld]
    exact (moveTile_team_st _).trans hteam
  obtain ⟨hteams, hunits⟩ := leaveChain_of_placed hplaced
  refine ⟨s.faultCmd c va, ?_, ?_, faultCmd_mem .., ?_, fun tl htl => ?_⟩
  · rw [exec_engineCommandFault, execEngineCommandFault]
    simp only [hc, hst, State.endFault, State.unmarkAll, hmark, List.foldl_nil]
  · rw [faultCmd_eq]
    exact cmd_leaveChain
  · rw [faultCmd_eq, State.unit, hunits, hheld, ← State.unit, unit_modUnit, if_pos rfl, hth]
  · rw [faultCmd_eq, State.tile, State.team, hteams, hheld]
    exact tile_moveTile htl

end

/-- Settles O42: a start by its record and its kind, a completion by its add, a fault by its tile and its issuer. -/
theorem engineCommandsRun : Obligations.EngineCommandsRun := by
  unfold Obligations.EngineCommandsRun
  intro id c s r q b k va x hc
  refine ⟨fun hcan hread hkind => (engineCommandStart_startKind (c := c) hc hcan hread).1 k hkind,
    fun hcan hread hop hbad => engineCommandStart_bad (c := c) hc hcan hread hop hbad,
    fun hst hrun hteam hadd => engineCommandComplete_done hc hst hrun hteam hadd, fun hst hmark hlive hteam => ?_⟩
  obtain ⟨t, hexec, hcmd, hmem, hheld, htile⟩ := engineCommandFault_done hc hst hmark hlive hteam
  refine ⟨t, hexec, hcmd, hmem, hheld, fun tl htl => ?_⟩
  rw [htile tl htl]
  exact ⟨rfl, rfl⟩

end Sys2Proof.Machine
end

section
/-!
PROOFS. Collectives and remote accesses (R189, R304, R306, R326).
-/

namespace Sys2Proof.Machine

/-! ### A command that ends with no counter to add to (R140) -/

theorem modTile_rot (s : State) (tm t : Nat) (f : TileEnt → TileEnt) : (s.modTile tm t f).rot = s.rot :=
  modTile_induction s tm t f (P := fun x => x.rot = s.rot) rfl fun _ _ _ hx => hx

section
variable {s : State} {c : Cmd}

theorem moveTile_rot (f : TileEnt → TileEnt) : (s.moveTile c f).rot = s.rot := by
  unfold State.moveTile
  split
  · exact modTile_rot ..
  · rfl

/-- No unit changes as a command leaves its chain, nor does the root of trust, whatever becomes of its team. -/
theorem leaveChain_units_rot : (s.leaveChain c).units = s.units ∧ (s.leaveChain c).rot = s.rot := by
  unfold State.leaveChain State.teamFree
  split <;> exact ⟨rfl, rfl⟩

/-- A command that names no counter completes (R140): it leaves its chain, and changes neither memory nor the root of trust. -/
theorem finishStep_of_no_counter (h : c.ccnt = 0#64) :
    ∃ t, finishStep s c = .next t ∧ t.mem = s.mem ∧ t.rot = s.rot ∧ t.cmd c.id = none := by
  have hfinish : s.finishCmd c = some ((s.moveTile c c.tileDone).leaveChain c) := finishCmd_of (if_pos h)
  refine ⟨(s.moveTile c c.tileDone).leaveChain c, ?_, ?_, ?_, cmd_leaveChain⟩
  · rw [finishStep, hfinish]
  · rw [leaveChain_mem, moveTile_mem]
  · rw [leaveChain_units_rot.2, moveTile_rot]

end

/-! ### Sending (R189, R307, R326) -/

/-- What a member needs to send: its association can carry its traffic, and its SEND reads as `send`, whose messages leave `p`. -/
def State.Sends (s q p : State) (c : Cmd) (send : List Byte) : Prop :=
  ((collAt c.recb).linked = true → s.portOpen (s.unit c.u).slice (chanKey (collAt c.recb).chan) = true) ∧
    s.engReadSpan c (collAt c.recb).send (collAt c.recb).sendLen = (q, .ok send) ∧ (q.collFlit c).sendMessages c send = some p

section
variable {s q p : State} {c : Cmd} {send : List Byte}

theorem collReady_eq_some {id opc : Nat} (h : s.collReady id opc = some c) : s.cmd id = some c := by
  unfold State.collReady at h
  cases hc : s.cmd id with
  | none => simp only [hc, reduceCtorEq] at h
  | some d =>
    simp only [hc, Option.ite_none_right_eq_some] at h
    exact h.2

theorem collSend_first (hfirst : c.copies = []) (h : s.Sends q p c send) :
    s.collSend c = (p, .ok { c with copies := [((collAt c.recb).rank, send)] }) := by
  obtain ⟨hopen, hread, hsend⟩ := h
  have hgo : ((collAt c.recb).linked && !(s.portOpen (s.unit c.u).slice (chanKey (collAt c.recb).chan))) = false := by
    cases hl : (collAt c.recb).linked with
    | false => rfl
    | true => rw [hopen hl]; rfl
  simp only [State.collSend, hfirst, List.isEmpty_nil, Bool.not_true, Bool.false_eq_true, if_false, hgo, hread, hsend]

theorem collSend_again (hsent : c.copies ≠ []) : s.collSend c = (s, .ok c) := by
  have he : c.copies.isEmpty = false := List.isEmpty_eq_false_iff.mpr hsent
  simp only [State.collSend, he, Bool.not_false, if_true]

end

/-! ### A step of a collective or a get (R189) -/

/-- Whether some item differs from what all have to agree on, where they have to. -/
theorem and_any_bne_iff {α β : Type} [DecidableEq β] (b : Bool) (l : List α) (f : α → β) (v : β) :
    (b && l.any fun m => f m != v) = true ↔ b = true ∧ ∃ m ∈ l, f m ≠ v := by
  simp only [Bool.and_eq_true, List.any_eq_true, bne_iff_ne]

theorem and_any_bne_eq_false {α β : Type} [DecidableEq β] {b : Bool} {l : List α} {f : α → β} {v : β}
    (h : b = true → ∀ m ∈ l, f m = v) : (b && l.any fun m => f m != v) = false := by
  rw [Bool.eq_false_iff, ne_eq, and_any_bne_iff]
  rintro ⟨hb, m, hm, hne⟩
  exact hne (h hb m hm)

section
variable {s r : State} {id opc : Nat} {inputs : List Msg} {c : Cmd} (hready : s.collReady id opc = some c)
include hready

section
variable (hno : (collAt c.recb).matched = true → ∀ m ∈ inputs, m.n = s.collNo c) (htake : s.takeMsgs c inputs = some r)
include hno htake

/-- A step that sends, or that brings messages which the operation takes, goes on as the sending says. -/
theorem collStep_of_takes (hturn : c.copies = [] ∨ inputs ≠ [])
    (hhead : (collAt c.recb).matched = true → ∀ m ∈ inputs, m.head = (collAt c.recb).head)
    (htakes : (collAt c.recb).takes c.msgs inputs = true) {t : State} {k : Cmd} (hsend : r.collSend c = (t, .ok k)) :
    collStep id opc inputs s = .next (t.modCmd id fun _ => { k with msgs := k.msgs ++ inputs }) := by
  have hgoes : (c.copies.isEmpty || !inputs.isEmpty) = true := by
    rcases hturn with h | h <;> simp [h]
  simp only [collStep, hready, hgoes, if_true, and_any_bne_eq_false hno, htake, and_any_bne_eq_false hhead, htakes, hsend, Bool.not_true,
    Bool.false_eq_true, if_false]

/-- A message of the same operation whose fields differ faults the command, at the address of its record. -/
theorem collStep_of_differs (hmatched : (collAt c.recb).matched = true) (hdiffers : ∃ m ∈ inputs, m.head ≠ (collAt c.recb).head) :
    collStep id opc inputs s = .next (r.modCmd id fun x => { x with st := .failing (c.sval.setWidth 64) }) := by
  obtain rfl := id_of_cmd (collReady_eq_some hready)
  have hgoes : (c.copies.isEmpty || !inputs.isEmpty) = true := by
    obtain ⟨m, hm, -⟩ := hdiffers
    rw [List.isEmpty_eq_false_iff.mpr (List.ne_nil_of_mem hm)]
    exact Bool.or_true _
  have hbad := (and_any_bne_iff _ _ Msg.head _).mpr ⟨hmatched, hdiffers⟩
  simp only [collStep, hready, hgoes, if_true, and_any_bne_eq_false hno, htake, hbad, Bool.false_eq_true, if_false]
  rfl

end

/-- Once it has sent and has all that it receives, the command writes its RECV and completes. -/
theorem collStep_of_done {n : Nat} (hsent : c.copies ≠ []) (hctr : c.ccnt = 0#64) (hdone : collDone c = true)
    (hrun : s.runPlan c (c.left { locals := [], ops := collOps c }) = (r, n, none)) :
    ∃ t, collStep id opc [] s = .next t ∧ t.mem = r.mem ∧ t.cmd id = none := by
  obtain rfl := id_of_cmd (collReady_eq_some hready)
  obtain ⟨t, hfinish, hmem, -, hcmd⟩ := finishStep_of_no_counter (s := r) hctr
  refine ⟨t, ?_, hmem, hcmd⟩
  have he : c.copies.isEmpty = false := List.isEmpty_eq_false_iff.mpr hsent
  simp only [collStep, hready, he, List.isEmpty_nil, Bool.not_true, Bool.or_self, Bool.false_eq_true, if_false, hdone, if_true,
    State.collEnd, hrun, hfinish]

end

/-! ### A put (R189) -/

section
variable {s q p r : State} {id : Nat} {c : Cmd} {send : List Byte} (hready : s.collReady id 4 = some c)
include hready

theorem collPut_first (hfirst : c.copies = []) (h : s.Sends q p c send) : exec (.collPut id false) s =
    .next (p.modCmd id fun _ => { c with copies := [((collAt c.recb).rank, send)] }) := by
  simp only [exec_collPut, execCollPut, hready, Bool.and_false, Bool.false_eq_true, if_false, collSend_first hfirst h]

/-- The peer's acknowledgement ends a put that has been sent. -/
theorem collPut_acked (hsent : c.copies ≠ []) (hctr : c.ccnt = 0#64) (htake : s.takeMsgs c [ackMsg (collAt c.recb)] = some r) :
    ∃ t, exec (.collPut id true) s = .next t ∧ t.mem = s.mem ∧ t.cmd id = none := by
  obtain rfl := id_of_cmd (collReady_eq_some hready)
  obtain ⟨t, hfinish, hmem, -, hcmd⟩ := finishStep_of_no_counter (s := r) hctr
  refine ⟨t, ?_, hmem.trans (takeMsgs_mem _ _ _ htake), hcmd⟩
  have he : c.copies.isEmpty = false := List.isEmpty_eq_false_iff.mpr hsent
  simp only [exec_collPut, execCollPut, hready, he, Bool.false_and, Bool.false_eq_true, if_false, if_true, htake, hfinish]

end

/-! ### Where a remote access goes (R189, R304) -/

section
variable {s r : State} {sl pn ctx va n : Nat} {wr : Bool} {x : Xlat} {l : Loc}
  (hpermit : s.permit pn ctx sl (BitVec.ofNat 64 va) 1 wr = (r, .ok x))
include hpermit

theorem farReach_refused (hgrant : Config.portGrants pn x.pa = false) :
    s.farReach sl pn ctx va n wr = (r, .fire (x.wr wr) x.pa) := by
  simp only [State.farReach, hpermit, hgrant, Bool.not_false, if_true]

theorem farReach_granted (hgrant : Config.portGrants pn x.pa = true) (hloc : (r.part pn).locate x.pa = some l)
    (hready : r.lineReady l.key (x.pol == 2) = true) (hsn : wr = true → x.sn = false) :
    s.farReach sl pn ctx va n wr = (r, .at (x.acc (.port sl) (r.order.clock (.port sl)) pn l n) x) := by
  have hgo : (wr && x.sn) = false := by
    cases wr with
    | false => rfl
    | true => rw [hsn rfl]; rfl
  simp only [State.farReach, hpermit, hgrant, hloc, hready, hgo, Bool.not_true, Bool.or_self, Bool.false_eq_true, if_false]

variable (hone : lineChunks va n = [(va, n)]) (f : State → Acc1 → Xlat → Nat → State × Bool)
include hone

/-- An access in one line whose page the port mapping does not grant freezes the port. -/
theorem farSpan_refused (hgrant : Config.portGrants pn x.pa = false) :
    s.farSpan sl pn ctx va n wr f = (r.portFire sl (x.wr wr) x.pa, .drop) := by
  simp only [State.farSpan, hone, List.foldl_cons, List.foldl_nil, farReach_refused hpermit hgrant]

/-- An access in one line whose page is granted is performed once. -/
theorem farSpan_granted (hgrant : Config.portGrants pn x.pa = true) (hloc : (r.part pn).locate x.pa = some l)
    (hready : r.lineReady l.key (x.pol == 2) = true) (hsn : wr = true → x.sn = false) {a : Acc1}
    (ha : x.acc (.port sl) (r.order.clock (.port sl)) pn l n = a) :
    s.farSpan sl pn ctx va n wr f = ((f r a x 0).1, if (f r a x 0).2 then .done else .drop) := by
  simp only [State.farSpan, hone, List.foldl_cons, List.foldl_nil, farReach_granted hpermit hgrant hloc hready hsn, ha, Nat.sub_self]
  rcases f r a x 0 with ⟨t, _ | _⟩ <;> rfl

end

/-- A violation by what comes in freezes the port (R306). -/
theorem portFire_frozen (s : State) (sl : Nat) (wr : Bool) (pa : Nat) : ((s.portFire sl wr pa).slice sl).portFrozen = true := by
  rw [State.portFire, slice_modSlice, if_pos rfl]

/-! ### A put's bytes (R189, R212) -/

/-- A change of an entry's bit leaves every byte outside the entry. -/
theorem byte_setEntryBit_out (s : State) (sl k bit j : Nat) (h : j < k ∨ k + 8 ≤ j) : (s.setEntryBit sl k bit).byte j = s.byte j := by
  unfold State.setEntryBit
  dsimp only
  split
  · rfl
  · rw [byte_congr (crossing_mem _ _ _), State.putEntry, byte_congr (setPacked_mem _ _ _),
      byte_writeBytes_out _ _ _ _ (by rwa [leBytes_length])]

/-- The setting of D leaves every byte that is not of the entry. -/
theorem byte_setDirty_out (s : State) (sl : Nat) (x : Xlat) {j : Nat} (h : x.entryByte j = false) : (s.setDirty sl x).byte j = s.byte j := by
  unfold State.setDirty
  unfold Xlat.entryByte at h
  cases he : x.ent with
  | none => rfl
  | some k =>
    simp only [he, Bool.and_eq_false_iff, decide_eq_false_iff_not] at h
    exact byte_setEntryBit_out s sl k 7 j (by omega)

/-- What a put does at one of its lines. -/
def State.putLine (sl : Nat) (bytes : List Byte) (s : State) (a : Acc1) (t : Xlat) (o : Nat) : State × Bool :=
  match s.perfStore a ((bytes.drop o).take a.len) none with
  | (s, .ok _) => (s.setDirty sl t, true)
  | (s, .error _) => (s, false)

/-- A put whose bytes fill its access, and that races with nothing, leaves them at its place, and other bytes as they were but the
entry's. -/
theorem putLine_bytes (sl : Nat) {bytes : List Byte} {s : State} {a : Acc1} {x : Xlat} (hlen : bytes.length = a.len)
    (hrace : s.raceTest a true none = none) (hent : ∀ k, x.entryByte k = true → k < a.key ∨ a.key + a.len ≤ k) :
    (s.putLine sl bytes a x 0).1.bytes a.key a.len = bytes ∧
      ∀ k, k < a.key ∨ a.key + a.len ≤ k → x.entryByte k = false → (s.putLine sl bytes a x 0).1.byte k = s.byte k := by
  obtain ⟨hok, -⟩ := perfStore_mem s a bytes none hrace
  obtain ⟨hbytes, hout⟩ := perfStore_bytes s a bytes none hrace hlen
  have hput : (s.putLine sl bytes a x 0).1 = (s.perfStore a bytes none).1.setDirty sl x := by
    rw [State.putLine, List.drop_zero, ← hlen, List.take_length]
    revert hok
    rcases s.perfStore a bytes none with ⟨t, _ | _⟩
    · exact fun h => nomatch h
    · exact fun _ => rfl
  rw [hput]
  refine ⟨?_, fun k hk hne => (byte_setDirty_out _ sl x hne).trans (hout k hk)⟩
  refine Eq.trans (List.map_congr_left fun i hi => byte_setDirty_out _ sl x ?_) hbytes
  have hi := List.mem_range.mp hi
  refine Bool.eq_false_iff.mpr fun he => ?_
  have := hent _ he
  omega

/-! ### A get's bytes (R189) -/

/-- Two states that agree on the root of trust and on what each port gives out. -/
def samePorts (s t : State) : Prop := s.rot = t.rot ∧ ∀ i, (s.slice i).portOut = (t.slice i).portOut

theorem samePorts_trans {s t r : State} (h : samePorts s t) (h' : samePorts t r) : samePorts s r :=
  ⟨h.1.trans h'.1, fun i => (h.2 i).trans (h'.2 i)⟩

theorem samePorts_modSlice (s : State) (i : Nat) (f : Slice → Slice) (hf : ∀ y, (f y).portOut = y.portOut) : samePorts (s.modSlice i f) s := by
  refine ⟨rfl, fun j => ?_⟩
  rw [slice_modSlice]
  split
  · rename_i h; rw [hf, h]
  · rfl

theorem samePorts_sliceIrq (s : State) (sl : Nat) (i : Irq) : samePorts (s.sliceIrq sl i) s := by
  unfold State.sliceIrq
  dsimp only
  split
  · split <;> exact ⟨rfl, fun _ => rfl⟩
  · exact ⟨rfl, fun _ => rfl⟩

theorem samePorts_poisonLine (s : State) (line : Nat) : samePorts (s.poisonLine line) s := by
  unfold State.poisonLine
  dsimp only
  split
  · exact samePorts_trans (samePorts_sliceIrq _ _ _) (samePorts_modSlice _ _ _ fun _ => rfl)
  · exact samePorts_modSlice _ _ _ fun _ => rfl

theorem samePorts_readHalves (s : State) (line : Nat) (hs : List Nat) : samePorts (s.readHalves line hs).1 s := by
  unfold State.readHalves
  split
  · exact ⟨rfl, fun _ => rfl⟩
  · split
    · exact samePorts_poisonLine _ _
    · split
      · exact samePorts_modSlice _ _ _ fun _ => rfl
      · exact ⟨rfl, fun _ => rfl⟩

theorem samePorts_reach (s : State) (a : Acc1) (hs : List Nat) : samePorts (s.reach a hs).1 s :=
  samePorts_trans (samePorts_readHalves _ _ _) ⟨rfl, fun _ => rfl⟩

theorem samePorts_loadAt (s : State) (a : Acc1) (o : Option (BitVec 2)) : samePorts (s.loadAt a o).1 s := by
  unfold State.loadAt State.note
  split
  · exact ⟨rfl, fun _ => rfl⟩
  · cases a.k <;> cases o <;> exact ⟨rfl, fun _ => rfl⟩

/-- A load changes neither the root of trust nor what a port gives out. -/
theorem samePorts_perfLoad (s : State) (a : Acc1) (o : Option (BitVec 2)) : samePorts (s.perfLoad a o).1 s := by
  unfold State.perfLoad
  dsimp only
  split
  · exact samePorts_reach _ _ _
  · exact samePorts_trans (samePorts_loadAt _ _ _) (samePorts_reach _ _ _)

/-- What a get does at one of its lines. -/
def State.getLine (sl : Nat) (s : State) (a : Acc1) (_ : Xlat) (_ : Nat) : State × Bool :=
  match s.perfLoad a none with
  | (s, .ok bs) => (s.modSlice sl fun y => { y with portOut := y.portOut ++ bs }, true)
  | (s, .error _) => (s, false)

section
variable (sl : Nat) (s : State) (a : Acc1) (x : Xlat) (o : Nat)

theorem getLine_mem_rot : (s.getLine sl a x o).1.mem = s.mem ∧ (s.getLine sl a x o).1.rot = s.rot := by
  have hmem := perfLoad_mem s a none
  have hrot := (samePorts_perfLoad s a none).1
  unfold State.getLine
  split <;> rename_i he <;> rw [he] at hmem hrot <;> exact ⟨hmem, hrot⟩

/-- A get of a sound line that races with nothing adds the bytes that it reads to what goes out. -/
theorem getLine_portOut (hsound : lineSound s a.key = true) (hrace : s.raceTest a false none = none) :
    (s.getLine sl a x o).2 = true ∧ ((s.getLine sl a x o).1.slice sl).portOut = (s.slice sl).portOut ++ s.bytes a.key a.len := by
  have hload := perfLoad_sound s a none hsound
  have hport := (samePorts_perfLoad s a none).2 sl
  rw [hrace] at hload
  revert hload hport
  unfold State.getLine
  rcases s.perfLoad a none with ⟨t, _ | bs⟩
  · exact fun h => nomatch h
  · intro hload hport
    obtain rfl : bs = s.bytes a.key a.len := Except.ok.inj hload
    refine ⟨rfl, ?_⟩
    dsimp only
    rw [slice_modSlice, if_pos rfl, hport]

end

/-- An association that may send answers a get, which changes no more than the root of trust (R326). -/
theorem farAnswer_of_open {s : State} {sl a : Nat} (acc : RemoteAccess)
    (h : (Tab.find? s.rot.assocs (assocKey sl a)).any (fun y => !y.barred && !y.needRekey) = true) :
    ∃ t, s.farAnswer sl a acc = some t ∧ t.mem = s.mem ∧ t.slices = s.slices := by
  unfold State.farAnswer
  cases hf : Tab.find? s.rot.assocs (assocKey sl a) with
  | none => simp only [hf, Option.any_none, Bool.false_eq_true] at h
  | some y =>
    simp only [hf, Option.any_some, Bool.and_eq_true, Bool.not_eq_true'] at h
    obtain ⟨hbar, hkey⟩ := h
    refine ⟨s.setAssoc sl a (y.send (Config.wireReply acc (s.slice sl).portOut)), ?_, rfl, rfl⟩
    simp only [Option.bind_some, hbar, hkey, Bool.or_self, Bool.false_eq_true, if_false]

/-! ### The step of a remote access (R189, R306) -/

section
variable {s s0 : State} {sl pn as : Nat} {acc : RemoteAccess} (hpart : (s.slice sl).part = some pn)
  (h8 : (s.slice sl).srdy.getLsbD 8 = true) (h9 : (s.slice sl).srdy.getLsbD 9 = true)
  (htake : s.takeAccess sl (Config.wireAccess acc) = some (as, s0))
include hpart h8 h9 htake

theorem remoteAccess_frozen (hfrozen : (s.slice sl).portFrozen = true) : exec (.fabricRemoteAccess sl acc) s =
    .next (s0.modSlice sl fun y => { y with portDrops := y.portDrops + 1 }) := by
  simp only [exec_fabricRemoteAccess, execFabricRemoteAccess, hpart, h8, h9, htake, hfrozen, Bool.and_self, Bool.not_true,
    Bool.false_eq_true, if_false, if_true]

variable (hfrozen : (s.slice sl).portFrozen = false)
include hfrozen

/-- A put with no counter, done or dropped, leaves what its lines leave. (`erw`, here and for a get: the step's own function of a line is
`putLine` by unfolding alone.) -/
theorem remotePut_ends {ctx va : Nat} {bytes : List Byte} (hacc : acc = .put ctx va bytes 0) {t : State} {e : FarEnd} (he : e ≠ .wait)
    (hspan : (s0.active pn).farSpan sl pn ctx va bytes.length true (State.putLine sl bytes) = (t, e)) :
    exec (.fabricRemoteAccess sl acc) s = .next t := by
  subst hacc
  simp only [exec_fabricRemoteAccess, execFabricRemoteAccess, hpart, h8, h9, htake, hfrozen, Bool.and_self, Bool.not_true,
    Bool.false_eq_true, if_false]
  erw [hspan]
  cases e with
  | done => rfl
  | wait => exact absurd rfl he
  | drop => rfl

section
variable {ctx va len : Nat} (hacc : acc = .get ctx va len) {t : State}
include hacc

theorem remoteGet_dropped
    (hspan : (s0.modSlice sl fun y => { y with portOut := [] }).farSpan sl pn ctx va len false (State.getLine sl) = (t, .drop)) :
    exec (.fabricRemoteAccess sl acc) s = .next t := by
  subst hacc
  simp only [exec_fabricRemoteAccess, execFabricRemoteAccess, hpart, h8, h9, htake, hfrozen, Bool.and_self, Bool.not_true,
    Bool.false_eq_true, if_false]
  erw [hspan]

theorem remoteGet_answered {u : State}
    (hspan : (s0.modSlice sl fun y => { y with portOut := [] }).farSpan sl pn ctx va len false (State.getLine sl) = (t, .done))
    (hanswer : t.farAnswer sl as acc = some u) : exec (.fabricRemoteAccess sl acc) s = .next u := by
  subst hacc
  simp only [exec_fabricRemoteAccess, execFabricRemoteAccess, hpart, h8, h9, htake, hfrozen, Bool.and_self, Bool.not_true,
    Bool.false_eq_true, if_false]
  erw [hspan]
  simp only [hanswer]

end

end

section
variable {s s0 r : State} {sl pn as ctx va : Nat} {acc : RemoteAccess} {x : Xlat} {l : Loc} (hpart : (s.slice sl).part = some pn)
  (h8 : (s.slice sl).srdy.getLsbD 8 = true) (h9 : (s.slice sl).srdy.getLsbD 9 = true)
  (htake : s.takeAccess sl (Config.wireAccess acc) = some (as, s0)) (hfrozen : (s.slice sl).portFrozen = false)
  (hloc : (r.part pn).locate x.pa = some l) (hready : r.lineReady l.key (x.pol == 2) = true)
include hpart h8 h9 htake hfrozen hloc hready

/-- A put in one line: granted, its bytes are put; not granted, the port freezes (R189, R304, R306). -/
theorem remotePut_one {bytes : List Byte} (hacc : acc = .put ctx va bytes 0) (hone : lineChunks va bytes.length = [(va, bytes.length)])
    (hpermit : (s0.active pn).permit pn ctx sl (BitVec.ofNat 64 va) 1 true = (r, .ok x)) (hsn : x.sn = false) :
    ∃ t, exec (.fabricRemoteAccess sl acc) s = .next t ∧
      (Config.portGrants pn x.pa = true →
        t = (r.putLine sl bytes (x.acc (.port sl) (r.order.clock (.port sl)) pn l bytes.length) x 0).1) ∧
      (Config.portGrants pn x.pa = false → t.mem = r.mem ∧ (t.slice sl).portFrozen = true) := by
  cases hgrant : Config.portGrants pn x.pa with
  | false =>
    have hspan := farSpan_refused hpermit hone (State.putLine sl bytes) hgrant
    exact ⟨_, remotePut_ends hpart h8 h9 htake hfrozen hacc (by decide) hspan, nofun,
      fun _ => ⟨portFire_mem .., portFire_frozen ..⟩⟩
  | true =>
    have hspan := farSpan_granted hpermit hone (State.putLine sl bytes) hgrant hloc hready (fun _ => hsn) rfl
    refine ⟨_, remotePut_ends hpart h8 h9 htake hfrozen hacc ?_ hspan, fun _ => rfl, nofun⟩
    split <;> exact FarEnd.noConfusion

/-- A get in one line on an association that may answer: memory stays, and what it reads goes out (R189, R326). -/
theorem remoteGet_one {len : Nat} (hacc : acc = .get ctx va len) (hone : lineChunks va len = [(va, len)])
    (hpermit : (s0.modSlice sl fun y => { y with portOut := [] }).permit pn ctx sl (BitVec.ofNat 64 va) 1 false = (r, .ok x))
    (hopen : (Tab.find? r.rot.assocs (assocKey sl as)).any (fun y => !y.barred && !y.needRekey) = true) :
    ∃ t, exec (.fabricRemoteAccess sl acc) s = .next t ∧ t.mem = r.mem ∧
      (Config.portGrants pn x.pa = true → lineSound r l.key = true →
        r.raceTest (x.acc (.port sl) (r.order.clock (.port sl)) pn l len) false none = none →
        (t.slice sl).portOut = (r.slice sl).portOut ++ r.bytes l.key len) := by
  cases hgrant : Config.portGrants pn x.pa with
  | false =>
    have hspan := farSpan_refused hpermit hone (State.getLine sl) hgrant
    exact ⟨_, remoteGet_dropped hpart h8 h9 htake hfrozen hacc hspan, portFire_mem .., nofun⟩
  | true =>
    obtain ⟨a, ha⟩ : ∃ a, x.acc (.port sl) (r.order.clock (.port sl)) pn l len = a := ⟨_, rfl⟩
    have hspan := farSpan_granted hpermit hone (State.getLine sl) hgrant hloc hready nofun ha
    obtain ⟨hkey, hlen⟩ : a.key = l.key ∧ a.len = len := ha ▸ ⟨rfl, rfl⟩
    rw [ha, ← hkey, ← hlen]
    obtain ⟨hmem, hrot⟩ := getLine_mem_rot sl r a x 0
    cases hread : (r.getLine sl a x 0).2 with
    | false =>
      refine ⟨_, remoteGet_dropped hpart h8 h9 htake hfrozen hacc (by rw [hspan, hread]; rfl), hmem, fun _ hsound hrace => ?_⟩
      exact Bool.noConfusion (hread.symm.trans (getLine_portOut sl r a x 0 hsound hrace).1)
    | true =>
      obtain ⟨t, hanswer, htmem, htslices⟩ := farAnswer_of_open acc (hrot ▸ hopen)
      refine ⟨t, remoteGet_answered hpart h8 h9 htake hfrozen hacc (by rw [hspan, hread]; rfl) hanswer, htmem.trans hmem,
        fun _ hsound hrace => ?_⟩
      rw [State.slice, htslices]
      exact (getLine_portOut sl r a x 0 hsound hrace).2

end

/-- Settles O43: a collective's step by whether it sends, brings messages or ends; a remote access by its one line. -/
theorem collectivesAndRemoteAccessesRun : Obligations.CollectivesAndRemoteAccessesRun := by
  unfold Obligations.CollectivesAndRemoteAccessesRun
  refine ⟨fun id n inputs c s r q p send => ?_,
    fun sl pn as ctx va len acc bytes s s0 r x l hpart h8 h9 htake => ⟨remoteAccess_frozen hpart h8 h9 htake, ?_, ?_⟩⟩
  · intro k sends does
    have hdoes : ∀ opc i, (∀ l s, exec (i l) s = collStep id opc l s) → does opc i := by
      intro opc i hi hready
      refine ⟨fun hno htake => ⟨fun hhead htakes => ⟨fun hfirst hsends => ?_, fun hsent hin => ?_⟩,
        fun hmatched hdiffers => (hi _ _).trans (collStep_of_differs hready hno htake hmatched hdiffers)⟩,
        fun hsent hctr hdone hrun => ?_⟩
      · exact (hi _ _).trans (collStep_of_takes hready hno htake (.inl hfirst) hhead htakes (collSend_first hfirst hsends))
      · exact (hi _ _).trans (collStep_of_takes hready hno htake (.inr hin) hhead htakes (collSend_again hsent))
      · rw [hi]
        exact collStep_of_done hready hsent hctr hdone hrun
    exact ⟨hdoes 0 _ fun _ _ => rfl, hdoes 1 _ fun _ _ => rfl, hdoes 2 _ fun _ _ => rfl, hdoes 3 _ fun _ _ => rfl,
      hdoes 5 _ fun _ _ => rfl, hdoes 6 _ fun _ _ => rfl, collPut_first, collPut_acked⟩
  · intro hfrozen hacc hone hpermit hloc hready hsn a
    obtain ⟨t, hexec, hgranted, hrefused⟩ := remotePut_one hpart h8 h9 htake hfrozen hloc hready hacc hone hpermit hsn
    refine ⟨t, hexec, fun hgrant hrace hent => ?_, hrefused⟩
    rw [hgranted hgrant]
    exact putLine_bytes sl rfl hrace hent
  · exact fun hfrozen hacc hone hpermit hloc hready => remoteGet_one hpart h8 h9 htake hfrozen hloc hready hacc hone hpermit

end Sys2Proof.Machine
end

section
/-!
PROOFS. Checkpoint commands and seal contexts (R190, R194, R219, R332, R333).
-/

namespace Sys2Proof.Machine

/-! ### The status word (R194) -/

/-- The step that a checkpoint command takes ends it: it leaves its chain, and memory and the root of trust are as in `q`. -/
def EndsAs (o : Out State) (q : State) (id : Nat) : Prop := ∃ t, o = .next t ∧ t.mem = q.mem ∧ t.rot = q.rot ∧ t.cmd id = none

/-- A command whose status word can be written completes by writing it. -/
theorem ckptEnd_of_written {s q : State} {c : Cmd} {status : Nat} (hctr : c.ccnt = 0#64)
    (hstatus : s.engWriteSpan c (fieldAt c.recb 32 8) (leBytes 8 status) = (q, none)) : EndsAs (ckptEnd s c status) q c.id := by
  obtain ⟨t, hfinish, hmem, hrot, hcmd⟩ := finishStep_of_no_counter (s := q) hctr
  exact ⟨t, by simp only [ckptEnd, hstatus, hfinish], hmem, hrot, hcmd⟩

/-! ### A checkpoint command that runs (R194, R219, R332, R333) -/

section
variable {s r q : State} {id : Nat} {c : Cmd} (hc : s.cmd id = some c) (hop : c.op = .ckpt) (hst : c.st = .running)
include hc hop hst

/-- A marked page is copied, and its mark is gone. -/
theorem ckptPageCopy_one {va p n : Nat} {bs : List Byte} (hmark : c.marked.contains va = true) (hpart : c.pageParts va = [(p, n)])
    (hcopy : s.engCopy c p n = (r, .ok bs)) : exec (.ckptPageCopy id va) s =
    .next ((r.modCmd id fun y => { y with copies := y.copies ++ [(p, bs)] }).unmarkPage c va) := by
  simp only [exec_ckptPageCopy, execCkptPageCopy, hc, hop, hst, hmark, beq_self_eq_true, Bool.not_true, Bool.or_self, Bool.false_eq_true,
    if_false, hpart, List.foldl_cons, List.foldl_nil, hcopy, List.nil_append]

section
variable (hmode : fieldAt c.recb 0 1 = 0) (hmark : c.marked = [])
include hmode hmark

theorem ckptSave_unreached (readback : Nat) : exec (.ckptSave id false readback) s = ckptEnd s c 4 := by
  simp only [exec_ckptSave, execCkptSave, hc, hop, hst, hmode, hmark, List.isEmpty_nil, beq_self_eq_true, Bool.not_true, Bool.not_false,
    Bool.or_self, Bool.false_eq_true, if_false, if_true]

theorem ckptSave_stored {readback : Nat} {ss : List Shard} {ok : Bool}
    (hsave : saveShards (fieldAt c.recb 1 1 == 1) s.rot.shards readback (c.shards.map c.shardOf) = (ss, ok)) :
    exec (.ckptSave id true readback) s = ckptEnd { s with rot := { s.rot with shards := ss } } c (if ok then 0 else 2) := by
  simp only [exec_ckptSave, execCkptSave, hc, hop, hst, hmode, hmark, List.isEmpty_nil, beq_self_eq_true, Bool.not_true, Bool.or_self,
    Bool.false_eq_true, if_false, hsave]

end

section
variable (hmode : fieldAt c.recb 0 1 = 1)
include hmode

theorem ckptRestore_unreached (hnew : c.copies = []) : exec (.ckptRestore id false) s = ckptEnd s c 4 := by
  simp only [exec_ckptRestore, execCkptRestore, hc, hop, hst, hmode, hnew, List.isEmpty_nil, beq_self_eq_true, Bool.not_true,
    Bool.not_false, Bool.or_self, Bool.and_self, Bool.false_eq_true, if_false, if_true]

variable {reach : Bool} (hreach : (!reach && c.copies.isEmpty) = false)
include hreach

/-- A restore that has reached the store goes on by what it is to write, or ends with the status that it has come to. -/
theorem ckptRestore_error {k : Nat} (hwrites : s.restoreWrites c = (r, .error k)) :
    exec (.ckptRestore id reach) s = ckptEnd r c k := by
  simp only [exec_ckptRestore, execCkptRestore, hc, hop, hst, hmode, beq_self_eq_true, Bool.not_true, Bool.or_self, Bool.false_eq_true,
    if_false, hreach, hwrites]

theorem ckptRestore_ok {t : State} {n : Nat} {ws : List (Nat × List Byte)} (hwrites : s.restoreWrites c = (t, .ok ws))
    (hrun : t.runPlan c (c.left { locals := [], ops := restoreOps ws }) = (r, n, none)) :
    exec (.ckptRestore id reach) s = ckptEnd r c 0 := by
  simp only [exec_ckptRestore, execCkptRestore, hc, hop, hst, hmode, beq_self_eq_true, Bool.not_true, Bool.or_self, Bool.false_eq_true,
    if_false, hreach, hwrites, hrun]

end

end

/-! ### What a restore is to write (R333) -/

section
variable {s : State} {c : Cmd}

theorem restoreWrites_kept (h : c.copies ≠ []) : s.restoreWrites c = (s, .ok c.copies) := by
  simp only [State.restoreWrites, List.isEmpty_eq_false_iff.mpr h, Bool.not_false, if_true]

variable (hnew : c.copies = [])
include hnew

theorem restoreWrites_error {k : Nat} (h : chooseStep (s.rot.shards.filter fun x => x.store == c.store) c.shards c.step = .error k) :
    s.restoreWrites c = (s, .error k) := by
  simp only [State.restoreWrites, hnew, List.isEmpty_nil, Bool.not_true, Bool.false_eq_true, if_false, h]

theorem restoreWrites_chosen {step : DWord} {ws : List (Nat × List Byte)}
    (h : chooseStep (s.rot.shards.filter fun x => x.store == c.store) c.shards c.step = .ok step)
    (hws : restoreLines ((s.rot.shards.filter fun x => x.store == c.store).filter fun x => x.step == step) c.shards = ws) :
    s.restoreWrites c = (s.modCmd c.id fun x => { x with copies := ws }, .ok ws) := by
  simp only [State.restoreWrites, hnew, List.isEmpty_nil, Bool.not_true, Bool.false_eq_true, if_false, h, hws]

end

/-! ### A seal context is voided (R190) -/

/-- After a voiding the unit has no context open, whether its record has been written or not. -/
theorem voidSeal_closes (s : State) (c : Cmd) (reason : Nat) : ((s.voidSeal c reason).1.unit c.u).sealCtx = none := by
  unfold State.voidSeal
  split
  · assumption
  · dsimp only
    rw [unit_modUnit, if_pos rfl]

theorem sealContextVoid_done {s r : State} {u reason : Nat} {k : Seal} (hctx : (s.unit u).sealCtx = some k) (hvoid : k.void = some reason)
    (hstart : s.mayStart u = true) (h10 : (s.slice (s.unit u).slice).srdy.getLsbD 10 = true)
    (hended : ∀ c ∈ s.cmds, c.u = u → c.cls ≠ 5)
    (hrun : (({ s with nextId := s.nextId + 1, cmds := s.cmds ++ [s.voidCmd u] } : State).bearAgent (s.voidCmd u).agent
      (s.voidCmd u).start).voidSeal (s.voidCmd u) reason = (r, none)) :
    ∃ t, exec (.sealContextVoid u reason) s = .next t ∧ t.mem = r.mem ∧ (t.unit u).sealCtx = none := by
  have hnone : (s.cmds.any fun c => c.u == u && c.cls == 5) = false := by
    simpa only [List.any_eq_false, Bool.and_eq_true, beq_iff_eq, not_and] using hended
  refine ⟨r.leaveChain (s.voidCmd u), ?_, leaveChain_mem .., ?_⟩
  · simp only [exec_sealContextVoid, execSealContextVoid, hctx, hvoid, hstart, h10, hnone, hrun, beq_self_eq_true, Bool.not_true,
      Bool.or_self, Bool.false_eq_true, if_false]
  · have hclosed := voidSeal_closes (({ s with nextId := s.nextId + 1, cmds := s.cmds ++ [s.voidCmd u] } : State).bearAgent
      (s.voidCmd u).agent (s.voidCmd u).start) (s.voidCmd u) reason
    rw [hrun] at hclosed
    rw [State.unit, leaveChain_units_rot.1]
    exact hclosed

/-- Settles O44: a page's copy, a save and a restore by what each writes last; the voiding of a seal context by its record. -/
theorem checkpointsAndSealsRun : Obligations.CheckpointsAndSealsRun := by
  unfold Obligations.CheckpointsAndSealsRun
  refine ⟨fun id va p n readback k bs c step ok reach ss s r q hc hop hst hctr => ?_,
    fun u reason k s hctx hvoid hstart h10 hended r => sealContextVoid_done hctx hvoid hstart h10 hended⟩
  obtain rfl := id_of_cmd hc
  intro status ends ours
  have hends : ∀ {i : Instr} {y : State} {v : Nat}, exec i s = ckptEnd y c v → status y v = (q, none) → ends i := by
    intro i y v hi hstatus
    change EndsAs (exec i s) q c.id
    rw [hi]
    exact ckptEnd_of_written hctr hstatus
  refine ⟨ckptPageCopy_one hc hop hst,
    fun hmode hmark => hends (ckptSave_unreached hc hop hst hmode hmark readback),
    fun hmode hmark hsave => hends (ckptSave_stored hc hop hst hmode hmark hsave), ?_⟩
  intro writes
  have hrestores : ∀ {reach y ws}, fieldAt c.recb 0 1 = 1 → (!reach && c.copies.isEmpty) = false → s.restoreWrites c = (y, .ok ws) →
      writes y ws → ends (.ckptRestore c.id reach) := by
    rintro reach y ws hmode hreach hws ⟨hrun, hstatus⟩
    exact hends (ckptRestore_ok hc hop hst hmode hreach hws hrun) hstatus
  refine ⟨fun hmode hnew => hends (ckptRestore_unreached hc hop hst hmode hnew), fun hmode hnew hchoose => ?_,
    fun hmode hnew hchoose hwrites => ?_, fun hmode hkept hwrites => ?_⟩
  · exact hends (ckptRestore_error hc hop hst hmode rfl (restoreWrites_error hnew hchoose))
  · exact hrestores hmode rfl (restoreWrites_chosen hnew hchoose rfl) hwrites
  · exact hrestores hmode (by rw [List.isEmpty_eq_false_iff.mpr hkept, Bool.and_false]) (restoreWrites_kept hkept) hwrites

end Sys2Proof.Machine
end
